-- ==== Sys2Proof/Word.lean ====
section
/-! DEFINITION. The word types of the SCM-7240 model and their plainest arithmetic. -/

namespace Sys2Proof

/-- A register word: 32 bits (R10). -/
abbrev Word := BitVec 32

/-- A byte. -/
abbrev Byte := BitVec 8

/-- A 64-bit count. -/
abbrev Word64 := BitVec 64

/-- A host window, W0 to W3. -/
abbrev Win := Fin 4

/-- A string, its chain loop and its converter (R2). -/
abbrev Str := Fin 4

end Sys2Proof
end

