-- ==== Sys2Proof/Syntax.lean ====
section
/-!
DEFINITION. The commands of the block: one constructor of `Instr` per row of spec/opcode_table.json, with the data
that reaches the module from outside in that step (a host's value, a frame, a reading). The chapters that give each
row's meaning are cited at the meanings in `Sys2Proof/Machine/`.
-/

namespace Sys2Proof

/-- The variants of *Table: Variant resources* (R4). -/
inductive Variant where
  | s4 | m4 | s2
  deriving DecidableEq, Repr

/-- The three planes (R19). -/
inductive Plane where
  | control | data | management
  deriving DecidableEq, Repr

/-- The engines: the subsystems of *Table: Subsystems* and their parts (R19, R35, R37). -/
inductive Engine where
  | chain | bank | estimator | impedance | control | pwm | thermal | logic | fieldIo | can | network | host | recorder
  | pair | relay | loader | window | traceability | ringManager | panel | safety | ember
  deriving DecidableEq, Repr

/-- The plane whose priority an engine's accesses carry (*Table: Subsystems*): the safety lanes stand outside the planes,
and the mode manager and the ring manager are meeting points. -/
def Engine.plane : Engine → Option Plane
  | .chain | .bank | .control | .pwm | .thermal | .logic | .fieldIo | .pair => some .control
  | .estimator | .impedance | .can | .network | .host | .recorder | .window => some .data
  | .relay | .loader | .traceability | .panel => some .management
  | .ringManager | .safety | .ember => none

/-- The clock domains of *Table: Clock domains* (R39). -/
inductive Domain where
  | emb | lpo | tcx | sys | mem | ctl | hrp | adc | cht | chr | eth | can | hst | usb | saf | fio
  deriving DecidableEq, Repr

/-- A reading of the LOTO key (R63). -/
inductive Loto where
  | between | run | maint | lock
  deriving DecidableEq, Repr

/-- The transports of *Table: Transports* (R438). -/
inductive Transport where
  | none | qspiA | qspiB | ethernet | usb
  deriving DecidableEq, Repr

/-- The grant of a window to a page (R38). -/
inductive Access where
  | none | read | readWrite
  deriving DecidableEq, Repr

/-- What one Window billet entry sets for a window (R38, R438, R439). -/
structure WinBind where
  transport : Transport
  quad : Bool
  rights : Byte
  /-- page base / 64 KB (or aperture base / 64 KB) and its grant -/
  access : List (Nat × Access)
  deriving DecidableEq, Repr

/-- Use of a working SRAM partition named by the Memory billet (R35). -/
inductive PartUse where
  | rings | sweep (k : Str) | result (k : Str) | capture (c : Fin 4) | canRx (c : Fin 3) | buffers (w : Win)
  | staging | recRead | logic | estimator | tables | other
  deriving DecidableEq, Repr

/-- A partition of working SRAM: offset and length in bytes, plane and use (R35). -/
structure Partition where
  base : Nat
  len : Nat
  plane : Plane
  use : PartUse
  /-- the grant of each window to the partition; a window that is not named has none (R36, R46) -/
  wins : List (Win × Access)
  /-- the grant of each engine instance to the partition; one that is not named has none (R35) -/
  engs : List (Engine × Nat × Access) := []
  deriving DecidableEq, Repr

/-- The use of a ring (R54): its producer (the host, or an engine instance), the producer's plane, its full-ring policy
(0 BLOCK, 1 DROP, 2 STOP) and whether the producer has a deadline (R52). -/
structure RingUse where
  host : Bool
  engine : Engine
  inst : Nat := 0
  plane : Plane
  policy : Nat
  deadline : Bool := false
  deriving DecidableEq, Repr

/-- A source of the event routing matrix that the spec names (R28). -/
inductive EvSource where
  | isoAlarm | fioFault | canState (c : Fin 3) | hpb (c : Fin 3) (h : Fin 4) | sched (n : Fin 8) | user (n : Fin 32)
  | lane (n : Nat) | other (n : Nat)
  deriving DecidableEq, Repr

/-- A sink of the event routing matrix that the spec names (R28, R297, R354, R505). -/
inductive EvSink where
  | task (t : Fin 16) | capture (c : Fin 4) | health | other (n : Nat)
  deriving DecidableEq, Repr

/-- A consumer of a crossbar route (R33). -/
inductive Consumer where
  | window (w : Win) | logicXi (n : Fin 32) | loopInput (n : Fin 64) (i : Fin 4) | estimator (k : Str)
  | capture (c : Fin 4) | ring (r : Fin 64) | other (n : Nat)
  deriving DecidableEq, Repr

/-- A crossbar producer whose words this manual names (R33, R316, *Table: Image areas*). -/
inductive Producer where
  | channel (c : Fin 24) | current (k : Str) | context (n : Fin 64) | cooling (k : Str) | heating (k : Str)
  | logicXq (n : Fin 32) | other (n : Nat)
  deriving DecidableEq, Repr

/-- A crossbar route: the producer with its tag, and at most four consumers (R33). -/
structure Route where
  producer : Producer
  tag : Byte
  consumers : List Consumer
  deriving DecidableEq, Repr

/-- Entry of the Function table of the Safety billet (R326). Class 0 REPORT, 1 STRING, 2 BAY, 3 ALL. -/
structure SafFunc where
  enable : Bool
  cls : Nat
  strings : BitVec 4
  deriving DecidableEq, Repr

/-- Entry of the Input table (R326). -/
structure SafInput where
  tested : Bool
  tDisc : Nat := 20
  startup : Bool
  strings : BitVec 4
  deriving DecidableEq, Repr

/-- Entry of the Output table (R326). `permit` is the combination term that permits an AUX output. -/
structure SafOutput where
  auxString : Nat
  tpPer : Nat := 10
  parallel : Bool
  bay : Bool
  permit : Option Nat
  deriving DecidableEq, Repr

/-- Entry of the Loop table (R326). -/
structure SafLoop where
  snum : Nat
  lset : Byte
  deriving DecidableEq, Repr

/-- A data bit that a producing connection maps (R351). -/
inductive SafBit where
  | demand (f : Nat) | latch (f : Nat) | input (n : Fin 8) | contactor (j : Fin 16) | lease
  deriving DecidableEq, Repr

/-- Entry of the Connection table (R326). `dir` 0 unused, 1 consumed, 2 produced. `bits` maps produced bits in order;
`demandBits` names the consumed bits mapped to SC_DEMAND. -/
structure SafConn where
  dir : Nat
  connId : Word
  dlen : Nat
  wd : Nat := 100
  pPer : Nat := 20
  required : Bool
  bits : List SafBit
  demandBits : List Nat
  deriving DecidableEq, Repr

/-- A condition of a combination term (R326). -/
inductive SafCond where
  | input (n : Fin 8) | connBit (c : Fin 16) (b : Nat) | demand (f : Nat) | contactor (j : Fin 16) | loto (p : Loto)
  | lease
  deriving DecidableEq, Repr

/-- A combination term: an AND of conditions, each optionally inverted; `isTerm` when its result is a TERM demand. -/
structure SafTerm where
  conds : List (SafCond × Bool)
  isTerm : Bool
  deriving DecidableEq, Repr

/-- The content of the Safety billet (R326); a parameter that it leaves unset takes the default of *Table: Safety
parameters* (R9), which is the field's default here. Times in ms (TP_W in µs), voltages in mV, currents in mA. -/
structure SafetyBillet where
  otTrip : Int := 1040
  sumTmo : Nat := 500
  ocTrip : Int := 650000
  ocN : Nat := 2
  tpW : Nat := 200
  tPre : Nat := 2000
  kClose : Nat := 50
  vWeld : Int := 50000
  tOpen : Nat := 100
  laneDegMaxH : Nat := 72
  funcs : List SafFunc
  inputs : List SafInput
  outputs : List SafOutput
  loops : List SafLoop
  therms : List Bool
  conns : List SafConn
  terms : List SafTerm
  deriving DecidableEq, Repr

/-- A variable map entry of a logic task (R359). -/
structure VarEntry where
  symid : Word
  ty : Nat
  size : Nat
  off : Nat
  init : List Byte
  deriving DecidableEq, Repr

/-- A loaded logic task: the header of R359 and its sections. -/
structure TaskImage where
  cycle : Nat
  offset : Nat
  twd : Nat
  prio : Nat
  errorTask : Bool
  stnMask : BitVec 16
  dataLen : Nat
  code : List Word
  vars : List VarEntry
  iou : List Word
  deriving DecidableEq, Repr

/-- What an Estimator billet sets for a string beside registers (R79, R221, R235, R244). -/
structure EstBillet where
  str : Str
  seed : Word
  soc0 : Nat := 32768
  cDef : Nat
  /-- impedance defaults: table index f + 12·sb + 96·tb, real and imaginary part in 0.1 µΩ -/
  imp : List (Nat × Int × Int)
  /-- temperature curve of R261: φ in 0.01°, T in 1/16 °C -/
  curve : List (Int × Int)
  deriving DecidableEq, Repr

/-- A static IP address of the host protocol with its prefix length and gateway (R419). -/
structure NetAddr where
  addr : Nat
  pfx : Nat
  gateway : Nat
  deriving DecidableEq, Repr

/-- What the billets of a Cord set, in the terms of this manual (R537: the payload formats are given elsewhere). -/
structure CordContent where
  /-- register values the Cord sets: window address and word -/
  regs : List (Nat × Word)
  windows : List WinBind
  owner : Win
  parts : List Partition
  /-- offset and length of the six retained partitions, in the order of KLN_RSOFFp -/
  retained : List (Nat × Nat)
  routes : List Route
  events : List (EvSource × EvSink)
  safety : SafetyBillet
  tasks : List (Nat × TaskImage)
  est : List EstBillet
  /-- instances of a four-string module that the Structure billet leaves disabled (R6, R93): kind and instance; the
  billet enables every other one -/
  disabled : List (Nat × Nat)
  /-- thermistor curve of the backplane inputs: converter readings, ascending, and temperatures in 1/16 °C (R299) -/
  thCurve : List (Int × Int) := []
  /-- INDEX of the billet that carries each register value, in the order of `regs` (R85) -/
  regBillet : List Nat := []
  /-- the ring uses that the Memory billet sets (R54) -/
  ringUse : List (Nat × RingUse) := []
  /-- the static IPv4 and IPv6 addresses of the Window billet (R419) -/
  net4 : Option NetAddr := none
  net6 : Option NetAddr := none
  deriving DecidableEq, Repr

/-- Codes that parts of a billet's content give at stage 4 which this manual's terms do not hold (R83, R537), with the
INDEX of the billet concerned. -/
structure VerifyFacts where
  content : List (Nat × Option Nat)
  deriving DecidableEq, Repr

/-- What a verification or a cold start finds outside the state: the supply, PRESENT and lever readings (R71, R516),
and the check and the decoded content of the slot concerned (R86). -/
structure BootFacts where
  vsup10mv : Nat
  present : Bool
  leverOpen : Bool
  facts : VerifyFacts
  content : CordContent
  /-- calibration record copies that fail their CRC at this start: entry, and whether it is copy B (R204) -/
  calBad : List (Nat × Bool) := []
  /-- the same of learned records, by cell, of string records, and of impedance tables (R234, R259) -/
  lrBad : List (Nat × Bool) := []
  strBad : List (Nat × Bool) := []
  impBad : List (Nat × Bool) := []
  deriving DecidableEq, Repr

/-- A CAN frame (R407): identifier word (IDE[31], RTR[30], ID[28:0]), control word (FDF, BRS, ESI, DLC), data, and how long
before the end of its reception its start-of-frame bit was, in ns. -/
structure CanFrame where
  id : Word
  ctrl : Word
  data : List Byte
  sofNs : Nat := 0
  deriving DecidableEq, Repr

/-- The readings of a slice calibration (R175, R185): means in nV at zero, REFA, REFB and REFC. -/
structure CalReadings where
  zero : Int
  refA : Int
  refB : Int
  refC : Int
  deriving DecidableEq, Repr

/-- What the safety lanes read in one cycle (R321): SI channels, comparators, SL+, LOTO contacts, readback, and what
the cross-link shows of each lane. -/
structure LaneInputs where
  siA : BitVec 8
  siB : BitVec 8
  ocTrip : BitVec 12
  thTrip : BitVec 8
  slPlus : Nat
  loto : Loto
  readback : BitVec 16
  /-- what the function results and output commands of lanes SL0 to SL2 deviate by, in this cycle, from a sound evaluation of
  the inputs: bit f for function f, bit j for output j; a lane without an entry does not deviate -/
  flips : List (BitVec 17 × BitVec 16)
  /-- bytes of the lanes' own billet copies that an upset has changed: lane, offset, value (R82) -/
  upsets : List (Nat × Nat × Byte)
  /-- lane i missed the cross-link exchange in this cycle -/
  missed : BitVec 3
  deriving DecidableEq, Repr

/-- A frame of the field I/O section (R384, R387, R388, R392): what it carries. `samples` holds the raw samples since the
frame before, oldest first, each with its age in µs at the frame's end; `raw` is the last one. -/
structure FioFrame where
  seq : Byte
  crcOk : Bool
  lenOk : Bool
  raw : BitVec 32
  samples : List (Nat × BitVec 32)
  readback : BitVec 16
  vfl : Nat
  deriving DecidableEq, Repr

/-- What an Announce message shows of its grandmaster (R424): the terms of the best master clock algorithm. -/
structure Announce where
  domain : Byte
  prio1 : Byte
  clockClass : Byte
  accuracy : Byte
  variance : BitVec 16
  prio2 : Byte
  identity : Word64
  steps : BitVec 16
  timeSource : Byte
  deriving DecidableEq, Repr

/-- A 64-bit module time or count given by a message. -/
abbrev Nanos := Int

/-- The commands. One constructor per row of spec/opcode_table.json. -/
inductive Instr where
  -- register fabric and Kiln core
  | registerWrite (w : Win) (addr : Word) (val : Word) (size : Nat)
  | loReadLatch (w : Win) (addr : Word)
  | shadowCommit (block inst : Byte)
  | commit (w : Win) (block inst : Byte)
  | hold (w : Win) (block inst : Byte)
  | releaseHold (w : Win) (block inst : Byte)
  | xovrClr (w : Win) (route : BitVec 8) (cons : BitVec 2)
  | modeRequest (w : Win) (target : BitVec 3)
  | modeEvaluation
  | gatedEventDelivery (sink : EvSink)
  | domainGate (d : Domain)
  | clockFault (d : Domain) (devPpm : Nat) (durUs : Nat)
  | agedGrant (bank : Fin 8) (p : Plane)
  | partitionViolation (e : Engine) (inst : Byte) (addr : Word) (isWrite : Bool)
  | kilnEngineFault (e : Engine)
  | ringIndexWrite (w : Win) (r : Fin 64) (isTail : Bool) (val : Word)
  | ringBlockResume (r : Fin 64)
  -- modes, Ember and power
  | emberWake (src : Fin 8)
  | kindling (upsets : List (Nat × Nat × Byte)) (boot : BootFacts)
  | coldStart (boot : BootFacts)
  | prechargeTimeout (k : Str)
  | rampTimeout
  | embAckSafeAck (w : Win)
  | safAckSafeAck (w : Win)
  | forceAck (w : Win)
  | recoveryTimerExpiry
  | lotoChange (pos : Loto)
  | lotoBetweenTimeout
  | drowseEntry
  | emberCounterSample (ia : List Int)
  | drowseCurrentWake
  | qdrwHandover (k : Str)
  | holdupChange (tenMj vsup10mv : Nat)
  | supplyGlitch (durUs : Nat)
  | pfail (vsup10mv : Nat)
  | pfailFlushComplete
  -- Cord loader
  | eraseIncoming (w : Win)
  | writeBlock (w : Win)
  | verifyIncoming (w : Win)
  | verifyRunning (w : Win)
  | crdActivate (w : Win)
  | revert (w : Win)
  | verificationComplete (boot : BootFacts)
  -- chain and sweeps
  | sweepSync (k : Str)
  | sweepReadStart (k : Str)
  | chainLoopIdle (k : Str)
  | chainResponse (port : Fin 8) (bytes : List Byte) (codeErr swapped : Bool) (sinceSendNs : Nat)
  | chainCommandTimeout (k : Str)
  | broadcastReadClose (k : Str)
  | enumerate (w : Win) (k : Str)
  | enumerationComplete (k : Str)
  | locate (w : Win) (k : Str)
  | locateComplete (k : Str)
  | chainRejoin (k : Str)
  | echoRefresh (w : Win) (k : Str)
  | echoRefreshDue (k : Str)
  | delayMeasurementComplete (k : Str)
  | chnClearCounters (w : Win) (k : Str)
  | sweepClose (k : Str)
  | owRun (w : Win) (k : Str) (pos : BitVec 6)
  | owPeriodic (k : Str)
  | owSuspectRetest (k : Str) (pos : BitVec 6)
  | balHalt (w : Win) (k : Str)
  | balResume (w : Win) (k : Str)
  | balanceRun (k : Str)
  -- measurement bank
  | precisionSample (x ctl : List Int)
  | channelFlag (k : Str) (j : Fin 3)
  | channelReadmit (k : Str) (j : Fin 3)
  | rotationSlotStart
  | rotationSpareConnect (spare : CalReadings)
  | rotationSwitchOut
  | rotationReconnect (slice : CalReadings)
  | rotationSwitchBack
  | rotHalt (w : Win)
  | rotResume (w : Win)
  | inject (w : Win) (k : Str) (point : BitVec 2)
  | injectionStart (k : Str)
  | injectionComplete (k : Str) (mv : Int)
  | isoNow (w : Win) (k : Str)
  | isoStateEnd
  | refEvaluation (ovens : BitVec 3)
  | refExclusion (x : Fin 3)
  | refFail
  -- traceability
  | warmingEnd
  | calAged
  | trcEnter (w : Win)
  | trcLeave (w : Win)
  | trcVerify (w : Win) (entry : BitVec 6)
  | trcVerifyComplete
  | trcAdjust (w : Win) (entry : BitVec 6)
  | trcZero (w : Win) (entry : BitVec 6)
  | trcZeroComplete
  | trcRefAdjust (w : Win) (entry : BitVec 6) (reading vstd : Int)
  | trcRefReadmit (w : Win) (entry : BitVec 6)
  -- estimation
  | anchor (n : Fin 2048) (full : Bool)
  | socDisplayUpdate
  | cycleUpdate (n : Fin 2048)
  | estStringWrite (k : Str)
  | estLearnedWrite (n : Fin 2048)
  | estNvResume
  | resetCells (w : Win) (first : BitVec 11) (count : BitVec 12)
  | acceptUid (w : Win) (first : BitVec 11) (count : BitVec 12)
  | estFlush (w : Win)
  -- impedance
  | impStart (w : Win) (k : Str)
  | impStop (w : Win) (k : Str)
  | tzNow (w : Win) (k : Str)
  | impPause (w : Win) (k : Str)
  | impResume (w : Win) (k : Str)
  | impPeriodic (k : Str)
  | tzPointDue (k : Str)
  | impAutoResume (k : Str)
  | impPauseTimeout (k : Str)
  | impTableWrite (n : Fin 2048)
  -- control engine
  | contextExecution (n : Fin 64) (ctl : List Int) (waitTenNs : Nat)
  | pwmPeriodStart (j : Fin 16)
  | ctlInternalFault
  | converterResume (k : Str)
  | convRun (w : Win) (k : Str)
  | convPark (w : Win) (k : Str)
  | genStart (w : Win) (g : Fin 4)
  | genStop (w : Win) (g : Fin 4)
  | generatorEnd (g : Fin 4)
  | capArm (w : Win) (c : Fin 4)
  | capStop (w : Win) (c : Fin 4)
  | capForce (w : Win) (c : Fin 4)
  | clrLat (w : Win)
  | coefficientSwap (w : Win) (hi : Word)
  | bankWordWrite (w : Win) (n : Fin 64) (bank : Fin 2) (idx : Fin 16) (val : Word)
  | dispatchSetpointWrite (w : Win) (k : Str) (val : Word)
  | forceWrite (w : Win) (k : Str) (force : BitVec 2)
  -- thermal supervisor
  | thermalSample (th : List (Option Int)) (board : List Int)
  | thermalSlowMode
  | rateEvaluation
  | riseTripClear
  | recoveryPeriodEnd
  | thermalCanFrame
  -- safety lanes
  | safetyCycle (i : LaneInputs)
  | laneDegradedTimeout
  | laneSelfTestComplete (passed : BitVec 3) (failedOuts : BitVec 16)
  | safetyWatchdog
  | summaryTimeout (k : Str) (pos : BitVec 6)
  | testPulseRead (ts1 : Bool) (reads : BitVec 8)
  | offPulse
  | offPulseReadback (readback : BitVec 16)
  | offPulseEnd
  | outfAck (w : Win)
  | weldAck (w : Win) (k : Str) (mv : Int)
  | supplyLost
  | prechargePoll (k : Str)
  | prechargeKpOpen (k : Str)
  | weldCheckPoll (k : Str)
  | weldTimeout (k : Str)
  | safeFrameSend (c : Fin 16)
  | safeFrameReceive (c : Fin 16) (bytes : List Byte)
  | safeConnectionLost (c : Fin 16)
  -- logic engine
  | taskDue (t : Fin 16)
  | eventTaskTrigger (t : Fin 16)
  | taskStart (t : Fin 16)
  | taskWatchdog (t : Fin 16)
  | lgcNop (t : Fin 16)
  | lgcLd (t : Fin 16)
  | lgcSt (t : Fin 16)
  | lgcMovb (t : Fin 16)
  | lgcAdd (t : Fin 16)
  | lgcSub (t : Fin 16)
  | lgcMul (t : Fin 16)
  | lgcDiv (t : Fin 16)
  | lgcMod (t : Fin 16)
  | lgcNeg (t : Fin 16)
  | lgcAbs (t : Fin 16)
  | lgcAnd (t : Fin 16)
  | lgcOr (t : Fin 16)
  | lgcXor (t : Fin 16)
  | lgcNot (t : Fin 16)
  | lgcShl (t : Fin 16)
  | lgcShr (t : Fin 16)
  | lgcRol (t : Fin 16)
  | lgcRor (t : Fin 16)
  | lgcCmp (t : Fin 16)
  | lgcMin (t : Fin 16)
  | lgcMax (t : Fin 16)
  | lgcLimit (t : Fin 16)
  | lgcSel (t : Fin 16)
  | lgcJmp (t : Fin 16)
  | lgcJc (t : Fin 16)
  | lgcJnc (t : Fin 16)
  | lgcCall (t : Fin 16)
  | lgcRet (t : Fin 16)
  | lgcCvt (t : Fin 16)
  | lgcTmr (t : Fin 16)
  | lgcTrig (t : Fin 16)
  | lgcCtr (t : Fin 16)
  | lgcRdedge (t : Fin 16)
  | lgcSys (t : Fin 16)
  | lgcEnd (t : Fin 16)
  | lgcNvResume
  | forceSet (w : Win)
  | forceClr (w : Win) (index : Byte)
  | forceClrAll (w : Win)
  | olcApply (w : Win)
  | olcSwitch
  | olcTimeout
  | lgcClrCnt (w : Win)
  | stationOutputFrame (s : Fin 16)
  | stationInputFrame (s : Fin 16) (bytes : List Byte)
  | stationLost (s : Fin 16)
  -- field I/O
  | debounceChange (n : Fin 32)
  | fioFrameSend (arrives : Bool)
  | fioFrameReceive (f : FioFrame)
  | fioFrameMissing
  | outputOverload (j : Fin 16)
  | outputRetry (j : Fin 16)
  | flLowDetect
  | flRecover
  | fltAck (w : Win)
  | ovlAck (w : Win) (mask : BitVec 16)
  | fioClrCnt (w : Win)
  -- CAN
  | canFrameReceive (c : Fin 3) (f : CanFrame)
  | canArbitration (c : Fin 3)
  | canTxComplete (c : Fin 3) (ok lostArbitration : Bool)
  | canBusOffRecovery (c : Fin 3)
  | canQueueLoad (c : Fin 3)
  | canRecover (w : Win) (c : Fin 3)
  | canAbort (w : Win) (c : Fin 3) (mask : BitVec 16)
  | abdStart (w : Win) (c : Fin 3)
  | canClrCnt (w : Win) (c : Fin 3)
  | canTxreq (w : Win) (c : Fin 3) (req : BitVec 16)
  | mailboxWrite (w : Win) (c : Fin 3) (m : Fin 16) (idx : Fin 20) (val : Word)
  | hpbRelease (w : Win) (c : Fin 3) (mask : BitVec 4)
  | toolPlug
  | abdMeasureComplete (intervals : List Nat)
  | toolUnplug
  -- network and time
  | netLinkChange (p : Fin 2) (up fullDuplexGigabit master : Bool)
  | switchForward (ingress : Fin 3) (frame : List Byte)
  | fdbAge (mac : Word64)
  | flushFdb (w : Win)
  | netClrCnt (w : Win)
  | ptpSync (p : Fin 2) (source : Word64) (rx origin : Nanos) (corr : Int)
  | announceTimeout
  | ptpMasterSend
  | pdelayMeasure (p : Fin 2) (t1 t2 t3 t4 : Nanos) (corr : Int)
  | pdelayResponse (p : Fin 2) (reqSeq : BitVec 16) (source : BitVec 80) (rx : Nanos)
  | dlyHoldEnd
  | timAcceptStep (w : Win) (go : Bool)
  | timeStep
  | schedAdd (w : Win)
  | schedCancel (w : Win) (entry : Byte)
  | schedCancelAll (w : Win)
  | schedExecute
  -- host windows and rings
  | qspiWrite (portB : Bool) (tookUs : Nat) (addr : Word) (len : Nat) (words : List Word) (crcOk : Bool)
  | qspiRead (portB : Bool) (tookUs : Nat) (addr : Word) (len : Nat)
  | qspiStatus (portB : Bool) (tookUs : Nat)
  | hpConnect (certWindow : Option Win)
  | hpIdleTimeout (w : Win)
  | hpWrite (w : Win) (tag : BitVec 16) (addr : Word) (len : Nat) (words : List Word)
  | hpRead (w : Win) (tag : BitVec 16) (addr : Word) (len : Nat)
  | hpStatus (w : Win) (tag : BitVec 16)
  | hpNop (w : Win) (tag : BitVec 16)
  | eventMessage (w : Win)
  | regWrite (w : Win)
  | regRead (w : Win)
  | blockWrite (w : Win)
  | blockRead (w : Win)
  | ringNop (w : Win)
  | dspRequest (w : Win)
  | dspAccept (w : Win)
  | dspDecline (w : Win)
  | dspTimeout
  -- recorder
  | recorderFlush
  | recorderFlushComplete
  | archiveCopy
  | recFlush (w : Win)
  | audArchive (w : Win)
  | audArchiveComplete
  | audRelease (w : Win)
  | recClrCnt (w : Win)
  | readerCursorWrite (w : Win) (seq : Word)
  | readerFetchComplete (w : Win)
  | readerAdvance (w : Win)
  | liveCopy
  -- pairing
  | pairFrameReceive (bytes : List Byte)
  | renewSend
  | claimSend
  | pairStatusSend
  | pairLinkDown
  | leaseExpiry
  | witnessClaim
  | deferredSelfTest (failed : BitVec 12)
  | parSwap (w : Win)
  | swapTimeout
  | parClrCnt (w : Win)
  -- update relay
  | relayOffer (p : Fin 2) (bytes : List Byte)
  | offerRetry (p : Fin 2)
  | relayAccept (p : Fin 2) (bytes : List Byte)
  | relayData (p : Fin 2) (bytes : List Byte)
  | relayAck (p : Fin 2) (bytes : List Byte)
  | relayNak (p : Fin 2) (bytes : List Byte)
  | relayResult (p : Fin 2) (bytes : List Byte)
  | relayAbort (p : Fin 2) (bytes : List Byte)
  | relayAckSend
  | relayBlockTimeout
  | relayResend (p : Fin 2)
  | relayDataTimeout
  | updSend (w : Win) (session : BitVec 16) (src : Bool) (ports : BitVec 2)
  | updAbort (w : Win)
  | updActivate (w : Win)
  | keyProg (w : Win)
  | keyRevoke (w : Win)
  | healthOk (w : Win) (go : Bool)
  | healthEvent
  | confirmExpiry
  -- front panel and insertion
  | keyTouch (key : Fin 4)
  | keyRelease (key : Fin 4)
  | keyStuck (key : Fin 4)
  | lampTest
  | backlightTimeout
  | presentLost
  | eject
  | ejectContactorTimeout
  | ejectFlushComplete
  -- rows the table lists at its end
  | canErrorDetected (c : Fin 3) (kind : Fin 6) (dataPhase transmitting : Bool)
  | canBusJoin (c : Fin 3)
  | ptpAnnounce (p : Fin 2) (a : Announce)
  | undefinedInstruction (t : Fin 16)
  | qspiOtherOpcode (portB : Bool) (tookUs : Nat) (opcode : Byte)
  | usbBadFrame (w : Win)
  | ringBadCommand (w : Win)
  | relayEraseComplete
  | holdUpExhausted
  deriving DecidableEq, Repr

end Sys2Proof
end

