-- ==== Sys2Proof/Decode.lean ====
section
/-!
DEFINITION. The command that a word spells. The command table gives none of its rows any bits, so no word spells one.
-/

namespace Sys2Proof

/-- The command of a word of nbits bits: none. -/
def decodeTableWord (_nbits _w : Nat) : Option Instr := none

end Sys2Proof
end

