-- ==== Sys2Proof/Config.lean ====
section
/-!
DEFINITION. What one module fixes and the spec leaves open. Every constant here is opaque: it has no body, so nothing
in Lean can evaluate it or prove a value of it, and a statement that mentions one holds whatever its value is. Each is
named in notes/assumptions/.
-/

namespace Sys2Proof.Config

/-- The number that Brioft assigns to the module, SN[39:0] (R4, WIN_SN_LO). -/
opaque serial : BitVec 40

/-- The module's 48-bit MAC address (NET_MAC_LO, NET_MAC_HI). -/
opaque mac : BitVec 48

/-- The minor revision of the die (KLN_ID.DREV[7:0]). -/
opaque dieMinor : BitVec 8

/-- CODE[7:0] of a record that this manual names without its code; the code table is in the module (R462). The argument
is the record's place in the model's list of names. -/
opaque recordCode : Nat → BitVec 8

/-- The words of the code table at REC_CODETAB (R462). -/
opaque codeTable : Nat → BitVec 32

/-- The certificate number, issue time and laboratory code of a -4M module, word by word (R213). -/
opaque certWord : Nat → BitVec 32

/-- Span of a slice's input in nV, of which R178 takes the 50 ppm of an offset change. -/
opaque sliceSpan : Nat

/-- Thousandths of a channel's word unit per mV of converter input, for a channel whose front end the manual does not
scale (R173); it brings a slice's offset into the channel's unit. -/
opaque inputScale : Nat → Int

/-- The nominal conductance of the dividers of ISP and ISN in pS (R204), which the manual does not give. -/
opaque isoDivider : BitVec 32

/-- The words of the parameter image at SAF_PARM for a Safety billet (R326), whose layout the spec does not give. -/
opaque safParam : SafetyBillet → Nat → BitVec 32

/-- The highest |z| in 0.1 µΩ that bounds the amplitude of a loop's temperature point at an uptime (R245), for which
no table entry stands. -/
opaque tzZmax : Nat → Nat → Nat

/-- The public key that the factory burns into OTP slot 0 (R502): its coordinates on P-384. -/
opaque factoryKey : Nat × Nat

/-- The tag that names an engine instance in KLN_PVIOL_SRC (R36), by the engine's place in the model's list and the
instance. -/
opaque engTag : Nat → Nat → BitVec 8

/-- The occurrences of 11 recessive bits that CAN controller c has counted at an instant of its bus-off recovery (R404,
CAN_STAT.RECOV): what other nodes leave of the bus. -/
opaque canRecov : Nat → Nat → Nat

/-- The PHY latencies of NET port p that the factory measured, in ns, and to which NET_PLATp resets (R421): TX_LAT (true) and
RX_LAT, each up to 2000. -/
opaque phyLat : Nat → Bool → Nat

/-- The byte at an offset of retained partition p (in the order of KLN_RSOFFp) whose stored contents are x, where the
manual lays out no bytes of it: the same contents read the same at every read (R46). -/
opaque stored {α : Type} (p : Nat) (x : α) (off : Nat) : BitVec 8

/-- A free value: a value that the spec leaves open. The argument is the state's counter, so that every use is a new
one. -/
opaque free : Nat → BitVec 64

end Sys2Proof.Config
end

