-- ==== Sys2Proof/Machine/Operands.lean ====
section
/-!
DEFINITION. How the commands read the data they carry: bit fields of words, bytes of messages and memory, the two
CRCs, rounding and saturation. Shared by every chapter.
-/

namespace Sys2Proof.Machine

/-- Field [hi:lo] of a word. -/
def fld (v hi lo : Nat) : Nat := v / 2 ^ lo % 2 ^ (hi + 1 - lo)

/-- Bit i of a word. -/
def bitN (v i : Nat) : Bool := v / 2 ^ i % 2 == 1

/-- A flag placed at bit i. -/
def flag (b : Bool) (i : Nat) : Nat := if b then 2 ^ i else 0

/-- Value of a field placed at bit lo, cut to its width. -/
def place (v hi lo : Nat) : Nat := v % 2 ^ (hi + 1 - lo) * 2 ^ lo

/-- Mask of field [hi:lo]. -/
def mask (hi lo : Nat) : Nat := (2 ^ (hi + 1 - lo) - 1) * 2 ^ lo

/-- The two's complement reading of an n-bit value. -/
def sgn (n v : Nat) : Int := if v % 2 ^ n < 2 ^ (n - 1) then (v % 2 ^ n : Nat) else ((v % 2 ^ n : Nat) : Int) - 2 ^ n

/-- The n-bit two's complement image of an integer. -/
def twos (n : Nat) (x : Int) : Nat := (x % (2 ^ n : Nat)).toNat

/-- Add with saturation at `m`. -/
def satAdd (m a b : Nat) : Nat := min m (a + b)

/-- Increment a counter that saturates at 0xFFFF. -/
def inc16 (a : Nat) : Nat := satAdd 0xFFFF a 1

/-- Increment a counter that saturates at 0xFF. -/
def inc8 (a : Nat) : Nat := satAdd 0xFF a 1

/-- Increment a counter that saturates at 0xFFFF_FFFF. -/
def inc32 (a : Nat) : Nat := satAdd 0xFFFFFFFF a 1

/-- Increment a counter that wraps after 2^n − 1. -/
def wrap (n a : Nat) : Nat := (a + 1) % 2 ^ n

/-- Keep a value within limits. -/
def clampI (lo hi x : Int) : Int := max lo (min hi x)

/-- Saturation to n-bit signed. -/
def satS (n : Nat) (x : Int) : Int := clampI (-(2 ^ (n - 1))) (2 ^ (n - 1) - 1) x

/-- Quotient rounded to the nearest integer, halves away from zero (R172 and others). -/
def rdiv (a b : Int) : Int :=
  let q : Int := ((2 * a.natAbs + b.natAbs) / (2 * b.natAbs) : Nat)
  if (a < 0) = (b < 0) then q else -q

/-- Little-endian bytes of a number. -/
def leB : Nat → Nat → List Byte
  | 0, _ => []
  | n + 1, v => BitVec.ofNat 8 v :: leB n (v / 256)

/-- Little-endian two's complement bytes of an integer. -/
def leI (n : Nat) (x : Int) : List Byte := leB n (twos (8 * n) x)

/-- The number that little-endian bytes hold. -/
def fromLe : List Byte → Nat
  | [] => 0
  | b :: t => b.toNat + 256 * fromLe t

/-- A field of n bytes at an offset. -/
def getLe (bs : List Byte) (off n : Nat) : Nat := fromLe ((bs.drop off).take n)

/-- The byte at an offset, 0 beyond the end. -/
def byteAt (bs : List Byte) (off : Nat) : Nat := (bs.getD off 0).toNat

/-- Bytes padded with zeros, or cut, to length n. -/
def padTo (n : Nat) (bs : List Byte) : List Byte := (bs ++ List.replicate n 0).take n

/-- One bit step of a reflected CRC. -/
def crcBit (poly : Nat) (c : Nat) : Nat := if c % 2 = 1 then Nat.xor (c / 2) poly else c / 2

/-- One byte of a reflected CRC. -/
def crcByte (poly c : Nat) (b : Byte) : Nat :=
  (List.range 8).foldl (fun c _ => crcBit poly c) (Nat.xor c b.toNat)

/-- The CRC-16 of R108: polynomial 0x1021 reflected, initial value 0xFFFF, no final XOR. -/
def crc16 (bs : List Byte) : Nat := bs.foldl (crcByte 0x8408) 0xFFFF

/-- The CRC-32C of R78 and R459: reflected, initial value and final XOR 0xFFFF_FFFF. -/
def crc32c (bs : List Byte) : Nat := Nat.xor (bs.foldl (crcByte 0x82F63B78) 0xFFFFFFFF) 0xFFFFFFFF

/-- Integer square root by n bits, highest first. -/
def isqrtBits : Nat → Nat → Nat → Nat
  | 0, _, r => r
  | n + 1, v, r =>
    let r' := r + 2 ^ n
    if r' * r' ≤ v then isqrtBits n v r' else isqrtBits n v r

/-- Integer square root, rounded down, of a value below 2^128. -/
def isqrt (v : Nat) : Nat := isqrtBits 64 v 0

/-- Square root rounded to nearest. -/
def rsqrt (v : Nat) : Nat := let r := isqrt v; if v > r * r + r then r + 1 else r

/-- The smallest power of 2 exponent e with v < 2^e. -/
def bitLen : Nat → Nat → Nat
  | 0, _ => 0
  | n + 1, v => if v = 0 then 0 else 1 + bitLen n (v / 2)

/-- True of an image address with bits 23:16 clear and a defined AREA (R359, R362). -/
def imgAddrOk (a : Nat) : Bool := fld a 23 16 == 0 && decide (fld a 31 28 ≤ 7)

/-- Sum of integers. -/
def sumI (l : List Int) : Int := l.foldl (· + ·) 0

/-- Number of set bits among the low n. -/
def popcount (n v : Nat) : Nat := ((List.range n).filter (bitN v)).length

/-- The n-bit word of the flags f 0 … f (n − 1). -/
def bitsOf (n : Nat) (f : Nat → Bool) : Nat := (List.range n).foldl (fun a i => a + flag (f i) i) 0

end Sys2Proof.Machine
end

