-- ==== Sys2Proof/Machine/Crypto.lean ====
section
/-!
DEFINITION. The signature check of R7 and R81: SHA-384 (FIPS 180-4) and ECDSA over P-384 (FIPS 186, SEC 1), which the
manual names and does not restate. Everything is natural-number arithmetic. PRESUMED (assumption 76): the two standards,
the big-endian reading of a key's coordinates, and a signature's r and s little-endian as R78 says of every field.
-/

namespace Sys2Proof.Machine

/-! ### SHA-384 -/

/-- A 64-bit word rotated right. -/
def rotr64 (x n : Nat) : Nat := Nat.lor (x / 2 ^ n) (x * 2 ^ (64 - n) % 2 ^ 64)

/-- The eight working variables. -/
structure Sha where
  a : Nat
  b : Nat
  c : Nat
  d : Nat
  e : Nat
  f : Nat
  g : Nat
  h : Nat
  deriving DecidableEq, Repr

/-- The initial hash value of SHA-384. -/
def Sha.init : Sha :=
  { a := 0xcbbb9d5dc1059ed8, b := 0x629a292a367cd507
    c := 0x9159015a3070dd17, d := 0x152fecd8f70e5939
    e := 0x67332667ffc00b31, f := 0x8eb44a8768581511
    g := 0xdb0c2e0d64f98fa7, h := 0x47b5481dbefa4fa4 }

/-- The round constants. -/
def shaK : List Nat :=
  [0x428a2f98d728ae22, 0x7137449123ef65cd, 0xb5c0fbcfec4d3b2f, 0xe9b5dba58189dbbc] ++
  [0x3956c25bf348b538, 0x59f111f1b605d019, 0x923f82a4af194f9b, 0xab1c5ed5da6d8118] ++
  [0xd807aa98a3030242, 0x12835b0145706fbe, 0x243185be4ee4b28c, 0x550c7dc3d5ffb4e2] ++
  [0x72be5d74f27b896f, 0x80deb1fe3b1696b1, 0x9bdc06a725c71235, 0xc19bf174cf692694] ++
  [0xe49b69c19ef14ad2, 0xefbe4786384f25e3, 0xfc19dc68b8cd5b5, 0x240ca1cc77ac9c65] ++
  [0x2de92c6f592b0275, 0x4a7484aa6ea6e483, 0x5cb0a9dcbd41fbd4, 0x76f988da831153b5] ++
  [0x983e5152ee66dfab, 0xa831c66d2db43210, 0xb00327c898fb213f, 0xbf597fc7beef0ee4] ++
  [0xc6e00bf33da88fc2, 0xd5a79147930aa725, 0x6ca6351e003826f, 0x142929670a0e6e70] ++
  [0x27b70a8546d22ffc, 0x2e1b21385c26c926, 0x4d2c6dfc5ac42aed, 0x53380d139d95b3df] ++
  [0x650a73548baf63de, 0x766a0abb3c77b2a8, 0x81c2c92e47edaee6, 0x92722c851482353b] ++
  [0xa2bfe8a14cf10364, 0xa81a664bbc423001, 0xc24b8b70d0f89791, 0xc76c51a30654be30] ++
  [0xd192e819d6ef5218, 0xd69906245565a910, 0xf40e35855771202a, 0x106aa07032bbd1b8] ++
  [0x19a4c116b8d2d0c8, 0x1e376c085141ab53, 0x2748774cdf8eeb99, 0x34b0bcb5e19b48a8] ++
  [0x391c0cb3c5c95a63, 0x4ed8aa4ae3418acb, 0x5b9cca4f7763e373, 0x682e6ff3d6b2b8a3] ++
  [0x748f82ee5defb2fc, 0x78a5636f43172f60, 0x84c87814a1f0ab72, 0x8cc702081a6439ec] ++
  [0x90befffa23631e28, 0xa4506cebde82bde9, 0xbef9a3f7b2c67915, 0xc67178f2e372532b] ++
  [0xca273eceea26619c, 0xd186b8c721c0c207, 0xeada7dd6cde0eb1e, 0xf57d4f7fee6ed178] ++
  [0x6f067aa72176fba, 0xa637dc5a2c898a6, 0x113f9804bef90dae, 0x1b710b35131c471b] ++
  [0x28db77f523047d84, 0x32caab7b40c72493, 0x3c9ebe0a15c9bebc, 0x431d67c49c100d4c] ++
  [0x4cc5d4becb3e42b6, 0x597f299cfc657e2a, 0x5fcb6fab3ad6faec, 0x6c44198c4a475817]

/-- One round with its constant and schedule word. -/
def Sha.round (s : Sha) (k w : Nat) : Sha :=
  let s1 := Nat.xor (Nat.xor (rotr64 s.e 14) (rotr64 s.e 18)) (rotr64 s.e 41)
  let ch := Nat.xor (Nat.land s.e s.f) (Nat.land (Nat.xor s.e (2 ^ 64 - 1)) s.g)
  let t1 := s.h + s1 + ch + k + w
  let s0 := Nat.xor (Nat.xor (rotr64 s.a 28) (rotr64 s.a 34)) (rotr64 s.a 39)
  let maj := Nat.xor (Nat.xor (Nat.land s.a s.b) (Nat.land s.a s.c)) (Nat.land s.b s.c)
  { a := (t1 + s0 + maj) % 2 ^ 64, b := s.a, c := s.b, d := s.c, e := (s.d + t1) % 2 ^ 64, f := s.e, g := s.f, h := s.g }

/-- The schedule word sixteen places on. -/
def shaNext (w : List Nat) : Nat :=
  let x := w.getD 1 0
  let y := w.getD 14 0
  (Nat.xor (Nat.xor (rotr64 y 19) (rotr64 y 61)) (y / 2 ^ 6) + w.getD 9 0 +
    Nat.xor (Nat.xor (rotr64 x 1) (rotr64 x 8)) (x / 2 ^ 7) + w.getD 0 0) % 2 ^ 64

/-- The rounds of one block; `w` holds the next sixteen schedule words. -/
def shaRounds : List Nat → List Nat → Sha → Sha
  | [], _, s => s
  | k :: ks, w, s => shaRounds ks (w.tail ++ [shaNext w]) (s.round k (w.headD 0))

/-- The sum of two states, word by word. -/
def Sha.add (x y : Sha) : Sha :=
  { a := (x.a + y.a) % 2 ^ 64, b := (x.b + y.b) % 2 ^ 64, c := (x.c + y.c) % 2 ^ 64, d := (x.d + y.d) % 2 ^ 64
    e := (x.e + y.e) % 2 ^ 64, f := (x.f + y.f) % 2 ^ 64, g := (x.g + y.g) % 2 ^ 64, h := (x.h + y.h) % 2 ^ 64 }

/-- A number from bytes, the most significant first. -/
def fromBe (bs : List Byte) : Nat := bs.foldl (fun n b => 256 * n + b.toNat) 0

/-- n words of 8 bytes, the most significant byte first. -/
def beWords : Nat → List Byte → List Nat
  | 0, _ => []
  | n + 1, bs => fromBe (bs.take 8) :: beWords n (bs.drop 8)

/-- n blocks of 128 bytes. -/
def shaBlocks : Nat → List Byte → Sha → Sha
  | 0, _, s => s
  | n + 1, bs, s => shaBlocks n (bs.drop 128) (s.add (shaRounds shaK (beWords 16 bs) s))

/-- The message with its padding and length. -/
def shaPad (bs : List Byte) : List Byte :=
  bs ++ [0x80] ++ List.replicate ((239 - bs.length % 128) % 128) 0 ++ (leB 16 (8 * bs.length)).reverse

/-- The digest as a number. -/
def sha384 (bs : List Byte) : Nat :=
  let m := shaPad bs
  let s := shaBlocks (m.length / 128) m Sha.init
  ((((s.a * 2 ^ 64 + s.b) * 2 ^ 64 + s.c) * 2 ^ 64 + s.d) * 2 ^ 64 + s.e) * 2 ^ 64 + s.f

/-! ### P-384 -/

/-- The field's prime. -/
def p384 : Nat := 0xfffffffffffffffffffffffffffffffffffffffffffffffffffffffffffffffeffffffff0000000000000000ffffffff
/-- The group's order. -/
def n384 : Nat := 0xffffffffffffffffffffffffffffffffffffffffffffffffc7634d81f4372ddf581a0db248b0a77aecec196accc52973
/-- The curve's coefficient b; a is −3. -/
def b384 : Nat := 0xb3312fa7e23ee7e4988e056be3f82d19181d9c6efe8141120314088f5013875ac656398d8a2ed19d2a85c8edd3ec2aef
/-- The base point. -/
def g384 : Nat × Nat :=
  (0xaa87ca22be8b05378eb1c71ef320ad746e1d3b628ba79b9859f741e082542a385502f25dbf55296c3a545e3872760ab7,
    0x3617de4a96262c6f5d9e98bf9292dc29f8f41dbd289a147ce9da3113b5f0b8c00a60b1ce1d7e819d7a431d7c90ea0e5f)

/-- A point in Jacobian coordinates; z = 0 is the point at infinity. -/
structure EcPoint where
  x : Nat
  y : Nat
  z : Nat
  deriving DecidableEq, Repr

/-- Difference in the field. -/
def fsub (a b : Nat) : Nat := (a + p384 - b) % p384

/-- Twice a point. -/
def EcPoint.dbl (q : EcPoint) : EcPoint :=
  let d := q.z * q.z % p384
  let g := q.y * q.y % p384
  let b := q.x * g % p384
  let al := 3 * (fsub q.x d * ((q.x + d) % p384) % p384) % p384
  let x := fsub (al * al % p384) (8 * b % p384)
  { x := x, y := fsub (al * fsub (4 * b % p384) x % p384) (8 * (g * g) % p384), z := 2 * (q.y * q.z) % p384 }

/-- The sum of two points. -/
def EcPoint.add (q r : EcPoint) : EcPoint :=
  if q.z = 0 then r
  else if r.z = 0 then q
  else
    let zz1 := q.z * q.z % p384
    let zz2 := r.z * r.z % p384
    let u1 := q.x * zz2 % p384
    let u2 := r.x * zz1 % p384
    let s1 := q.y * (r.z * zz2 % p384) % p384
    let s2 := r.y * (q.z * zz1 % p384) % p384
    if u1 = u2 then (if s1 = s2 then q.dbl else { x := 1, y := 1, z := 0 })
    else
      let h := fsub u2 u1
      let hh := h * h % p384
      let hhh := h * hh % p384
      let v := u1 * hh % p384
      let t := fsub s2 s1
      let x := fsub (fsub (t * t % p384) hhh) (2 * v % p384)
      { x := x, y := fsub (t * fsub v x % p384) (s1 * hhh % p384), z := q.z * r.z % p384 * h % p384 }

/-- The point u·G + v·Q by the bits of u and v, the highest first; `gq` is G + Q. -/
def ecComb (g q gq : EcPoint) (u v : Nat) : Nat → EcPoint → EcPoint
  | 0, a => a
  | n + 1, a =>
    let d := a.dbl
    ecComb g q gq u v n (match u / 2 ^ n % 2 == 1, v / 2 ^ n % 2 == 1 with
      | true, true => d.add gq
      | true, false => d.add g
      | false, true => d.add q
      | false, false => d)

/-- Power in the ring of integers modulo n384, by the lowest k bits of the exponent. -/
def powN (b e : Nat) : Nat → Nat
  | 0 => 1
  | k + 1 =>
    let h := powN b (e / 2) k
    let hh := h * h % n384
    if e % 2 = 1 then b * hh % n384 else hh

/-- A key as burnt: 0x04, then the coordinates, the most significant byte first; none where it is no point of the curve. -/
def ecKey (bs : List Byte) : Option (Nat × Nat) :=
  let x := fromBe ((bs.drop 1).take 48)
  let y := fromBe ((bs.drop 49).take 48)
  if byteAt bs 0 = 4 ∧ x < p384 ∧ y < p384 ∧ y * y % p384 = fsub ((x * x % p384 * x + b384) % p384) (3 * x % p384) then
    some (x, y)
  else none

/-- A signature (r, s) of a digest is valid under a key. -/
def ecVerify (key : Nat × Nat) (digest r s : Nat) : Bool :=
  if r = 0 ∨ s = 0 ∨ r ≥ n384 ∨ s ≥ n384 then false
  else
    let w := powN s (n384 - 2) 384
    let g : EcPoint := { x := g384.1, y := g384.2, z := 1 }
    let q : EcPoint := { x := key.1, y := key.2, z := 1 }
    let pt := ecComb g q (g.add q) (digest * w % n384) (r * w % n384) 384 { x := 1, y := 1, z := 0 }
    let zz := pt.z * pt.z % p384
    pt.z != 0 && (pt.x == r * zz % p384 || (decide (r + n384 < p384) && pt.x == (r + n384) * zz % p384))

/-! ### Signature trailers -/

/-- SIG_LEN is 96 and the reserved bytes are 0 (*Table: Signature trailer, 104 bytes*). -/
def trailerForm (t : List Byte) : Bool :=
  decide (t.length = 104) && getLe t 0 2 == 96 && ((t.drop 3).take 5).all (· == 0)

/-- A trailer's signature over the bytes before it is valid under a key (R81). -/
def sigValid (key : Option (Nat × Nat)) (msg trailer : List Byte) : Bool :=
  match key with
  | some k => ecVerify k (sha384 msg) (getLe trailer 8 48) (getLe trailer 56 48)
  | none => false

end Sys2Proof.Machine
end

