-- ==== Sys2Proof/Machine/Image.lean ====
section
/-!
DEFINITION. The billets of a Cord image as bytes (R78, R79): what is copied into their destinations, and their CRCs.
-/

namespace Sys2Proof.Machine

/-- The length of a payload with its padding. -/
def padded (n : Nat) : Nat := (n + 3) / 4 * 4

/-- The bytes of each billet between the header and the trailer. -/
def rawBillets : Nat → List Byte → List (List Byte)
  | 0, _ => []
  | n + 1, bs =>
    let size := 20 + padded (getLe bs 4 4)
    if bs.length < 16 ∨ bs.length < size then [] else bs.take size :: rawBillets n (bs.drop size)

/-- The billets of an image as bytes. -/
def rawOf (img : List Byte) : List (List Byte) := rawBillets (getLe img 6 2) ((img.take (img.length - 104)).drop 64)

/-- True for a billet whose destination is the Kiln configuration memory (*Table: Billet types*). -/
def kilnType (t : Nat) : Bool := t == 1 || t == 2 || t == 3 || t == 7 || t == 9 || t == 10

/-- The billets of an image that the Kiln configuration memory takes (R79). -/
def kcmOf (img : List Byte) : List (List Byte) := (rawOf img).filter fun b => kilnType (byteAt b 0)

/-- A billet's CRC-32C over its header and padded payload holds. -/
def billetCrc (b : List Byte) : Bool := crc32c (b.take (b.length - 4)) == getLe b (b.length - 4) 4

/-- The billets of a type, one after another as the image has them. -/
def billetBytes (img : List Byte) (ty : Nat) : List Byte := ((rawOf img).filter fun b => byteAt b 0 == ty).flatten

end Sys2Proof.Machine
end

