-- ==== Sys2Proof/Machine/Tab.lean ====
section
/-!
DEFINITION. Sparse tables: the one representation of arrays and memories in `State`. A table lists the entries that
differ from their default (the value the spec gives at reset), with rising keys. `tset` keeps that form and works on any
list of pairs; the invariant of every step claims the form for working SRAM.
-/

namespace Sys2Proof.Machine

/-- A sparse table: pairs of index and entry, indices strictly rising, no entry equal to the default. -/
abbrev Tab (α : Type) := List (Nat × α)

/-- The entry at index `i`, or the default `d`. -/
def tget {α : Type} (d : α) : Tab α → Nat → α
  | [], _ => d
  | (k, v) :: t, i => if i = k then v else if i < k then d else tget d t i

/-- Write entry `v` at index `i`; the default removes the entry (and, in a table that is not canonical, what hides behind
it). -/
def tset {α : Type} [DecidableEq α] (d : α) : Tab α → Nat → α → Tab α
  | [], i, v => if v = d then [] else [(i, v)]
  | (k, u) :: t, i, v =>
    if i = k then (if v = d then t.dropWhile (fun p => p.1 ≤ i) else (k, v) :: t)
    else if i < k then (if v = d then (k, u) :: t else (i, v) :: (k, u) :: t)
    else (k, u) :: tset d t i v

/-- Change the entry at index `i`. -/
def tmod {α : Type} [DecidableEq α] (d : α) (t : Tab α) (i : Nat) (f : α → α) : Tab α :=
  tset d t i (f (tget d t i))

/-- Every index of the table is above `b` and the indices rise; no entry is the default. -/
def tabAbove {α : Type} [DecidableEq α] (d : α) : Nat → Tab α → Bool
  | _, [] => true
  | b, (k, v) :: t => decide (b ≤ k) && decide (v ≠ d) && tabAbove d (k + 1) t

/-- The canonical form of a table. -/
def tabWf {α : Type} [DecidableEq α] (d : α) (t : Tab α) : Bool := tabAbove d 0 t

end Sys2Proof.Machine
end

