-- ==== Sys2Proof/Machine/State.lean ====
section
/-!
DEFINITION. The state of the module as plain data, block by block in the order of *Table: Subsystems* (R19), and the
state right after reset. A register that a host writes lives in `regs` (with its shadow and frozen copies); a register
that only the module writes is computed from the fields below. Times are µs of uptime (`now`) unless a field says
otherwise; `Option` is the spec's own "not running", "not held" or "none".
-/

namespace Sys2Proof.Machine

/-- Reasons for a stop. The spec gives every command of this block an effect, so no meaning raises one; the
constructor stands for a defect the model would report by name rather than go on (safe). -/
inductive Fault where
  /-- Raised by no meaning; safe. -/
  | internal
  deriving DecidableEq, Repr

/-- Reasons for a refusal. -/
inductive Refusal where
  /-- Raised by `exec` alone, for a command that has no meaning yet; safe. -/
  | notModelled (mnemonic : String)
  deriving DecidableEq, Repr

/-- The modes (R55). -/
inductive Mode where
  | ember | standby | precharge | connected | drowse | maintenance | safeStop | configure
  deriving DecidableEq, Repr

/-- Whether the module runs (R71 to R75): dark, flushing after PFAIL, waiting for the cold start condition, or on. -/
inductive Power where
  | dark | flushing | waiting | on
  deriving DecidableEq, Repr

/-- How an engine starts: a cold start, Kindling, or the restart on the way from CONFIGURE to STANDBY (R58). -/
inductive EngineBegin where
  | cold | kindling | restart
  deriving DecidableEq, Repr

/-- The result codes (R13). -/
inductive Code where
  | ok | busy | refusedMode | refusedRights | range | expired | lateDone | checkFail | notPresent | frozen | full
  deriving DecidableEq, Repr

/-- Who asks for a mode (R22, R57). -/
inductive ReqSrc where
  | fault (cause : Nat) | logic (t : Fin 16) | thermal | module (cause : Nat) | window (w : Win) | sched (w : Win)
  | panel | relay (cause : Nat) | lever
  deriving DecidableEq, Repr

/-- A queued mode request. -/
structure ModeReq where
  target : Mode
  src : ReqSrc
  deriving DecidableEq, Repr

/-! ### Records (chapter 18) -/

/-- The records this manual names. Their codes are in the module's code table (R462). -/
inductive RecName where
  | embWake | powerFail | pwrRecovered | safeAckRefused | kindlingAbandoned | kilnEngineFault | partitionViolation
  | cordCheckFail | cordActivate | cordRevert | cordDiverged | chainDelayStep | chainBreak | chainClosed
  | owUnresolved | sliceFault | sliceMismatch | calStarved | refExcluded | refFail | curChannelFlagged | curOverrange
  | isoWarn | isoAlarm | calRecordLost | calVerify | calAdjust | calZero | refAdjust | refReadmit | estGap
  | estLearnReject | estRecordLost | estReseeded | estStale | estReset | impAborted | impTableLost | impTzMismatch
  | convParked | thmBlind | thmRiseTrip | thmWarn | thmThrottle | thmShutdown | thmInhibit | laneDegraded | safLatch
  | logicTaskFault | logicNvLost | logicForce | logicChange | logicChangeRefused | logicStationLost | fioOverload
  | fioLinkFault | fioLinkRestored | fioFlMissing | fioFlLow | canRateFound | canPassive | canBusOff | canRecovered
  | timeJumpRefused | timeStep | timeDlyStep | timeAsymmetry | schedCleared | dspOwner | recLostUnflushed
  | recAuditLost | auditArchived | auditReleased | pairConflict | pairDouble | updReceived | keyProg | keyRevoke
  | cordConfirmed | cordFallbackFail | cordFallback | pnlKeyStuck | pnlAction | pnlPresentLost | pnlEject
  | ejectUnderLoad
  deriving DecidableEq, Repr

/-- One record (R459, R460). -/
structure Rec where
  seq : Word
  oph : Word
  pwc : Nat
  epc : Byte
  coalesced : Bool
  timeUnset : Bool
  holdover : Bool
  pf : Bool
  gapBefore : Bool
  sev : Nat
  cnt : Nat
  src : Byte
  ntime : Word64
  name : RecName
  payload : List Byte
  /-- logic time base at staging, for the 100 ms of R468 -/
  staged : Nat
  deriving DecidableEq, Repr

/-- A window's reader (R476); its cursor is the register REC_RDCUR. -/
structure Reader where
  ready : Option Rec := none
  wait : Bool := false
  tier : Nat := 0
  skip : Nat := 0
  fetching : Bool := false
  deriving DecidableEq, Repr

/-- The recorder (chapter 18). `staging` and `audit` are in order of SEQ; a store slot is keyed by its number. -/
structure RecS where
  seqNext : Word := 0
  /-- SEQ_NEXT as last written to the counters and identity partition, and its CLEAN mark (R463, R470) -/
  seqKept : Word := 0
  clean : Bool := true
  staging : List Rec := []
  /-- slot of the staging partition that the next record takes -/
  slot : Nat := 0
  gapBefore : Bool := false
  sdrop : Nat := 0
  /-- records of the flush that runs -/
  flushing : Option Nat := none
  /-- REC_CMD FLUSH waits for a flush to begin, and for the one that runs to end -/
  flushAgain : Bool := false
  flushCmd : Bool := false
  lastFlush : Nat := 0
  store : Tab (Option Rec) := []
  storeSlots : Nat := 65536
  drops : Tab Nat := []
  unarchived : List Word := []
  /-- blocks of at most 64 records, oldest first -/
  archive : List (List Rec) := []
  archMiss : Nat := 0
  lastArchive : Nat := 0
  audit : List Rec := []
  auditSlots : Nat := 16384
  auditFull : Bool := false
  auditLost : Nat := 0
  /-- sealed images, oldest first -/
  images : List (List Rec) := []
  imageNo : Nat := 0
  /-- the AUD_ARCHIVE that runs: its window and the last SEQ it copies -/
  archiving : Option (Win × Word) := none
  res : Code := .ok
  lostUnflushed : Bool := false
  liveCur : Word := 0
  lastFaultAt : Option Nat := none
  /-- the last record of severity FAULT or higher staged, for the FAULT light -/
  faultSeen : Option Nat := none
  deriving DecidableEq, Repr

/-! ### Kiln core and Cord loader (chapters 1 and 3) -/

/-- The word that a consumer of a crossbar route holds, and whether the consumer has taken it (R34). -/
structure XHold where
  word : Word
  tag : Byte
  taken : Bool
  deriving DecidableEq, Repr

/-- The Kiln core. -/
structure Kln where
  xovr : Tab Nat := []
  /-- what the consumers hold, by 4·route + consumer -/
  xhold : Tab (Option XHold) := []
  evPend : List EvSink := []
  /-- the clock domains that are gated (R40, R41) -/
  gated : List Domain := []
  /-- since when a fast domain has had no request, by its place in *Table: Clock domains* -/
  idleAt : Tab (Option Nat) := []
  /-- the domains whose PLL has lost its lock -/
  unlocked : List Domain := []
  /-- engine instances whose fault reaction to a partition violation is due (R36) -/
  faultPend : List (Engine × Nat) := []
  clockFault : Bool := false
  pviol : Nat := 0
  pviolAddr : Word := 0
  pviolSrc : Byte := 0
  stopped : List Engine := []
  engineFault : Bool := false
  aged : Tab Nat := []
  holds : List (Nat × Nat) := []
  /-- groups whose COMMIT waits for the end of their unit of work (R98) -/
  commitPend : List (Nat × Nat) := []
  /-- groups with shadow copies whose instance was not running (R97) -/
  idleGrp : List (Nat × Nat) := []
  deriving DecidableEq, Repr

/-- An SRAM access that waits for its bank: its plane, its beats of 16 bytes (at most 4), and since when (R26). -/
structure SramReq where
  plane : Plane
  beats : Nat
  since : Nat
  deriving DecidableEq, Repr

/-- The arbiter of the working SRAM: by bank, the accesses that wait in order of arrival, and the SYS cycles that the
burst in flight still takes (R26). -/
structure Arb where
  waiting : Tab (List SramReq) := []
  busy : Tab Nat := []
  deriving DecidableEq, Repr

/-- The regions of the managed flash beside the Cord slots and the archive (R44). No command of this manual writes them,
and the Cord does not divide the flash. -/
structure Flash where
  /-- capture dumps, 768 MB -/
  dumps : Tab Byte := []
  /-- reserved for block replacement, 64 MB -/
  spare : Tab Byte := []
  deriving DecidableEq, Repr

/-- A Cord slot: the bytes it holds (none when empty). -/
structure Slot where
  bytes : List Byte := []
  deriving DecidableEq, Repr

/-- The loader command a verification serves (R84, R506, R500, R373). -/
inductive VerifyFor where
  | verifyIncoming | verifyRunning | activate | revert | relay | fallback | olc (w : Win) | updActivate
  deriving DecidableEq, Repr

/-- The Cord loader. `content` is what the installed Cord sets; none in a bare module. -/
structure Crd where
  content : Option CordContent := none
  running : Slot := {}
  previous : Slot := {}
  incoming : Slot := {}
  /-- the billets that the Kiln configuration memory holds, in their order (R79, R80) -/
  kcm : List (List Byte) := []
  /-- the payload formats that the module knows: TYPE and FMT (R537) -/
  fmts : List (Nat × Nat) := [(1, 1), (2, 1), (3, 1), (4, 1), (5, 1), (6, 1), (7, 1), (8, 1), (9, 1), (10, 1)]
  xferOpen : Bool := false
  shortBlock : Bool := false
  nextBlock : Nat := 0
  relayBusy : Bool := false
  verifying : Option VerifyFor := none
  diverged : Bool := false
  frozenWrites : Nat := 0
  runBad : Bool := false
  incValid : Bool := false
  res : Code := .ok
  resBusy : Bool := false
  stage : Nat := 0
  billet : Nat := 65535
  codes : Word := 0
  keys : Tab Nat := [(0, 1)]
  /-- the public keys that KEY_PROG has burnt (R502) -/
  keyData : Tab (List Byte) := []
  /-- check and content of the previous slot as the verification of a fallback found them, for its cold start -/
  saved : Option BootFacts := none
  deriving DecidableEq, Repr

/-! ### Ember domain and modes (chapter 2) -/

/-- The Ember coulomb counter of one string (R69, R70). -/
structure Qdrw where
  q : Int := 0
  counting : Bool := false
  wakeRun : Nat := 0
  last : Int := 0
  vsSum : Int := 0
  vsN : Nat := 0
  deriving DecidableEq, Repr

/-- The Ember domain and power manager. -/
structure Emb where
  mode : Mode := .ember
  prev : Mode := .ember
  cause : Nat := 0
  power : Power := .dark
  reqs : List ModeReq := []
  /-- the instant of the last evaluation (R22) -/
  evalAt : Option Nat := none
  pfail : Bool := false
  eject : Bool := false
  present : Bool := true
  loto : Loto := .lock
  lotoRaw : Loto := .between
  lotoSeen : Bool := false
  lotoBetween : Option Nat := none
  holdup : Nat := 0
  holdupOk : Bool := false
  vsup : Nat := 0
  wakeSrc : Byte := 0
  oph : Word := 0
  ophAcc : Nat := 0
  pwc : Nat := 0
  pfailCnt : Nat := 0
  glitch : Nat := 0
  /-- outcome of the last request whose source is neither a window, a task, the panel nor the thermal supervisor (R23) -/
  srcRes : Option (ReqSrc × Code) := none
  /-- when PFAIL came, and when the Ember coulomb counter last sampled -/
  pfailAt : Nat := 0
  counterAt : Nat := 0
  /-- EMBER has been accepted, or EJECT asks for it from STANDBY: when, and the cause; the chain still sends BAL_AUTO
  and ends its tests (R155, R163) -/
  emberAt : Option (Nat × Nat) := none
  ticks : Nat := 0
  tickAcc : Nat := 0
  emberEntry : Nat := 0
  qdrw : Tab Qdrw := []
  drowseExit : Option Nat := none
  quietSince : Option Nat := none
  recovAt : Option Nat := none
  rampSince : Option Nat := none
  rampCause : Nat := 0
  rampTimeout : Bool := false
  forceAcked : Bool := true
  /-- a wake event has fired and Kindling has not answered it -/
  wakePend : Bool := false
  latchFaults : List Nat := []
  deriving DecidableEq, Repr

/-! ### Chain and sweeps (chapters 4 and 5) -/

/-- The states of a loop (CHN_LSTATk.STATE). -/
inductive LoopState where
  | down | enum | closed | rerouted | lost | disabled
  deriving DecidableEq, Repr

/-- What a chain command carries: opcode, end (true for A), HOP (63 broadcast) and payload after LIMIT or whole. -/
structure ChainCmd where
  opc : Nat
  fromA : Bool
  hop : Nat
  payload : List Byte
  deriving DecidableEq, Repr

/-- A queued item of R130 (3 to 7): its rank and the commands left of its sequence, each with the position it
addresses (0 broadcast). -/
structure ChainItem where
  rank : Nat
  cmds : List (Nat × ChainCmd)
  deriving DecidableEq, Repr

/-- A response accepted in the running transaction: position, ALM, payload. -/
structure ChainResp where
  rhop : Nat
  pos : Nat
  alm : Bool
  payload : List Byte
  deriving DecidableEq, Repr

/-- The transaction a loop carries. -/
structure ChainTx where
  cmd : ChainCmd
  rank : Nat
  pos : Nat
  limit : Nat
  tag : Byte
  retries : Nat
  arrived : Bool
  resps : List ChainResp
  /-- when its frame left, and when the last response was accepted (R132) -/
  sentAt : Nat := 0
  lastEnd : Option Nat := none
  deriving DecidableEq, Repr

/-- The step a loop's sequencer is in (enumeration, location). -/
inductive LoopOp where
  | idle | enumA | enumB | enumDelay | locateA | locateB
  deriving DecidableEq, Repr

/-- One unit of a loop as the module knows it. -/
structure UnitS where
  uid : Word64 := 0
  da : Nat := 0
  db : Nat := 0
  comp : Bool := false
  por : Bool := false
  susp : BitVec 16 := 0
  fault : BitVec 16 := 0
  devRun : Tab Nat := []
  lastTest : Nat := 0
  prevBal : Tab Nat := []
  balSeen : Bool := false
  balUid : Word64 := 0
  /-- onset memory of the module-detected alarm types 0x20 to 0x25 -/
  onset : BitVec 8 := 0
  /-- last sweep's block: USTAT, UFLAGS, cells, thermistors, stack, SSUM, cell flags -/
  ustat : Byte := 0
  uflags : BitVec 16 := 0
  cells : List Nat := []
  therms : List Int := []
  stack : Nat := 0
  ssum : BitVec 16 := 0
  cflags : List Byte := []
  /-- readings of the two test sweeps -/
  test1 : List Nat := []
  test2 : List Nat := []
  trigCells : BitVec 16 := 0
  /-- cells eligible under R159 in the last normal sweep -/
  elig : BitVec 16 := 0
  balUntil : Tab Nat := []
  /-- STACK_MISMATCH in the last normal sweep -/
  stackBad : Bool := false
  deriving DecidableEq, Repr

/-- A pair of position and alarm type: its pending entry's ring index and suppressed count (R168). -/
structure AlarmPair where
  pending : Option Word := none
  suppressed : Nat := 0
  deriving DecidableEq, Repr

/-- One chain loop with its sweep sequencer. Units are keyed by position, alarm pairs by 64·position + type. -/
structure LoopS where
  state : LoopState := .down
  n : Nat := 0
  syncId : Byte := 0
  synced : Bool := false
  skip : Nat := 0
  almSeen : Bool := false
  almPend : Bool := false
  almFromA : Bool := true
  almLimit : Nat := 0
  almDone : Bool := false
  syncDegr : Bool := false
  countMismatch : Bool := false
  tooMany : Bool := false
  idConflict : Bool := false
  brkCnt : Nat := 0
  aLast : Nat := 0
  bFirst : Nat := 0
  spread : Nat := 0
  dl : Nat := 0
  ts : Word64 := 0
  tag : Byte := 0
  op : LoopOp := .idle
  tx : Option ChainTx := none
  queue : List ChainItem := []
  suspect : Bool := false
  rejoin : Nat := 0
  lastEcho : Nat := 0
  /-- a refresh of R124 runs: the positions to measure, the ECHO commands of the present one, one taken in this gap -/
  refresh : Bool := false
  echoTodo : List Nat := []
  echoCmds : List (Nat × ChainCmd) := []
  echoGap : Bool := false
  /-- ECHO exchanges by 2·position (+ 1 from the B end): their number and the sum of the round trips in ns (R122) -/
  echo : Tab (Nat × Nat) := []
  /-- identifiers read from each end, by RHOP -/
  listA : List (Nat × Word64) := []
  listB : List (Nat × Word64) := []
  /-- LOCATE or the enumeration has read both ends -/
  readBoth : Bool := false
  hostOp : Bool := false
  /-- every cell of the loop is INVALID until an enumeration (R136) -/
  cellsBad : Bool := false
  arrA : Bool := false
  arrB : Bool := false
  units : Tab UnitS := []
  -- the open sweep
  sweepOpen : Bool := false
  t0 : Nat := 0
  readDue : Bool := false
  readDone : Bool := false
  kind : Nat := 0
  gotA : Nat := 0
  bLim : Nat := 0
  resps : List ChainResp := []
  fromB : List Nat := []
  skipped : Bool := false
  degrAtT0 : Bool := false
  /-- the sweep ran at DRW_PER (R147) -/
  drwAtT0 : Bool := false
  istr : Int := 0
  istrInvalid : Bool := false
  /-- Q_string at the precision instant nearest t_s -/
  qTs : Int := 0
  istrDist : Nat := 0
  /-- SEQ of the last record, and the number of records written -/
  seq : Word := 0
  records : Nat := 0
  lastSweep : Option Nat := none
  lastRecord : Option Nat := none
  -- open-wire test
  owState : Nat := 0
  owLast : Nat := 0
  owPos : Nat := 0
  owWait : List Nat := []
  owHost : Bool := false
  owAckAt : Option Nat := none
  /-- the test current that runs: position (0 the loop), since, and until when HOLD keeps it -/
  owCur : Option (Nat × Nat × Nat) := none
  lastOwAll : Nat := 0
  owRetry : Bool := false
  -- balancing
  balHalted : Bool := false
  balImp : Bool := false
  /-- no sweep has closed since the start, so READ_BAL is still to come (R161) -/
  balFirst : Bool := false
  lastBal : Nat := 0
  balQ : Word := 0
  balAcc : Nat := 0
  -- alarms
  pairs : Tab AlarmPair := []
  alost : Nat := 0
  overflow : Bool := false
  deriving DecidableEq, Repr

/-- A chain port's counters (R109, R112, R132). -/
structure PortS where
  crc : Nat := 0
  code : Nat := 0
  tmo : Nat := 0
  disc : Nat := 0
  pol : Bool := false
  lastAcc : Option Nat := none
  deriving DecidableEq, Repr

/-- The chain subsystem. -/
structure Chn where
  loops : Tab LoopS := []
  /-- start of the sweep timer (R143) -/
  timer0 : Nat := 0
  ports : Tab PortS := []
  res : Code := .ok
  swpRes : Code := .ok
  deriving DecidableEq, Repr

/-! ### Measurement bank and traceability (chapters 6 and 7) -/

/-- A measurement channel. `word` and `ctl` are the last precision and control words; `ramp` is d with its start. -/
structure ChanS where
  word : Int := 0
  ctl : Int := 0
  ovr : Bool := false
  slice : Option Nat := none
  trim : Int := 0
  ramp : Int := 0
  rampAt : Nat := 0
  deriving DecidableEq, Repr

/-- A slice's last calibration, gain in ppb of nominal and offset in nV, and whether it is marked faulty. -/
structure SliceS where
  gain : Int := 0
  off : Int := 0
  calibrated : Bool := false
  faulty : Bool := false
  deriving DecidableEq, Repr

/-- A requester of an injected conversion (R181). -/
inductive InjReq where
  | lanes | host (w : Win) | logic | iso
  deriving DecidableEq, Repr

/-- One string's injection queue and current vote. -/
structure MeaStr where
  /-- the injection running (requester, point) with its start -/
  running : Option (InjReq × Nat × Nat) := none
  waiting : List (InjReq × Nat) := []
  /-- until when VBk's precision words repeat the last unaffected one (R182) -/
  vbHold : Nat := 0
  /-- until when VBk's control words repeat the last word taken before an injection (R182) -/
  ctlHold : Nat := 0
  voted : Int := 0
  votedCtl : Int := 0
  invalid : Bool := false
  lastValid : Int := 0
  ovr : Bool := false
  flag : BitVec 3 := 0
  latch : BitVec 3 := 0
  devSince : Tab (Option Nat) := []
  okSince : Tab (Option Nat) := []
  flagTimes : List (Nat × Nat) := []
  validSince : Option Nat := none
  isoStat : Nat := 0
  isoR : Nat := 0
  isoRp : Nat := 0
  isoRn : Nat := 0
  isoAt : Nat := 0
  deriving DecidableEq, Repr

/-- The measurement bank. -/
structure Mea where
  chans : Tab ChanS := []
  slices : Tab SliceS := []
  strs : Tab MeaStr := []
  rotCh : Nat := 0
  rotPhase : Nat := 0
  rotCnt : Nat := 0
  restart : Nat := 0
  rotSkip : Nat := 0
  skipRow : Tab Nat := []
  /-- channels skipped that the rotation returns to, last skipped first, and where it goes on after them: the channel and
  whether a rotation is complete then (R183) -/
  rotReturn : List Nat := []
  rotAfter : Option (Nat × Bool) := none
  /-- the overlap's precision instants so far, and the sums of the slice's and the spare's words in thousandths (R176) -/
  ovN : Nat := 0
  ovSlice : Int := 0
  ovSpare : Int := 0
  /-- the slot has begun, and the instant its phase began -/
  rotRun : Bool := false
  rotAt : Nat := 0
  halted : Bool := false
  rotDegr : Bool := false
  rotDegrOph : Nat := 0
  refFail : Bool := false
  refFailSince : Option Nat := none
  excl : BitVec 3 := 0
  ovenOk : BitVec 3 := 0
  refDev : Tab Int := []
  refTimer : Tab Nat := []
  injSaf : Nat := 0
  injOther : Nat := 0
  injVal : Int := 0
  res : Code := .ok
  isoStr : Nat := 0
  isoState : Nat := 0
  isoSince : Nat := 0
  isoVp1 : Int := 0
  isoVn1 : Int := 0
  isoU1 : Int := 0
  isoU : Int := 0
  /-- the state that runs has its U; ISP and ISN over the last 500 ms of it, newest first (R194) -/
  isoGot : Bool := false
  isoHist : List (Int × Int) := []
  /-- the last evaluation of the references, and the words of RCB and RCC since: number and sum (R186) -/
  refAt : Nat := 0
  refNB : Nat := 0
  refSB : Int := 0
  refNC : Nat := 0
  refSC : Int := 0
  /-- the last precision-path instant -/
  sampleAt : Nat := 0
  /-- a precision-path sample has been taken since the start -/
  sampled : Bool := false
  deriving DecidableEq, Repr

/-- A calibration record (R202); the two copies differ only while a change is being written. -/
structure CalRec where
  source : Nat := 0
  rev : Nat := 0
  gcorr : Int := 0
  ocorr : Int := 0
  value : Nat := 0
  u : Nat := 0
  ntime : Word64 := 0
  oph : Word := 0
  calid : Word := 0
  deriving DecidableEq, Repr

/-- The operation of the traceability unit (R206 to R212). -/
inductive TrcOp where
  | idle | verify (e : Nat) (since : Nat) | zero (e : Nat) (since : Nat)
  deriving DecidableEq, Repr

/-- The outcome of a VERIFY that an ADJUST may apply (R211). -/
structure Verified where
  dev : Int
  u : Nat
  at_ : Nat
  deriving DecidableEq, Repr

/-- The traceability unit. -/
structure Trc where
  recA : Tab CalRec := []
  recB : Tab CalRec := []
  /-- entries whose copy A, and whose copy B, fails its CRC (R204) -/
  badA : List Nat := []
  badB : List Nat := []
  /-- the second copy of a change that is being written: entry, whether it is copy B, content (R204) -/
  second : Option (Nat × Bool × CalRec) := none
  warmAt : Option Nat := none
  warming : Bool := true
  calAged : Bool := false
  owner : Option Win := none
  op : TrcOp := .idle
  res : Code := .ok
  j5val : Int := 0
  dev : Int := 0
  verdict : Nat := 0
  vEntry : Nat := 0
  vU : Nat := 0
  /-- the last VERIFY of each entry in this stay of CALIBRATE -/
  verifs : Tab (Option Verified) := []
  /-- the running second of J5 readings: its start, the readings in it, their sum, and that of the operation's channel -/
  secAt : Nat := 0
  secN : Nat := 0
  secJ : Int := 0
  secC : Int := 0
  /-- the seconds of the operation that runs, as sums of channel words and of J5 readings, and its readings so far -/
  secs : List (Int × Int) := []
  opN : Nat := 0
  deriving DecidableEq, Repr

/-! ### Estimation and impedance (chapters 8 and 9) -/

/-- The learned record's data (R231). -/
structure Learned where
  seq : Nat := 0
  cl : Nat := 0
  cyc : Word := 0
  qE : Int := 0
  qA : Int := 0
  aType : Nat := 0
  arm : BitVec 2 := 3
  accepted : Nat := 0
  rejected : Nat := 0
  cLast : Nat := 0
  step : Int := 0
  uid : Word64 := 0
  dRef : Nat := 0
  ntA : Word64 := 0
  bCell : Int := 0
  seed : Word := 0
  /-- retained flags DEFAULTS, REC_LOST, TRAVERSE, COUNT_GAP, LEARN_STALE -/
  defaults : Bool := false
  recLost : Bool := false
  traverse : Bool := false
  countGap : Bool := false
  learnStale : Bool := false
  deriving DecidableEq, Repr

/-- A cell context: live block, learned record, stored copies, anchor timers (R216 to R239). -/
structure CellS where
  lr : Learned := {}
  copyA : Option Learned := none
  copyB : Option Learned := none
  dirty : Option Nat := none
  socRaw : Int := 0
  soc : Nat := 0
  disp : Nat := 0
  qCell : Int := 0
  vCell : Nat := 0
  eC : Nat := 0
  tCell : Int := -32768
  ts : Word64 := 0
  unusable : Bool := false
  invalid : Bool := false
  socSat : Bool := false
  socCeil : Bool := false
  socFloor : Bool := false
  ceilNoted : Bool := false
  floorNoted : Bool := false
  fullSince : Option Nat := none
  emptySince : Option Nat := none
  /-- t0 of the last normal sweep evaluated, and whether it or an earlier one gave a usable reading -/
  evalT0 : Nat := 0
  vSeen : Bool := false
  lastCyc : Nat := 0
  tz : Int := -32768
  tzAt : Nat := 0
  tzRange : Bool := false
  deriving DecidableEq, Repr

/-- A stored string record (R231). -/
structure StrRec where
  seq : Nat
  q : Int
  d : Nat
  eChg : Nat
  eDis : Nat
  qRem : Int
  dRem : Nat
  cRem : Nat
  disRem : Nat
  seed : Word
  clean : Bool
  deriving DecidableEq, Repr

/-- The estimator of one string. Remainders: charge in 0.1 µC, energy in 10⁻⁷ mJ. -/
structure EstStr where
  q : Int := 0
  qRem : Int := 0
  d : Nat := 0
  dRem : Nat := 0
  eChg : Nat := 0
  cRem : Nat := 0
  eDis : Nat := 0
  disRem : Nat := 0
  seed : Word := 0
  gapCnt : Nat := 0
  gapSince : Option Nat := none
  gapDur : Nat := 0
  lastI : Int := 0
  copyA : Option StrRec := none
  copyB : Option StrRec := none
  lastWrite : Nat := 0
  deriving DecidableEq, Repr

/-- The estimation engine; cells keyed by cell index. -/
structure Est where
  strs : Tab EstStr := []
  cells : Tab CellS := []
  res : Code := .ok
  nvDefer : Bool := false
  /-- writes were deferred when the power-fail flush began (R72, R233) -/
  shut : Bool := false
  flushing : Bool := false
  deferCnt : Nat := 0
  torn : Nat := 0
  lastDisp : Nat := 0
  deriving DecidableEq, Repr

/-- An impedance table entry (R256). -/
structure ImpEntry where
  re : Int := 0
  im : Int := 0
  count : Nat := 0
  dflt : Bool := false
  stale : Bool := false
  deriving DecidableEq, Repr

/-- One cell's table copies in the estimator partition: SEQ of A and B and their contents (R259). -/
structure ImpCopies where
  seqA : Nat := 0
  a : Tab ImpEntry := []
  seqB : Nat := 0
  b : Tab ImpEntry := []
  deriving DecidableEq, Repr

/-- A unit's READ_IQ result as accepted: position, EXP, mantissas I and Q per cell. -/
structure IqRes where
  pos : Nat
  exp : Nat
  iq : List (Int × Int)
  deriving DecidableEq, Repr

/-- A loop's impedance sweep (R253 to R263). -/
structure ImpS where
  state : Nat := 0
  point : Nat := 0
  last : Nat := 0
  why : Nat := 0
  swCnt : Nat := 0
  skips : Nat := 0
  hostPause : Bool := false
  due : Bool := false
  tzDue : Bool := false
  lastEnd : Nat := 0
  lastTz : Nat := 0
  pausedAt : Nat := 0
  armed : Bool := false
  /-- epoch t_e in ns of uptime -/
  epoch : Option Nat := none
  epochTs : Word64 := 0
  epochId : Byte := 0
  fw : Nat := 0
  ampl : Nat := 0
  m : Nat := 0
  repeated : Bool := false
  halved : Bool := false
  iDsp : Int := 0
  /-- a sweep underlies, and the current point is a temperature point -/
  inSweep : Bool := false
  tz : Bool := false
  /-- end of the window in ns of uptime, and whether READ_IQ was sent -/
  winEnd : Nat := 0
  winStart : Nat := 0
  iqSent : Bool := false
  bandB : Tab Nat := []
  bandBDone : Bool := false
  /-- SETTLE, PER and the number of cycles as the point's NCO_SET carries them -/
  settle : Nat := 0
  per : Nat := 0
  /-- the bound that halving sets on a repeated point's amplitude (R246) -/
  halfAmp : Nat := 0
  /-- accumulators of the current phasor over the window -/
  accN : Nat := 0
  accRe : Int := 0
  accIm : Int := 0
  /-- the current phasor of the last point, in 0.1 mA -/
  ire : Int := 0
  iim : Int := 0
  /-- units that reported POR since the epoch (R250) -/
  porUnits : List Nat := []
  badCells : List Nat := []
  bandA : Tab Nat := []
  seq : Word := 0
  rej : Nat := 0
  skipCnt : Nat := 0
  xmis : Word := 0
  xRun : Tab Nat := []
  xOk : Tab Nat := []
  iq : List IqRes := []
  deriving DecidableEq, Repr

/-- The impedance sweep unit; tables keyed by 1024·cell + entry. -/
structure Imp where
  loops : Tab ImpS := []
  tab : Tab ImpEntry := []
  copies : Tab ImpCopies := []
  dirty : Tab Nat := []
  res : Code := .ok
  deriving DecidableEq, Repr

/-! ### Control engine and PWM (chapter 10) -/

/-- A loop context (R264 to R293). Bank words are registers. -/
structure Ctx where
  i : Int := 0
  y : Int := 0
  df : Int := 0
  ePrev : Int := 0
  x1 : Int := 0
  x2 : Int := 0
  y1 : Int := 0
  y2 : Int := 0
  aw : Nat := 0
  srcInv : Bool := false
  trk : Bool := false
  trkLim : Bool := false
  bankBad : Bool := false
  swapPend : Bool := false
  maxLat : Nat := 0
  late : Nat := 0
  /-- candidate u of the last sample, and its part p + df + mul(kff, ff) -/
  cand : Int := 0
  base : Int := 0
  /-- the timer instant last executed, in units of 125 ps; outputs completed, and the instant of the last -/
  firedAt : Option Nat := none
  runs : Nat := 0
  doneAt : Nat := 0
  deriving DecidableEq, Repr

/-- A string converter (R279 to R289). -/
structure Conv where
  state : Nat := 0
  sel : Nat := 3
  dir : Bool := false
  limited : Bool := false
  causes : BitVec 8 := 1
  r : Int := 0
  /-- r in quarters of a nA, which the ramps step -/
  rq : Int := 0
  iSel : Int := 0
  iSet : Int := 0
  started : Bool := false
  iTgt : Int := 0
  mRun : Bool := false
  forceNew : Bool := false
  deriving DecidableEq, Repr

/-- A test-signal generator (R294, R295). -/
structure Gen where
  state : Nat := 0
  cnt : Nat := 0
  phase : Word := 0
  prbs : Word := 0
  held : Nat := 0
  bit : Bool := false
  value : Int := 0
  deriving DecidableEq, Repr

/-- A capture channel (R296 to R298); its samples lie in its SRAM partition. -/
structure Cap where
  state : Nat := 0
  pos : Nat := 0
  recorded : Nat := 0
  after : Nat := 0
  tpos : Nat := 0
  late : Bool := false
  gap : Bool := false
  prev : Option Int := none
  trigNow : Bool := false
  divCnt : Nat := 0
  blockStart : Nat := 0
  deriving DecidableEq, Repr

/-- The control engine. -/
structure Ctl where
  ctxs : Tab Ctx := []
  convs : Tab Conv := []
  gens : Tab Gen := []
  caps : Tab Cap := []
  res : Code := .ok
  internal : Bool := false
  /-- the start of the HRP time base (R274) -/
  base : Nat := 0
  /-- the word last written to CTL_SWAP_LO -/
  swapLo : Word := 0
  deriving DecidableEq, Repr

/-- A PWM channel (R273 to R278). -/
structure Pwm where
  duty : Nat := 0
  held : Bool := true
  late : Nat := 0
  minp : Nat := 0
  /-- the period start last taken, in units of 125 ps, and the output of SRC last loaded, by its number (R277) -/
  startAt : Option Nat := none
  seen : Nat := 0
  /-- the pulse of the period: rise and fall after its start in units of 125 ps, and whether it is issued (R275, R276) -/
  rise : Nat := 0
  fall : Nat := 0
  on : Bool := false
  deriving DecidableEq, Repr

/-! ### Thermal supervisor (chapter 11) -/

/-- A temperature source's history and rate counters. Key of sources: 32·k + p for units, 1000 + j for inputs. -/
structure ThmSrc where
  hist : List Int := []
  warnRun : Nat := 0
  tripRun : Nat := 0
  r30 : Option Int := none
  r121 : Option Int := none
  deriving DecidableEq, Repr

/-- One string's thermal state. -/
structure ThmStr where
  warn : Bool := false
  throttle : Bool := false
  shutdown : Bool := false
  riseWarn : Bool := false
  riseTrip : Bool := false
  chgInh : Bool := false
  disInh : Bool := false
  /-- window limits that inhibit charging and discharging: bit 0 the minimum, bit 1 the maximum -/
  chgWin : BitVec 2 := 0
  disWin : BitVec 2 := 0
  blind : Bool := false
  hotPos : Nat := 0
  tMax : Int := -32768
  tMin : Int := -32768
  rate : Int := 0
  derC : Nat := 32768
  derD : Nat := 32768
  cool : Nat := 0
  heat : Nat := 0
  sampled : Bool := false
  belowRun : Nat := 0
  deriving DecidableEq, Repr

/-- The thermal supervisor; units keyed by 32·k + p − 1, cells by cell index. -/
structure Thm where
  strs : Tab ThmStr := []
  unitT : Tab Int := []
  unitBlind : Tab Bool := []
  unitExcl : Tab Bool := []
  tCell : Tab Int := []
  th : Tab Int := []
  thFault : Tab Bool := []
  board : Int := 0
  fast : Bool := false
  lastNear : Nat := 0
  /-- instants of the last sample and of the last rate evaluation (R304) -/
  sampledAt : Option Nat := none
  ratedAt : Option Nat := none
  riseLatch : Bool := false
  riseQuiet : Option Nat := none
  everConnected : Bool := false
  recovAt : Option Nat := none
  srcs : Tab ThmSrc := []
  canCnt : Byte := 0
  lastCan : Nat := 0
  /-- the outcome of the supervisor's last mode request (R23) -/
  reqRes : Code := .ok
  deriving DecidableEq, Repr

/-! ### Safety lanes (chapter 12) -/

/-- A lane (R321 to R325). -/
structure Lane where
  state : Nat := 0
  cause : Nat := 0
  disag : Nat := 0
  disagRun : Nat := 0
  missRun : Nat := 0
  /-- the lane's own copy of the Safety billet, and the instant of its last check (R82) -/
  billet : List Byte := []
  checked : Nat := 0
  deriving DecidableEq, Repr

/-- A safety input (R335 to R337). -/
structure SafIn where
  a : Bool := false
  b : Bool := false
  discCnt : Nat := 0
  discFlt : Bool := false
  seenZero : Bool := false
  tpFlt : Bool := false
  /-- runs of test pulses at whose end a channel read 1, and read 0 (R335) -/
  tpRunA : Nat := 0
  tpRunB : Nat := 0
  tpOkA : Nat := 0
  tpOkB : Nat := 0
  stState : Nat := 0
  zeroSince : Option Nat := none
  deriving DecidableEq, Repr

/-- A safety output (R338 to R342). -/
structure SafOut where
  req : Bool := false
  laneOn : Bool := false
  rb : Bool := false
  flt : Nat := 0
  pulsing : Option Nat := none
  peer : Nat := 0
  pcnt : Nat := 0
  highRun : Nat := 0
  lastPulse : Nat := 0
  highLeft : List Nat := []
  offSince : Option Nat := none
  latched : Bool := false
  deriving DecidableEq, Repr

/-- One string's contactors (R344 to R348). `pstate` 0 open, 1 precharging, 2 closing K+, 3 connected, 4 weld check. -/
structure Ctr where
  pstate : Nat := 0
  weld : Bool := false
  met : Bool := false
  preSince : Option Nat := none
  kplusAt : Option Nat := none
  openAt : Option Nat := none
  preFail : Bool := false
  want : Bool := false
  v0 : Int := 0
  v1 : Int := 0
  v2 : Int := 0
  /-- the last poll, and whether POINT 0 of it has been read -/
  pollAt : Option Nat := none
  v0New : Bool := false
  deriving DecidableEq, Repr

/-- A supervised position's summary (R331, R332). -/
structure Summ where
  scnt : Option Nat := none
  cand : Option Nat := none
  ov : Bool := false
  uv : Bool := false
  ot : Bool := false
  sflt : Bool := false
  last : Nat := 0
  lost : Bool := false
  deriving DecidableEq, Repr

/-- A safe connection (R349 to R352). -/
structure SafConnS where
  state : Nat := 0
  seq : Nat := 0
  acc : Nat := 0
  disc : Nat := 0
  sent : Bool := false
  data : List Byte := []
  arrived : Option (List Byte) := none
  last : Nat := 0
  deriving DecidableEq, Repr

/-- A demand: function, string set, source index, triggering value, and the lanes that make it (R353). -/
structure Demand where
  f : Nat
  strm : Nat
  src : Nat := 0
  val : Int := 0
  lanes : Nat := 0
  deriving DecidableEq, Repr

/-- The safety lanes and safety I/O. Functions are numbered 1 to 16; summaries keyed by 32·k + p − 1. -/
structure Saf where
  lanes : Tab Lane := []
  selftest : Bool := false
  /-- the instant of the last safety cycle (R18) -/
  cycleAt : Option Nat := none
  degrOph : Option Nat := none
  cycle : Nat := 0
  latch : BitVec 17 := 0
  dem : BitVec 17 := 0
  /-- string sets of the latched functions, the source index and lanes of each latch, and the demands present -/
  latchStr : Tab Nat := []
  latchSrc : Tab (Nat × Nat) := []
  dems : List Demand := []
  lastCycle : Nat := 0
  slotAt : Nat := 0
  fCode : Nat := 0
  fStr : BitVec 4 := 0
  fSrc : Nat := 0
  fLanes : BitVec 3 := 0
  sis : Tab SafIn := []
  sos : Tab SafOut := []
  sgClosed : BitVec 4 := 15
  sgFlt : BitVec 4 := 0
  cts : Tab Ctr := []
  summ : Tab Summ := []
  ocRun : Tab Nat := []
  ocSeen : BitVec 12 := 0
  ocTrip : BitVec 12 := 0
  thSince : Tab (Option Nat) := []
  slPlus : Nat := 0
  supWarn : Bool := false
  supLowSince : Option Nat := none
  supOkSince : Option Nat := none
  supLost : Bool := false
  loto : Loto := .lock
  lotoSeen : Bool := false
  lotoBetween : Option Nat := none
  conns : Tab SafConnS := []
  terms : Word := 0
  res : Code := .ok
  laneFault : Bool := false
  watchdog : Bool := false
  /-- the last end of a pulse of TS0 and of TS1 (R335) -/
  tsA : Option Nat := none
  tsB : Option Nat := none
  deriving DecidableEq, Repr

/-! ### Logic engine (chapter 13) -/

/-- A task's view of an edge catcher (R366). -/
structure EdgeView where
  rise : Nat := 0
  fall : Nat := 0
  riseAt : Nat := 0
  fallAt : Nat := 0
  deriving DecidableEq, Repr

/-- A logic task (R354 to R368). -/
structure Task where
  state : Nat := 0
  cause : Nat := 0
  ovf : Bool := false
  div0 : Bool := false
  ovr : Nat := 0
  maxT : Nat := 0
  lastT : Nat := 0
  cycles : Word := 0
  pc : Nat := 0
  w : Tab Word64 := []
  /-- working registers whose value was loaded from an FI address, with the input number + 1 -/
  wFi : Tab Nat := []
  flag : Bool := false
  stack : List Nat := []
  data : Tab Byte := []
  /-- the retained copy of the data area (R367) -/
  kept : Tab Byte := []
  input : Tab Byte := []
  /-- the task's output image by bit, key (16·area + station)·65536 + bit; none where nothing was ever stored -/
  outBuf : Tab (Option Bool) := []
  dueAt : Option Nat := none
  again : Bool := false
  startAt : Nat := 0
  copyAt : Nat := 0
  edges : Tab EdgeView := []
  newEdges : Tab EdgeView := []
  startCause : Nat := 0
  /-- last instant at which the task fell due -/
  lastDue : Option Nat := none
  /-- outcome of the task's last mode request -/
  reqRes : Code := .ok
  /-- data of the END whose retained write runs until `nvUntil`, in logic time -/
  wrData : Tab Byte := []
  nvUntil : Nat := 0
  /-- data of the last END that waits for the end of a deferral (R369) -/
  nvPend : Option (Tab Byte) := none
  /-- the variable map that the data follows -/
  vars : List VarEntry := []
  /-- stations that became LOST since the input copy of the present cycle (R378) -/
  lostStns : BitVec 16 := 0
  deriving DecidableEq, Repr

/-- A force table entry (R370). kind 1 image address, 2 variable. -/
structure Force where
  kind : Nat
  orphan : Bool
  overlap : Bool
  task : Nat
  addr : Word
  sym : Word
  val : Word
  /-- size of the target in bits -/
  size : Nat
  deriving DecidableEq, Repr

/-- A remote I/O station (R376 to R380). -/
structure Stn where
  state : Nat := 0
  lostCnt : Nat := 0
  disc : Nat := 0
  badFr : Nat := 0
  rxSeq : Option Nat := none
  txSeq : Nat := 0
  last : Nat := 0
  lastTx : Nat := 0
  run : Nat := 0
  noData : Bool := true
  deriving DecidableEq, Repr

/-- The logic engine. Images are keyed by bit (FI, FQ), byte (SI, SQ at 64·station) or word (XI, XQ). -/
structure Lgc where
  tasks : Tab Task := []
  fi : BitVec 32 := 0
  fq : BitVec 16 := 0
  fqNamed : BitVec 16 := 0
  si : Tab Byte := []
  siLive : Tab Byte := []
  sq : Tab Byte := []
  xi : Tab Word := []
  xq : Tab Word := []
  sysOut : Word64 := 0
  forces : Tab (Option Force) := []
  res : Code := .ok
  entry : Nat := 0
  time : Nat := 0
  lag : Nat := 0
  deferCnt : Nat := 0
  nvDefer : Bool := false
  /-- changes made during a deferral were lost with the supply (R369) -/
  deferLost : Bool := false
  olc : Option (Win × Nat) := none
  olcNew : List (Nat × TaskImage) := []
  olcRes : Code := .ok
  olcWait : Nat := 0
  olcGen : Nat := 0
  /-- the running code lies at the end of the SRAM logic partition, where an online change put it (R373) -/
  codeTop : Bool := false
  stns : Tab Stn := []
  /-- stations whose loss waits for the error task, and those its present run covers (R379) -/
  errPend : BitVec 16 := 0
  errStns : BitVec 16 := 0
  /-- after an accepted STANDBY → EMBER no cycle starts (R358) -/
  stopped : Bool := false
  /-- until when an online change withholds every start, in logic time (R374) -/
  holdUntil : Nat := 0
  deriving DecidableEq, Repr

/-! ### Field I/O (chapter 14) -/

/-- A field input in the section, behind its debounce (R383, R384): raw sample, debounced value, the start of the
stable run, and the edges since the last frame with their stamps in the logic time base. -/
structure FioIn where
  raw : Bool := false
  deb : Bool := false
  runStart : Option Nat := none
  rise : Nat := 0
  fall : Nat := 0
  riseAt : Nat := 0
  fallAt : Nat := 0
  deriving DecidableEq, Repr

/-- A field output (R385 to R387); `onAt` is when it last went on and `ovlAt` the start of the last overload or retry. -/
structure FioOut where
  on : Bool := false
  onAt : Nat := 0
  ovl : Bool := false
  ovlAt : Nat := 0
  tryAt : Option Nat := none
  highOff : Bool := false
  highRun : Nat := 0
  lowRun : Nat := 0
  deriving DecidableEq, Repr

/-- The field I/O section and its link. `lastAt` is the end of the last accepted frame and `slots` the slots counted as
bad or missing since; the fields from `txSeq` on stand on the section's side or describe FL+. -/
structure Fio where
  ins : Tab FioIn := []
  outs : Tab FioOut := []
  res : Code := .ok
  linkFlt : Bool := false
  fltHeld : Bool := false
  flMissing : Bool := false
  flLow : Bool := false
  edgeLost : Bool := false
  fltCnt : Nat := 0
  bad : Nat := 0
  miss : Nat := 0
  badRun : Nat := 0
  goodRun : Nat := 0
  /-- inputs have gone live since the start of the link (R394) -/
  live : Bool := false
  lastSeq : Option Nat := none
  lastAt : Nat := 0
  slots : Nat := 0
  txSeq : Byte := 0
  lastTx : Option Nat := none
  txOut : BitVec 16 := 0
  secBadRun : Nat := 0
  secGoodRun : Nat := 0
  secOff : Bool := true
  vfl : Nat := 0
  lowRun : Nat := 0
  lowSince : Option Nat := none
  okSince : Option Nat := none
  ok18Since : Option Nat := none
  /-- debounced values of the last accepted frame before substitution, for hold-last (R391) -/
  hold : BitVec 32 := 0
  deriving DecidableEq, Repr

/-! ### CAN (chapter 15) -/

/-- A mailbox: 0 empty, 1 pending, 2 transmitting, 3 DONE, 4 ABORTED, 5 ERROR; its record words are registers. -/
structure Mbx where
  st : Nat := 0
  abortReq : Bool := false
  /-- module time of the start of frame of the transmission under way -/
  sof : Word64 := 0
  deriving DecidableEq, Repr

/-- A frame record with its time stamp (R407). -/
structure CanRec where
  id : Word
  ctrl : Word
  ts : Word64
  data : List Byte
  deriving DecidableEq, Repr

/-- A high-priority buffer (R408). -/
structure Hpb where
  primary : Option CanRec := none
  shadow : Option CanRec := none
  full : Bool := false
  ovr : Nat := 0
  deriving DecidableEq, Repr

/-- A CAN controller. `state` 0 active, 1 passive, 2 bus-off, 3 off. -/
structure Can where
  state : Nat := 3
  joined : Bool := false
  tec : Nat := 0
  recc : Nat := 0
  lec : Nat := 0
  lecData : Bool := false
  boffWait : Bool := false
  /-- since when the controller waits for recessive bits: to join, or to recover from bus-off -/
  since : Nat := 0
  tool : Bool := false
  abdState : Nat := 0
  abdRate : Nat := 0
  tmin : Nat := 0
  abdCands : List Nat := []
  boff : Nat := 0
  passive : Nat := 0
  mbx : Tab Mbx := []
  hpb : Tab Hpb := []
  rxCnt : Word := 0
  txCnt : Nat := 0
  bad : Nat := 0
  res : Code := .ok
  tdcv : Nat := 0
  deriving DecidableEq, Repr

/-! ### Network and time (chapter 16) -/

/-- A frame that waits for egress: its queue, its bytes, the port on which it arrived and the module time of that. -/
structure QueuedFrame where
  q : Nat
  bytes : List Byte
  ingress : Nat
  at_ : Word64
  deriving DecidableEq, Repr

/-- A NET port. -/
structure NetPort where
  link : Bool := false
  negFail : Bool := false
  mstr : Bool := false
  ldown : Nat := 0
  /-- the last 8 delay exchanges in ns, their mean, and the instant of the last -/
  dlys : List Int := []
  dly : Option Int := none
  lastPd : Option Nat := none
  pdSeq : BitVec 16 := 0
  rx : Nat := 0
  drop : Nat := 0
  /-- frames that wait for egress, in order of arrival; bytes left of the one being sent -/
  frames : List QueuedFrame := []
  sending : Nat := 0
  xofs : Int := 0
  /-- an offset of the pair that the cross-check forms has come through this port -/
  xNew : Bool := false
  deriving DecidableEq, Repr

/-- The switch's address table entry. -/
structure Fdb where
  mac : Word64
  port : Nat
  at_ : Nat
  deriving DecidableEq, Repr

/-- A scheduler entry (R432). -/
structure Sched where
  win : Win
  type : Nat
  tgt : Nat
  time : Word64
  val : Word
  deriving DecidableEq, Repr

/-- A clock whose Announce messages arrive on a port: what the last one showed, when it came, and whether the clock is
qualified. -/
structure Master where
  port : Nat
  ann : Announce
  seen : Nat
  qual : Bool := false
  deriving DecidableEq, Repr

/-- The correction that a two-step Sync has left for its Follow_Up at an egress port (R422). -/
structure PtpRes where
  key : Nat × Nat × Nat
  port : Nat
  ns : Int
  deriving DecidableEq, Repr

/-- The network and time unit. `rate` is the servo's correction in ppb, `frac` its carry in 10⁻⁶ ns. -/
structure Tim where
  now : Word64 := 0
  rate : Int := 0
  frac : Int := 0
  state : Nat := 0
  epc : Byte := 0
  refused : Bool := false
  pend : Int := 0
  ofs : Int := 0
  dlyHold : Option Nat := none
  port : Nat := 0
  syncBoth : Bool := false
  suspect : Bool := false
  xRun : Nat := 0
  xOkRun : Nat := 0
  lockRun : Nat := 0
  /-- the clocks heard, the one selected, and the best of the other port -/
  foreign : List Master := []
  master : Option Master := none
  other : Option Master := none
  ptpRes : List PtpRes := []
  /-- last Announce and Sync sent as master -/
  sentAt : Option Nat := none
  res : Code := .ok
  stepNext : Option (Int × Option Win) := none
  sched : Tab (Option Sched) := []
  ports : Tab NetPort := []
  fdb : List Fdb := []
  netRes : Code := .ok
  txSeq : BitVec 16 := 0
  deriving DecidableEq, Repr

/-! ### Host windows and rings (chapter 17) -/

/-- A ring (R47, R48, R52); base and depth are registers. -/
structure Ring where
  head : Word := 0
  tail : Word := 0
  seq : Word := 0
  overflow : Bool := false
  gap : Bool := false
  drop : Nat := 0
  waiting : List (List Byte) := []
  deriving DecidableEq, Repr

/-- A window's own state. -/
structure Wnd where
  lastRes : Code := .ok
  lastAddr : Word := 0
  ev : Word := 0
  dspRes : Code := .ok
  reqRes : Code := .ok
  sRes : Code := .ok
  sEntry : Nat := 0
  latch : Tab (Option Word) := []
  reader : Reader := {}
  conn : Bool := false
  lastMsg : Nat := 0
  evSent : Word := 0
  evSentAt : Option Nat := none
  reply : List Word := []
  replyRes : Code := .ok
  deriving DecidableEq, Repr

/-- The host windows and ring manager. -/
structure Hst where
  wins : Tab Wnd := []
  rings : Tab Ring := []
  owner : Win := 0
  dspReq : Option (Win × Nat) := none
  qCrcA : Nat := 0
  qProtoA : Nat := 0
  qCrcB : Nat := 0
  qProtoB : Nat := 0
  usbErr : Nat := 0
  /-- the last transaction of each QSPI port, and whether a host has configured the USB port -/
  qUseA : Option Nat := none
  qUseB : Option Nat := none
  usbCfg : Bool := false
  /-- the instants from which HRDYA and HRDYB are high again (R446) -/
  hrdyA : Nat := 0
  hrdyB : Nat := 0
  deriving DecidableEq, Repr

/-! ### Pairing, relay and panel (chapters 19 to 21) -/

/-- The pair link and lease. `ctr` is the lease counter in 10 µs; `pIdle` and `pPrevIdle` say of the partner's last two
frames that they showed HOLDS and CLAIMING clear. -/
structure Par where
  strapB : Bool := false
  ctr : Nat := 0
  ctrAcc : Nat := 0
  /-- the counter has run down and LEASE_EXPIRY has not acted on it -/
  expPend : Bool := false
  term : Word := 0
  seq : Nat := 0
  rxSeq : Option Nat := none
  /-- SEQ and TERM of the last RENEW of the hold (R484) -/
  renewSeq : Option (Nat × Word) := none
  renewAt : Option Nat := none
  claimSeq : Option Nat := none
  claimTerm : Word := 0
  claimAt : Option Nat := none
  claimLink : Bool := false
  claimWit : Bool := false
  conflict : Bool := false
  linkUp : Bool := false
  lastRx : Option Nat := none
  safStart : Nat := 0
  pReady : Bool := false
  pHolds : Bool := false
  pIdle : Bool := false
  pPrevIdle : Bool := false
  pNotReadySince : Option Nat := none
  lastGrant : Nat := 0
  take : Nat := 0
  loss : Nat := 0
  crc : Nat := 0
  foreign : Nat := 0
  heldOph : Word := 0
  untested : BitVec 4 := 0
  deferredAt : Option Nat := none
  swapAt : Option Nat := none
  swapTerm : Word := 0
  res : Code := .ok
  lastTx : Option Nat := none
  deriving DecidableEq, Repr

/-- The relay's receive session (R497 to R501). -/
structure RxSess where
  state : Nat := 0
  port : Nat := 0
  session : Nat := 0
  seq : Word := 0
  total : Nat := 0
  next : Nat := 0
  frags : Tab (List Byte) := []
  blockCrc : Word := 0
  firstAt : Option Nat := none
  naks : Nat := 0
  /-- the last ACK of the 10 ms (R498) -/
  lastAck : Nat := 0
  /-- the block beyond the expected one that arrives, and its last fragment -/
  beyond : Option (Nat × Nat) := none
  lastData : Nat := 0
  keySlot : Nat := 0
  deriving DecidableEq, Repr

/-- A transmit session on a NET port (R498, R499). -/
structure TxSess where
  session : Nat
  fromRunning : Bool
  total : Nat
  keySlot : Nat
  seq : Word
  accepted : Bool
  acked : Nat
  limit : Nat
  sent : Nat
  offers : Nat
  offeredAt : Nat
  resends : Nat
  lastAckAt : Nat
  forwarded : Bool
  deriving DecidableEq, Repr

/-- The update relay and confirmation window. `cleft` counts Ember ticks. -/
structure Upd where
  rx : RxSess := {}
  tx : Tab (Option TxSess) := []
  vres : Code := .ok
  res : Code := .ok
  rxSeq : Word := 0
  frameErr : Nat := 0
  nakCnt : Nat := 0
  confRun : Bool := false
  confirmed : Bool := false
  fbPending : Bool := false
  fellBack : Bool := false
  fbFail : Bool := false
  cleft : Nat := 0
  /-- an UPD ACTIVATE is on its way to CONFIGURE (R504) -/
  activating : Bool := false
  /-- the window has expired and the fallback has not ended; retained (R506) -/
  fbDue : Bool := false
  /-- the fallback's verification has passed -/
  fbGo : Bool := false
  /-- frames that wait for the MAC behind ring 43: NET port and Ethernet frame (R495) -/
  out : List (Nat × List Byte) := []
  deriving DecidableEq, Repr

/-- The front panel. Keys UP, DOWN, ENTER, ACK. -/
structure Pnl where
  touched : Tab (Option Nat) := []
  stuck : BitVec 4 := 0
  consumed : BitVec 4 := 0
  withOther : Bool := false
  bothSince : Option Nat := none
  screen : Nat := 0
  menu : Option Nat := none
  backlight : Bool := false
  lastTouch : Nat := 0
  lampUntil : Option Nat := none
  outcome : Option (Code × Nat) := none
  ejState : Nat := 0
  ejAt : Nat := 0
  ejects : Nat := 0
  plost : Nat := 0
  deriving DecidableEq, Repr

/-- The whole module and the queue of commands waiting. -/
structure State where
  pending : List Instr
  variant : Variant
  now : Nat
  /-- a counter that makes each free value of `Config` a fresh one -/
  fresh : Nat
  regs : Tab Word
  shadow : Tab (Option Word)
  frozen : Tab (Option Word)
  /-- retained register values that a host wrote (R543) -/
  kept : Tab (Option Word)
  mem : Tab Byte
  arb : Arb
  flash : Flash
  /-- the last frame sent on each interface -/
  tx : Tab (List Byte)
  kln : Kln
  crd : Crd
  emb : Emb
  chn : Chn
  mea : Mea
  trc : Trc
  est : Est
  imp : Imp
  ctl : Ctl
  hrp : Tab Pwm
  thm : Thm
  saf : Saf
  lgc : Lgc
  fio : Fio
  can : Tab Can
  tim : Tim
  hst : Hst
  recd : RecS
  par : Par
  upd : Upd
  pnl : Pnl
  deriving DecidableEq, Repr

/-- The module before its first cold start: dark, in EMBER, every register at its reset value, no Cord in any slot,
no command waiting. Values the spec does not give are named in notes/assumptions/2.md and 3.md. -/
def State.reset : State where
  pending := []
  variant := .s4
  now := 0
  fresh := 0
  regs := []
  shadow := []
  frozen := []
  kept := []
  mem := []
  arb := {}
  flash := {}
  tx := []
  kln := {}
  crd := {}
  emb := {}
  chn := {}
  mea := {}
  trc := {}
  est := {}
  imp := {}
  ctl := {}
  hrp := []
  thm := {}
  saf := {}
  lgc := {}
  fio := {}
  can := []
  tim := {}
  hst := {}
  recd := {}
  par := {}
  upd := {}
  pnl := {}

end Sys2Proof.Machine
end

