-- ==== Sys2Proof/Machine/Reg.lean ====
section
/-!
DEFINITION. What a register is (R10 to R12, R94 to R101): the form in which every chapter's field tables are written
down, and the storage of register words in `State`.
-/

namespace Sys2Proof.Machine

/-- A word of 32 bits from a number. -/
def wd (n : Nat) : Word := BitVec.ofNat 32 n

/-- A family of registers of one layout: an address base with the strides and counts of its instances, the masks of
its writable fields by class (R12), its reset value, the right a write needs (R439), its commit group (R95), the fitted
instance it belongs to (R5) and the range check of R101 on the word that a write would leave. -/
structure RegFam where
  base : Nat
  dims : List (Nat × Nat) := []
  live : Nat := 0
  shadow : Nat := 0
  frozen : Nat := 0
  /-- fields that keep their value across cold start (R543) -/
  kept : Nat := 0
  reset : List Nat → Nat := fun _ => 0
  right : Nat := 2
  perWin : Bool := false
  group : List Nat → Nat × Nat := fun _ => (0, 0)
  /-- kind and instance for R5 and R93: kind 0 always fitted -/
  part : List Nat → Nat × Nat := fun _ => (0, 0)
  check : State → List Nat → Nat → Code := fun _ _ _ => .ok

/-- The writable bits. -/
def RegFam.rw (f : RegFam) : Nat := f.live.lor (f.shadow.lor f.frozen)

/-- Offset of an instance. -/
def offOf : List (Nat × Nat) → List Nat → Nat
  | [], _ => 0
  | (st, _) :: t, [] => offOf t [] + 0 * st
  | (st, _) :: t, i :: ix => st * i + offOf t ix

/-- The window address of an instance. -/
def RegFam.addr (f : RegFam) (ix : List Nat) : Nat := f.base + offOf f.dims ix

/-- The instance that an offset selects, if any. -/
def ixOf : List (Nat × Nat) → Nat → Option (List Nat)
  | [], off => if off = 0 then some [] else none
  | (st, n) :: t, off =>
    if off / st < n then
      match ixOf t (off % st) with
      | some ix => some (off / st :: ix)
      | none => none
    else none

/-- The instance of a family at a window address. -/
def RegFam.ixAt (f : RegFam) (a : Nat) : Option (List Nat) := if a < f.base then none else ixOf f.dims (a - f.base)

/-- The family and instance at an address in a list of families. -/
def famIn : List RegFam → Nat → Option (RegFam × List Nat)
  | [], _ => none
  | f :: t, a =>
    match f.ixAt a with
    | some ix => some (f, ix)
    | none => famIn t a

/-- Storage key of a register, per window for the registers of which each window has its own. -/
def regKey (f : RegFam) (w : Nat) (ix : List Nat) : Nat := if f.perWin then f.addr ix + (w + 1) * 0x100000000 else f.addr ix

/-- The committed value of a register. -/
def rd (s : State) (f : RegFam) (ix : List Nat) : Nat := (tget (wd (f.reset ix)) s.regs (regKey f 0 ix)).toNat

/-- The committed value of a register of which each window has its own. -/
def rdw (s : State) (f : RegFam) (w : Nat) (ix : List Nat) : Nat := (tget (wd (f.reset ix)) s.regs (regKey f w ix)).toNat

/-- A field of a committed register. -/
def rdf (s : State) (f : RegFam) (ix : List Nat) (hi lo : Nat) : Nat := fld (rd s f ix) hi lo

/-- The shadow value of a register (R95): its shadow copy, or the committed value where nothing is pending. -/
def rdShadow (s : State) (f : RegFam) (w : Nat) (ix : List Nat) : Nat :=
  match tget none s.shadow (regKey f w ix) with
  | some v => v.toNat
  | none => rdw s f w ix

/-- The configured value of a register (R99): the word held in the Kiln configuration memory. -/
def rdFrozen (s : State) (f : RegFam) (w : Nat) (ix : List Nat) : Nat :=
  match tget none s.frozen (regKey f w ix) with
  | some v => v.toNat
  | none => rdw s f w ix

/-- The word a write leaves, by field class, before commit: fields of each class from where that class keeps them. -/
def rdPending (s : State) (f : RegFam) (w : Nat) (ix : List Nat) : Nat :=
  ((rdw s f w ix).land f.live).lor (((rdShadow s f w ix).land f.shadow).lor ((rdFrozen s f w ix).land f.frozen))

/-- Set the committed value. -/
def wr (s : State) (f : RegFam) (w : Nat) (ix : List Nat) (v : Nat) : State :=
  { s with regs := tset (wd (f.reset ix)) s.regs (regKey f w ix) (wd v) }

/-- Replace a field's bits in a word. -/
def putBits (old m v : Nat) : Nat := (old.land (Nat.xor 0xFFFFFFFF m)).lor (v.land m)

/-- True when a field value lies in [lo, hi]. -/
def inR (v lo hi : Nat) : Bool := decide (lo ≤ v) && decide (v ≤ hi)

/-- RANGE unless the condition holds (R101). -/
def rng (b : Bool) : Code := if b then .ok else .range

end Sys2Proof.Machine
end

