-- ==== Sys2Proof/Machine/RegDefs.lean ====
section
/-!
DEFINITION. Every register that a host writes, as the field tables of the chapters give it: address, writable fields
by class, reset value, right, commit group and the range rules of R101. Registers that only the module writes are in
the `View` files beside each block.
-/

namespace Sys2Proof.Machine

/-- The value of a shadowed register before commit, by address and reset value (R101): its shadow copy where one
waits. -/
def pendAt (s : State) (a reset : Nat) : Nat :=
  match tget none s.shadow a with
  | some v => v.toNat
  | none => (tget (wd reset) s.regs a).toNat

/-- The configured value of a frozen register, by address and reset value (R99, R101). -/
def frzAt (s : State) (a reset : Nat) : Nat :=
  match tget none s.frozen a with
  | some v => v.toNat
  | none => (tget (wd reset) s.regs a).toNat

/-! ### EMB (chapter 2) -/

/-- EMB_WAKE_EN: EN[4:0], retained (R65). -/
def embWakeEn : RegFam := { base := 0x20010, frozen := mask 4 0, kept := mask 4 0, reset := fun _ => 0x1F }

/-- EMB_TIMER: PERIOD[23:0], 0 or 60 to 86,400, retained. -/
def embTimer : RegFam :=
  { base := 0x20018, live := mask 23 0, kept := mask 23 0, check := fun _ _ v => rng (v == 0 || inR v 60 86400) }

/-- EMB_DRW_I: I_WAKE and I_DROWSE in 10 mA; I_WAKE above I_DROWSE (R70). -/
def embDrwI : RegFam :=
  { base := 0x2001C, shadow := 0xFFFFFFFF, reset := fun _ => place 200 31 16 + 100, group := fun _ => (2, 0)
    check := fun _ _ v =>
      rng (inR (fld v 31 16) 20 2000 && inR (fld v 15 0) 10 1000 && decide (fld v 31 16 > fld v 15 0)) }

/-- EMB_DRW_T: EN and T_DROWSE in s. -/
def embDrwT : RegFam :=
  { base := 0x20020, shadow := mask 31 31 + mask 15 0, reset := fun _ => 2 ^ 31 + 60, group := fun _ => (2, 0)
    check := fun _ _ v => rng (inR (fld v 15 0) 10 3600) }

/-- EMB_RECOV: T_RECOV in s. -/
def embRecov : RegFam :=
  { base := 0x20024, frozen := mask 15 0, reset := fun _ => 10, check := fun _ _ v => rng (inR (fld v 15 0) 1 600) }

/-! ### CRD and KLN (chapter 3) -/

/-- CRD_XFER_OFF: BLOCK[31:12] (0 to 8191). -/
def crdXferOff : RegFam := { base := 0x30008, live := mask 31 12, check := fun _ _ v => rng (inR (fld v 31 12) 0 8191) }

/-- CRD_XFER_LEN: LEN[12:0], 4 to 4096, a multiple of 4. -/
def crdXferLen : RegFam :=
  { base := 0x3000C, live := mask 12 0, reset := fun _ => 4096
    check := fun _ _ v => rng (inR (fld v 12 0) 4 4096 && fld v 1 0 == 0) }

/-- CRD_STAGE_BUF: the 4 KB staging buffer, written by the host and read by WRITE_BLOCK. -/
def crdStageBuf : RegFam := { base := 0x38000, dims := [(4, 1024)], live := 0xFFFFFFFF }

/-- KLN_VIEW: SHADOW[3:0] (R96). -/
def klnView : RegFam := { base := 0x10018, live := mask 3 0 }

/-- KLN_XOVR_SEL: ROUTE[9:2] and CONS[1:0]. -/
def klnXovrSel : RegFam := { base := 0x10030, live := mask 9 0 }

/-! ### CHN and SWP (chapters 4 and 5) -/

/-- CHN_LCFGk. -/
def chnLcfg : RegFam :=
  { base := 0x40100, dims := [(0x40, 4)], frozen := mask 31 31 + mask 21 16, shadow := mask 27 24 + mask 15 0
    reset := fun _ => place 2 27 24 + 60, group := fun ix => (4, ix.headD 0), part := fun ix => (4, ix.headD 0)
    check := fun _ _ v =>
      rng (inR (fld v 27 24) 0 7 && inR (fld v 21 16) 0 32 && (fld v 15 0 == 0 || inR (fld v 15 0) 10 3600)) }

/-- CHN_LTIMk: RD_DLY in µs and LEAD in 25 ns; RD_DLY at least LEAD + 300 µs. -/
def chnLtim : RegFam :=
  { base := 0x40104, dims := [(0x40, 4)], shadow := 0xFFFFFFFF
    reset := fun _ => place 400 31 16 + 2000, group := fun ix => (4, ix.headD 0), part := fun ix => (4, ix.headD 0)
    check := fun _ _ v =>
      rng (inR (fld v 31 16) 100 5000 && inR (fld v 15 0) 1760 40000
        && decide (fld v 31 16 * 1000 ≥ fld v 15 0 * 25 + 300000)) }

/-- SWP_LCFGk. -/
def swpLcfg : RegFam :=
  { base := 0x50100, dims := [(0x40, 4)], shadow := mask 31 12 + mask 8 0
    reset := fun _ => place 20 31 22 + place 100 21 12, group := fun ix => (5, ix.headD 0)
    part := fun ix => (4, ix.headD 0)
    check := fun _ _ v =>
      rng (inR (fld v 31 22) 8 1000 && inR (fld v 21 12) 20 1000 && inR (fld v 8 0) 0 500) }

/-- SWP_OWk. -/
def swpOw : RegFam :=
  { base := 0x50104, dims := [(0x40, 4)], shadow := 0xFFFFFFFF
    reset := fun _ => place 200 31 22 + place 150 21 12 + 60, group := fun ix => (5, ix.headD 0)
    part := fun ix => (4, ix.headD 0)
    check := fun _ _ v =>
      rng (inR (fld v 31 22) 50 1000 && inR (fld v 21 12) 20 1000
        && (fld v 11 0 == 0 || inR (fld v 11 0) 10 1440)) }

/-- SWP_VLIMk: ALM_OV and ALM_UV in 100 µV, ALM_UV below ALM_OV. -/
def swpVlim : RegFam :=
  { base := 0x50108, dims := [(0x40, 4)], shadow := 0xFFFFFFFF
    reset := fun _ => place 36500 31 16 + 25000, group := fun ix => (5, ix.headD 0)
    part := fun ix => (4, ix.headD 0)
    check := fun _ _ v =>
      rng (inR (fld v 31 16) 10000 50000 && inR (fld v 15 0) 10000 50000 && decide (fld v 15 0 < fld v 31 16)) }

/-- True when a signed 16-bit field lies in [lo, hi]. -/
def inS16 (v : Nat) (lo hi : Int) : Bool := decide (lo ≤ sgn 16 v) && decide (sgn 16 v ≤ hi)

/-- SWP_TLIMk: ALM_OT and ALM_UT in 1/16 °C. -/
def swpTlim : RegFam :=
  { base := 0x5010C, dims := [(0x40, 4)], shadow := 0xFFFFFFFF
    reset := fun _ => place 960 31 16 + 0xFEC0, group := fun ix => (5, ix.headD 0)
    part := fun ix => (4, ix.headD 0)
    check := fun _ _ v => rng (inS16 (fld v 31 16) (-640) 2000 && inS16 (fld v 15 0) (-640) 2000) }

/-- SWP_BCFGk. -/
def swpBcfg : RegFam :=
  { base := 0x50110, dims := [(0x40, 4)], shadow := mask 31 30 + mask 23 16 + mask 11 0
    reset := fun _ => place 1 31 30 + place 10 23 16 + 60, group := fun ix => (5, ix.headD 0)
    part := fun ix => (4, ix.headD 0)
    check := fun _ _ v => rng (inR (fld v 23 16) 1 200 && inR (fld v 11 0) 10 3600) }

/-- SWP_BAUTOk. -/
def swpBauto : RegFam :=
  { base := 0x50114, dims := [(0x40, 4)], shadow := 0xFFFFFFFF
    reset := fun _ => place 14400 31 16 + 880, group := fun ix => (5, ix.headD 0), part := fun ix => (4, ix.headD 0)
    check := fun _ _ v => rng (inR (fld v 31 16) 600 65535 && inR (fld v 15 0) 0 1280) }

/-- SWP_STKk: STK_TOL in mV. -/
def swpStk : RegFam :=
  { base := 0x50118, dims := [(0x40, 4)], shadow := mask 15 0, reset := fun _ => 50
    group := fun ix => (5, ix.headD 0), part := fun ix => (4, ix.headD 0)
    check := fun _ _ v => rng (inR (fld v 15 0) 10 500) }

/-- SWP_CMASKk,p. -/
def swpCmask : RegFam :=
  { base := 0x51000, dims := [(0x80, 4), (4, 32)], frozen := mask 19 0, reset := fun _ => 0xFFFFF
    part := fun ix => (4, ix.headD 0) }

/-- SWP_BDEMk,p,i: demands of two cells in s. -/
def swpBdem : RegFam :=
  { base := 0x53000, dims := [(0x400, 4), (0x20, 32), (4, 8)], shadow := 0xFFFFFFFF
    group := fun ix => (5, ix.headD 0), part := fun ix => (4, ix.headD 0)
    check := fun _ _ v => rng (inR (fld v 31 16) 0 3600 && inR (fld v 15 0) 0 3600) }

/-! ### MEA and TRC (chapters 6 and 7) -/

/-- MEA_ROTCFG. -/
def meaRotcfg : RegFam :=
  { base := 0x6001C, live := mask 31 31 + mask 23 0, reset := fun _ => 2 ^ 31 + place 20 23 16 + 100
    check := fun _ _ v => rng (inR (fld v 23 16) 1 255 && inR (fld v 15 0) 10 1000) }

/-- MEA_IVCFGk. -/
def meaIvcfg : RegFam :=
  { base := 0x60108, dims := [(0x10, 4)], shadow := mask 31 12 + mask 6 0
    reset := fun _ => place 100 31 22 + place 50 21 12 + 10, group := fun ix => (6, 3 * ix.headD 0)
    part := fun ix => (6, 3 * ix.headD 0)
    check := fun _ _ v =>
      rng (inR (fld v 31 22) 10 1000 && inR (fld v 21 12) 5 500 && inR (fld v 6 0) 1 100) }

/-- MEA_CHCFGc: EN and SCALE; its reset is set by the Structure billet, 0 without one. -/
def meaChcfg : RegFam :=
  { base := 0x60300, dims := [(4, 24)], frozen := mask 31 31 + mask 23 0, right := 0x40
    part := fun ix => (6, ix.headD 0) }

/-- MEA_ISOCFG. -/
def meaIsocfg : RegFam := { base := 0x60400, shadow := mask 31 30 + mask 9 8, group := fun _ => (6, 20) }

/-- MEA_ISOTHR: ISO_WARN and ISO_ALARM in kΩ, ISO_ALARM at most ISO_WARN (R195). -/
def meaIsothr : RegFam :=
  { base := 0x60404, shadow := 0xFFFFFFFF, reset := fun _ => place 400 31 16 + 200, group := fun _ => (6, 20)
    check := fun _ _ v =>
      rng (inR (fld v 31 16) 10 10000 && inR (fld v 15 0) 10 10000 && decide (fld v 15 0 ≤ fld v 31 16)) }

/-- TRC_J5CFG: RANGE, T_INT and TOL. TOL resets to 150 on -4M and 1000 on the others. -/
def trcJ5cfg : RegFam :=
  { base := 0x7000C, live := mask 31 31 + mask 25 0, reset := fun _ => place 60 25 16 + 1000, right := 0x40
    check := fun _ _ v => rng (inR (fld v 25 16) 10 600 && inR (fld v 15 0) 10 50000) }

/-- TRC_J5S. -/
def trcJ5s : RegFam := { base := 0x70010, live := 0xFFFFFFFF, right := 0x40 }

/-- TRC_UREF. -/
def trcUref : RegFam := { base := 0x70014, live := mask 23 0, right := 0x40 }

/-- TRC_CALID. -/
def trcCalid : RegFam := { base := 0x70018, live := 0xFFFFFFFF, right := 0x40 }

/-! ### EST and IMP (chapters 8 and 9) -/

/-- EST_VANCk: V_FULL and V_EMPTY in 100 µV, V_EMPTY below V_FULL (R221). -/
def estVanc : RegFam :=
  { base := 0x80124, dims := [(0x40, 4)], shadow := 0xFFFFFFFF
    reset := fun _ => place 35500 31 16 + 28000, group := fun ix => (8, ix.headD 0), part := fun ix => (8, ix.headD 0)
    check := fun _ _ v =>
      rng (inR (fld v 31 16) 20000 45000 && inR (fld v 15 0) 15000 35000 && decide (fld v 15 0 < fld v 31 16)) }

/-- EST_TANCk: T_FULL and T_ANCHOR in s. -/
def estTanc : RegFam :=
  { base := 0x80128, dims := [(0x40, 4)], shadow := mask 31 8
    reset := fun _ => place 60 31 20 + place 30 19 8, group := fun ix => (8, ix.headD 0)
    part := fun ix => (8, ix.headD 0)
    check := fun _ _ v => rng (inR (fld v 31 20) 10 3600 && inR (fld v 19 8) 10 3600) }

/-- EST_IANCk. -/
def estIanc : RegFam :=
  { base := 0x8012C, dims := [(0x40, 4)], shadow := 0xFFFFFFFF
    reset := fun _ => place 20 31 24 + place 10 23 16 + 50, group := fun ix => (8, ix.headD 0)
    part := fun ix => (8, ix.headD 0)
    check := fun _ _ v =>
      rng (inR (fld v 31 24) 5 200 && inR (fld v 23 16) 2 100 && inR (fld v 15 0) 0 500) }

/-- EST_LRNk: K and LRN_TOL. -/
def estLrn : RegFam :=
  { base := 0x80130, dims := [(0x40, 4)], shadow := mask 31 16
    reset := fun _ => place 4 31 24 + place 10 23 16, group := fun ix => (8, ix.headD 0)
    part := fun ix => (8, ix.headD 0)
    check := fun _ _ v => rng (inR (fld v 31 24) 1 64 && inR (fld v 23 16) 1 25) }

/-- EST_LTMPk: T_LRN_MAX above T_LRN_MIN (R221). -/
def estLtmp : RegFam :=
  { base := 0x80134, dims := [(0x40, 4)], shadow := 0xFFFFFFFF
    reset := fun _ => place 560 31 16 + 240, group := fun ix => (8, ix.headD 0), part := fun ix => (8, ix.headD 0)
    check := fun _ _ v =>
      rng (inS16 (fld v 31 16) (-320) 960 && inS16 (fld v 15 0) (-320) 960
        && decide (sgn 16 (fld v 15 0) < sgn 16 (fld v 31 16))) }

/-- IMP_CFGk. -/
def impCfg : RegFam :=
  { base := 0x90104, dims := [(0x40, 4)], shadow := 0xFFFFFFFF
    reset := fun _ => place 400 31 20 + place 1 19 16 + place 4 15 8 + 4, group := fun ix => (9, ix.headD 0)
    part := fun ix => (4, ix.headD 0)
    check := fun _ _ v => rng (inR (fld v 31 20) 10 2000 && inR (fld v 15 8) 1 255 && inR (fld v 7 0) 1 64) }

/-- IMP_TIMk: T_PMIN in ms and IMP_PER in h. -/
def impTim : RegFam :=
  { base := 0x90108, dims := [(0x40, 4)], shadow := 0xFFFFFFFF
    reset := fun _ => place 1000 31 16 + 24, group := fun ix => (9, ix.headD 0), part := fun ix => (4, ix.headD 0)
    check := fun _ _ v => rng (inR (fld v 31 16) 100 10000 && inR (fld v 15 0) 0 720) }

/-- IMP_LIMk. -/
def impLim : RegFam :=
  { base := 0x9010C, dims := [(0x40, 4)], shadow := 0xFFFFFFFF
    reset := fun _ => place 50 31 22 + place 50 21 12 + 50, group := fun ix => (9, ix.headD 0)
    part := fun ix => (4, ix.headD 0)
    check := fun _ _ v =>
      rng (inR (fld v 31 22) 0 500 && inR (fld v 21 12) 10 500 && inR (fld v 11 0) 5 200) }

/-- IMP_DSPk: PAUSE_MAX in s and DSP_TOL in 100 mA. -/
def impDsp : RegFam :=
  { base := 0x90110, dims := [(0x40, 4)], shadow := 0xFFFFFFFF
    reset := fun _ => place 600 31 16 + 100, group := fun ix => (9, ix.headD 0), part := fun ix => (4, ix.headD 0)
    check := fun _ _ v => rng (inR (fld v 31 16) 10 3600 && inR (fld v 15 0) 10 1000) }

/-- IMP_TBk: three band limits in °C, strictly ascending. -/
def impTb : RegFam :=
  { base := 0x90114, dims := [(0x40, 4)], shadow := mask 23 0
    reset := fun _ => place 35 23 16 + place 25 15 8 + 15, group := fun ix => (9, ix.headD 0)
    part := fun ix => (4, ix.headD 0)
    check := fun _ _ v =>
      let b (i : Nat) : Int := sgn 8 (fld v (8 * i + 7) (8 * i))
      rng (decide (-40 ≤ b 0) && decide (b 0 < b 1) && decide (b 1 < b 2) && decide (b 2 ≤ 80)) }

/-- IMP_TZk. -/
def impTz : RegFam :=
  { base := 0x90118, dims := [(0x40, 4)], shadow := 0xFFFFFFFF
    reset := fun _ => place 60 31 20 + place 5 19 12 + 500, group := fun ix => (9, ix.headD 0)
    part := fun ix => (4, ix.headD 0)
    check := fun _ _ v =>
      rng ((fld v 31 20 == 0 || inR (fld v 31 20) 10 3600) && inR (fld v 19 12) 1 20 && inR (fld v 11 0) 100 4000) }

/-- IMP_TZFk: TZ_FW. -/
def impTzf : RegFam :=
  { base := 0x9011C, dims := [(0x40, 4)], shadow := 0xFFFFFFFF, reset := fun _ => 0x0C800000
    group := fun ix => (9, ix.headD 0), part := fun ix => (4, ix.headD 0)
    check := fun _ _ v => rng (inR v 52429 2097152000) }

/-- FW of *Table: Default frequency points* (R244), round(f × 2^20). -/
def fwDefault (i : Nat) : Nat :=
  let f : Nat := [1000, 2310, 5337, 12330, 28480, 65790, 152000, 351100, 811100, 1873820, 4329000, 10000000].getD i 0
  (f * 2 ^ 20 + 5000) / 10000

/-- IMP_FPTk,i: FW, 0 to disable the point. -/
def impFpt : RegFam :=
  { base := 0x91000, dims := [(0x40, 4), (4, 12)], shadow := 0xFFFFFFFF, reset := fun ix => fwDefault (ix.getD 1 0)
    group := fun ix => (9, ix.headD 0), part := fun ix => (4, ix.headD 0)
    check := fun _ _ v => rng (v == 0 || inR v 52429 2097152000) }

/-! ### CTL and HRP (chapter 10) -/

/-- CTL_CVCFGk. -/
def ctlCvcfg : RegFam :=
  { base := 0xA0100, dims := [(0x40, 4)], frozen := mask 31 31 + mask 29 24 + mask 21 16 + mask 13 8 + mask 5 0
    part := fun ix => (10, ix.headD 0) }

/-- CTL_CVMODEk: FORCE[31:30] is live and follows R282; the other fields need the configure right. The commit
instance of a converter register is that of its power context, which the fabric reads from CTL_CVCFGk. -/
def ctlCvmode : RegFam :=
  { base := 0xA0104, dims := [(0x40, 4)], live := mask 31 30, shadow := mask 29 29
    frozen := mask 28 27 + mask 23 16, group := fun ix => (10, 256 + ix.headD 0), part := fun ix => (10, ix.headD 0)
    check := fun s ix v =>
      rng (fld v 31 30 != 3 &&
        (!bitN v 29 || decide ((sgn 32 (tget 0 s.regs (0xA0108 + 0x40 * ix.headD 0)).toNat).natAbs ≤ 600000))) }

/-- CTL_DSPk: the dispatch setpoint (R280). -/
def ctlDsp : RegFam :=
  { base := 0xA0108, dims := [(0x40, 4)], live := 0xFFFFFFFF, right := 0, part := fun ix => (10, ix.headD 0)
    check := fun s ix v =>
      rng (decide ((sgn 32 v).natAbs ≤ if bitN (rdShadow s ctlCvmode 0 ix) 29 then 600000 else 1200000)) }

/-- CTL_ILIMk. -/
def ctlIlim : RegFam :=
  { base := 0xA010C, dims := [(0x40, 4)], shadow := 0xFFFFFFFF, reset := fun _ => place 4000 31 16 + 4000
    group := fun ix => (10, 256 + ix.headD 0), part := fun ix => (10, ix.headD 0)
    check := fun _ _ v => rng (inR (fld v 31 16) 0 6000 && inR (fld v 15 0) 0 6000) }

/-- CTL_VCVk: V_CV in mV; its reset value is in the Control billet, 0 without one. -/
def ctlVcv : RegFam :=
  { base := 0xA0110, dims := [(0x40, 4)], shadow := 0xFFFFFFFF, group := fun ix => (10, 256 + ix.headD 0)
    part := fun ix => (10, ix.headD 0), check := fun _ _ v => rng (inR v 0 2000000) }

/-- CTL_RAMPk: RAMP and HO_RATE in 10 mA/ms. -/
def ctlRamp : RegFam :=
  { base := 0xA0114, dims := [(0x40, 4)], shadow := 0xFFFFFFFF, reset := fun _ => place 200 31 16 + 100
    group := fun ix => (10, 256 + ix.headD 0), part := fun ix => (10, ix.headD 0)
    check := fun _ _ v => rng (inR (fld v 31 16) 1 10000 && inR (fld v 15 0) 1 10000) }

/-- CTL_HOMAXk. -/
def ctlHomax : RegFam :=
  { base := 0xA0118, dims := [(0x40, 4)], shadow := mask 15 0, reset := fun _ => 50
    group := fun ix => (10, 256 + ix.headD 0), part := fun ix => (10, ix.headD 0)
    check := fun _ _ v => rng (inR (fld v 15 0) 1 1000) }

/-- BUSY while the generator of the instance runs. -/
def genBusy (s : State) (ix : List Nat) : Bool := decide ((tget {} s.ctl.gens (ix.headD 0)).state = 1)

/-- CTL_GCFGg. -/
def ctlGcfg : RegFam :=
  { base := 0xA0200, dims := [(0x20, 4)]
    part := fun ix => (33, ix.headD 0), live := mask 31 28 + mask 21 16 + mask 11 0
    reset := fun _ => place 7 11 8 + 1, right := 8
    check := fun s ix v =>
      if fld v 29 28 = 3 || !inR (fld v 11 8) 7 15 || fld v 7 0 = 0 then .range
      else if genBusy s ix then .busy else .ok }

/-- CTL_GAMPg. -/
def ctlGamp : RegFam :=
  { base := 0xA0204, dims := [(0x20, 4)], part := fun ix => (33, ix.headD 0), live := mask 30 0, right := 8 }

/-- CTL_GF0g and CTL_GF1g, instance (g, 0) and (g, 1). -/
def ctlGf : RegFam :=
  { base := 0xA0208, dims := [(0x20, 4), (4, 2)], part := fun ix => (33, ix.headD 0), live := 0xFFFFFFFF, right := 8 }

/-- CTL_GDURg. -/
def ctlGdur : RegFam :=
  { base := 0xA0210, dims := [(0x20, 4)], part := fun ix => (33, ix.headD 0), live := 0xFFFFFFFF, right := 8 }

/-- BUSY while the capture channel of the instance is armed. -/
def capBusy (s : State) (ix : List Nat) : Bool := decide ((tget {} s.ctl.caps (ix.headD 0)).state = 1)

/-- CTL_CCFGc. -/
def ctlCcfg : RegFam :=
  { base := 0xA0300, dims := [(0x20, 4)]
    part := fun ix => (34, ix.headD 0), live := mask 31 30 + mask 26 24 + mask 21 16 + mask 8 0
    reset := fun _ => 1, right := 8
    check := fun s ix v => if !inR (fld v 8 0) 1 256 then .range else if capBusy s ix then .busy else .ok }

/-- CTL_CTRGc: TSRC and GSEL. -/
def ctlCtrg : RegFam :=
  { base := 0xA0304, dims := [(0x20, 4)]
    part := fun ix => (34, ix.headD 0), live := mask 31 28 + mask 25 24, right := 8
    check := fun _ _ v => rng (inR (fld v 31 28) 0 6) }

/-- CTL_CLVLc. -/
def ctlClvl : RegFam :=
  { base := 0xA0308, dims := [(0x20, 4)], part := fun ix => (34, ix.headD 0), live := 0xFFFFFFFF, right := 8 }

/-- CTL_CLENc: PRE and POST. -/
def ctlClen : RegFam :=
  { base := 0xA030C, dims := [(0x20, 4)]
    part := fun ix => (34, ix.headD 0), live := 0xFFFFFFFF, reset := fun _ => 16384, right := 8
    check := fun _ _ v => rng (decide (fld v 31 16 + fld v 15 0 ≤ 16384)) }

/-- CTL_CTT_LOc and CTL_CTT_HIc, instance (c, 0) and (c, 1). -/
def ctlCtt : RegFam :=
  { base := 0xA0310, dims := [(0x20, 4), (4, 2)], part := fun ix => (34, ix.headD 0), live := 0xFFFFFFFF, right := 8 }

/-- CTL_LCFGn. -/
def ctlLcfg : RegFam :=
  { base := 0xA1000, dims := [(0x40, 64)]
    part := fun ix => (32, ix.headD 0), frozen := mask 31 29 + mask 19 16 + mask 7 0, shadow := mask 28 27
    reset := fun _ => 2 ^ 27 + 1, group := fun ix => (10, ix.headD 0)
    check := fun _ _ v => rng (inR (fld v 7 0) 1 255) }

/-- True for a code of *Table: Source codes* (R267). -/
def srcOk (c : Nat) : Bool :=
  c == 0 || c == 1 || inR c 0x10 0x23 || inR c 0x40 0x7F || inR c 0x100 0x1FF

/-- CTL_LSRCn: SP, FB and FF source codes. -/
def ctlLsrc : RegFam :=
  { base := 0xA1004, dims := [(0x40, 64)], part := fun ix => (32, ix.headD 0), frozen := mask 29 0
    check := fun _ _ v => rng (srcOk (fld v 29 20) && srcOk (fld v 19 10) && srcOk (fld v 9 0)) }

/-- CTL_LSPn. -/
def ctlLsp : RegFam :=
  { base := 0xA1008, dims := [(0x40, 64)], part := fun ix => (32, ix.headD 0), live := 0xFFFFFFFF }

/-- The coefficient banks: instance (n, b, w) (R290). -/
def ctlBank : RegFam :=
  { base := 0xA4000, dims := [(0x80, 64), (0x40, 2), (4, 16)]
    part := fun ix => (32, ix.headD 0), live := 0xFFFFFFFF }

/-- HRP_CFGj. -/
def hrpCfg : RegFam :=
  { base := 0xB0100, dims := [(0x20, 16)], frozen := mask 31 31 + mask 29 28 + mask 19 16 + mask 13 8 + 1
    reset := fun _ => place 0x3F 13 8, part := fun ix => (11, ix.headD 0)
    check := fun _ _ v => rng (fld v 29 28 != 3) }

/-- The divisor DIV × PER of each enabled context's rate, in 125 ps, with `per` for channel j's period: the rate is
8 × 10^9 over it, in Hz (R265). -/
def ctxPeriods (s : State) (per : Nat → Nat) : List Nat :=
  ((List.range 64).filter fun n => bitN (rd s ctlLcfg [n]) 31).map fun n =>
    rdf s ctlLcfg [n] 7 0 * per (rdf s ctlLcfg [n] 19 16)

/-- No context above 100 kHz, and at most 6.25 million executions a second in all (R265). -/
def ratesOk (ds : List Nat) : Bool :=
  ds.all (fun d => decide (d ≥ 80000)) && decide ((ds.map fun d => 8000000000 / max 1 d).foldl (· + ·) 0 ≤ 6250000)

/-- HRP_PERj: the range of R274, above the channel's PHS, and the rate limits of R265 over every enabled context. -/
def hrpPer : RegFam :=
  { base := 0xB0104, dims := [(0x20, 16)], shadow := mask 22 0, reset := fun _ => 160000
    group := fun ix => (11, ix.headD 0), part := fun ix => (11, ix.headD 0)
    check := fun s ix v =>
      let per (j : Nat) : Nat :=
        if j = ix.headD 0 then fld v 22 0
        else match tget none s.shadow (0xB0104 + 0x20 * j) with
          | some u => u.toNat
          | none => (tget (wd 160000) s.regs (0xB0104 + 0x20 * j)).toNat
      rng (inR (fld v 22 0) 80000 8000000 && ratesOk (ctxPeriods s per) &&
        decide (fld (pendAt s (0xB0108 + 0x20 * ix.headD 0) 0) 22 0 < fld v 22 0)) }

/-- HRP_PHSj: below the channel's PER (R274). -/
def hrpPhs : RegFam :=
  { base := 0xB0108, dims := [(0x20, 16)], shadow := mask 22 0, group := fun ix => (11, ix.headD 0)
    part := fun ix => (11, ix.headD 0)
    check := fun s ix v => rng (decide (fld v 22 0 < fld (rdShadow s hrpPer 0 ix) 22 0)) }

/-- HRP_DTj: DTA and DTB. -/
def hrpDt : RegFam :=
  { base := 0xB010C, dims := [(0x20, 16)], shadow := mask 29 16 + mask 13 0, group := fun ix => (11, ix.headD 0)
    part := fun ix => (11, ix.headD 0)
    check := fun _ _ v => rng (inR (fld v 29 16) 0 16000 && inR (fld v 13 0) 0 16000) }

/-- HRP_MINPWj. -/
def hrpMinpw : RegFam :=
  { base := 0xB0110, dims := [(0x20, 16)], shadow := mask 12 0, reset := fun _ => 800
    group := fun ix => (11, ix.headD 0), part := fun ix => (11, ix.headD 0)
    check := fun _ _ v => rng (inR (fld v 12 0) 0 8000) }

/-- HRP_DREGj. -/
def hrpDreg : RegFam :=
  { base := 0xB0118, dims := [(0x20, 16)], shadow := mask 30 0, group := fun ix => (11, ix.headD 0)
    part := fun ix => (11, ix.headD 0) }

/-! ### THM (chapter 11) -/

/-- THM_LVL1: T_THR and T_WARN, strictly ascending with T_SHUT (R309). -/
def thmLvl1 : RegFam :=
  { base := 0xC0004, shadow := 0xFFFFFFFF, reset := fun _ => place 800 31 16 + 720, group := fun _ => (12, 0)
    check := fun s _ v =>
      rng (inR (fld v 31 16) 0 1280 && inR (fld v 15 0) 0 1280 && decide (fld v 15 0 < fld v 31 16)
        && decide (fld v 31 16 < fld (pendAt s 0xC0008 (place 48 31 16 + 880)) 15 0)) }

/-- THM_LVL2: HYST and T_SHUT, T_SHUT above T_THR (R309). -/
def thmLvl2 : RegFam :=
  { base := 0xC0008, shadow := 0xFFFFFFFF, reset := fun _ => place 48 31 16 + 880, group := fun _ => (12, 0)
    check := fun s _ v =>
      rng (inR (fld v 31 16) 16 160 && inR (fld v 15 0) 0 1280
        && decide (fld (pendAt s 0xC0004 (place 800 31 16 + 720)) 31 16 < fld v 15 0)) }

/-- THM_RISE: RISE_TRIP above RISE_WARN (R307). -/
def thmRise : RegFam :=
  { base := 0xC000C, shadow := 0xFFFFFFFF, reset := fun _ => place 32 31 16 + 8, group := fun _ => (12, 0)
    check := fun _ _ v =>
      rng (inR (fld v 31 16) 8 320 && inR (fld v 15 0) 2 160 && decide (fld v 15 0 < fld v 31 16)) }

/-- THM_RCLR. -/
def thmRclr : RegFam :=
  { base := 0xC0010, shadow := mask 31 16, frozen := mask 15 0, reset := fun _ => place 600 31 16 + 30
    group := fun _ => (12, 0)
    check := fun _ _ v => rng (inR (fld v 31 16) 60 3600 && inR (fld v 15 0) 1 240) }

/-- Two signed limits in range, the low half below the high half. -/
def ascending (v : Nat) : Bool :=
  inS16 (fld v 31 16) (-640) 1280 && inS16 (fld v 15 0) (-640) 1280 &&
    decide (sgn 16 (fld v 15 0) < sgn 16 (fld v 31 16))

/-- THM_PCHG: T_CHG_MIN below T_CHG_MAX (R312). -/
def thmPchg : RegFam :=
  { base := 0xC0014, shadow := 0xFFFFFFFF, reset := fun _ => place 800 31 16, group := fun _ => (12, 0)
    check := fun _ _ v => rng (ascending v) }

/-- THM_PDIS: T_DIS_MIN below T_DIS_MAX (R312). -/
def thmPdis : RegFam :=
  { base := 0xC0018, shadow := 0xFFFFFFFF, reset := fun _ => place 960 31 16 + 0xFEC0, group := fun _ => (12, 0)
    check := fun _ _ v => rng (ascending v) }

/-- THM_TZ. -/
def thmTz : RegFam :=
  { base := 0xC001C, shadow := mask 31 31 + mask 15 0, reset := fun _ => 2 ^ 31 + 16, group := fun _ => (12, 0)
    check := fun _ _ v => rng (inR (fld v 15 0) 0 80) }

/-- THM_COOL: COOL_FULL above COOL_START (R316). -/
def thmCool : RegFam :=
  { base := 0xC0020, shadow := 0xFFFFFFFF, reset := fun _ => place 640 31 16 + 480, group := fun _ => (12, 0)
    check := fun _ _ v => rng (ascending v) }

/-- THM_HEAT: HEAT_FULL below HEAT_START (R316). -/
def thmHeat : RegFam :=
  { base := 0xC0024, shadow := 0xFFFFFFFF, reset := fun _ => place 0xFFB0 31 16 + 80, group := fun _ => (12, 0)
    check := fun _ _ v =>
      rng (inS16 (fld v 31 16) (-640) 1280 && inS16 (fld v 15 0) (-640) 1280 &&
        decide (sgn 16 (fld v 31 16) < sgn 16 (fld v 15 0))) }

/-- THM_CAN. -/
def thmCan : RegFam :=
  { base := 0xC0028, shadow := mask 31 30 + mask 9 0, reset := fun _ => 10, group := fun _ => (12, 0)
    check := fun _ _ v => rng (inR (fld v 9 0) 1 100) }

/-- THM_CANID. -/
def thmCanid : RegFam := { base := 0xC002C, shadow := mask 28 0, group := fun _ => (12, 0) }

/-- THM_THj: ROLE and SMASK. -/
def thmTh : RegFam :=
  { base := 0xC0040, dims := [(4, 8)], part := fun ix => (36, ix.headD 0), frozen := mask 31 30 + mask 27 24 }

/-! ### LGC (chapter 13) -/

/-- LGC_FADDR. -/
def lgcFaddr : RegFam := { base := 0xE000C, live := 0xFFFFFFFF }

/-- LGC_FSYM. -/
def lgcFsym : RegFam := { base := 0xE0010, live := 0xFFFFFFFF }

/-- LGC_FVAL. -/
def lgcFval : RegFam := { base := 0xE0014, live := 0xFFFFFFFF }

/-- TWD in µs within R356 for a CYCLE, 0 for an event task. -/
def twdOk (c v : Nat) : Bool := if c = 0 then inR v 250 10000000 else inR v c (16 * c)

/-- LGC_TCFGt: EN, PRIO and CYCLE, above the task's OFFSET and with its TWD in range (R101). -/
def lgcTcfg : RegFam :=
  { base := 0xE0100, dims := [(0x20, 16)], frozen := mask 31 31 + mask 27 0, reset := fun _ => place 15 27 24
    part := fun ix => (14, ix.headD 0)
    check := fun s ix v =>
      let c := fld v 23 0
      let o := fld (frzAt s (0xE0108 + 0x20 * ix.headD 0) 0) 23 0
      rng ((c == 0 || inR c 250 10000000) && twdOk c (pendAt s (0xE0104 + 0x20 * ix.headD 0) 10000) &&
        (o == 0 || decide (o < c))) }

/-- LGC_TWDt: TWD in µs within R356. -/
def lgcTwd : RegFam :=
  { base := 0xE0104, dims := [(0x20, 16)], shadow := 0xFFFFFFFF, reset := fun _ => 10000
    group := fun ix => (14, ix.headD 0), part := fun ix => (14, ix.headD 0)
    check := fun s ix v => rng (twdOk (fld (rdFrozen s lgcTcfg 0 ix) 23 0) v) }

/-- LGC_TOFFt: OFFSET in µs, below CYCLE. -/
def lgcToff : RegFam :=
  { base := 0xE0108, dims := [(0x20, 16)], frozen := mask 23 0, part := fun ix => (14, ix.headD 0)
    check := fun s ix v => rng (v == 0 || decide (fld v 23 0 < fld (rdFrozen s lgcTcfg 0 ix) 23 0)) }

/-- LGC_STNCFGs. -/
def lgcStncfg : RegFam :=
  { base := 0xE0400, dims := [(0x10, 16)]
    part := fun ix => (35, ix.headD 0), frozen := mask 31 13 + mask 6 0, reset := fun _ => place 3 16 13 + 10
    check := fun _ _ v =>
      rng (inR (fld v 30 24) 0 64 && inR (fld v 23 17) 0 64 && inR (fld v 16 13) 2 10 && inR (fld v 6 0) 1 100) }

/-- LGC_STNIDs. -/
def lgcStnid : RegFam :=
  { base := 0xE0404, dims := [(0x10, 16)], part := fun ix => (35, ix.headD 0), frozen := 0xFFFFFFFF }

/-- LGC_SUBMs: instance (s, 0) for bytes 0 to 31, (s, 1) for bytes 32 to 63. -/
def lgcSubm : RegFam :=
  { base := 0xE0800, dims := [(8, 16), (4, 2)], part := fun ix => (35, ix.headD 0), frozen := 0xFFFFFFFF }

/-- LGC_SUBV: instance (s, word). -/
def lgcSubv : RegFam :=
  { base := 0xE1000, dims := [(0x40, 16), (4, 16)], part := fun ix => (35, ix.headD 0), frozen := 0xFFFFFFFF }

/-! ### FIO (chapter 14) -/

/-- FIO_CFG. -/
def fioCfg : RegFam :=
  { base := 0xF000C, shadow := mask 31 31 + mask 22 16 + mask 9 0, reset := fun _ => place 10 22 16 + 10
    group := fun _ => (15, 0)
    check := fun _ _ v => rng (inR (fld v 22 16) 1 100 && inR (fld v 9 0) 0 600) }

/-- FIO_SUBM. -/
def fioSubm : RegFam := { base := 0xF0020, shadow := 0xFFFFFFFF, group := fun _ => (15, 0) }

/-- FIO_SUBV. -/
def fioSubv : RegFam := { base := 0xF0024, shadow := 0xFFFFFFFF, group := fun _ => (15, 0) }

/-- FIO_DBn. -/
def fioDb : RegFam :=
  { base := 0xF0100, dims := [(4, 32)], shadow := mask 17 0, group := fun _ => (15, 0)
    check := fun _ _ v =>
      rng (match fld v 17 16 with
        | 0 => true
        | 1 => inR (fld v 15 0) 1 65535
        | 2 => inR (fld v 15 0) 1 255
        | _ => false) }

/-! ### CAN (chapter 15): instances begin with the controller -/

/-- CAN_CFG. LGATE resets to 1 on CAN1 (R414); AUTOBAUD exists on CAN2 only. -/
def canCfg : RegFam :=
  { base := 0x100008, dims := [(0x4000, 3)]
    part := fun ix => (16, ix.headD 0), frozen := mask 31 31 + mask 29 27, shadow := mask 30 30 + mask 26 25
    reset := fun ix => if ix.headD 0 = 1 then 2 ^ 28 else 0, group := fun ix => (16, ix.headD 0) }

/-- CAN_NBT: an SJW above TSEG2 or a bit shorter than 1 µs returns RANGE (R398). -/
def canNbt : RegFam :=
  { base := 0x10000C, dims := [(0x4000, 3)]
    part := fun ix => (16, ix.headD 0), shadow := mask 31 16 + mask 14 8 + mask 6 0
    reset := fun _ => 0x007E1F1F, group := fun ix => (16, ix.headD 0)
    check := fun _ _ v =>
      rng (inR (fld v 23 16) 1 255 && decide (fld v 6 0 ≤ fld v 14 8)
        && decide ((fld v 31 24 + 1) * (3 + fld v 23 16 + fld v 14 8) ≥ 80)) }

/-- CAN_DBT: an SJW above TSEG2 or a bit shorter than 125 ns returns RANGE (R398). -/
def canDbt : RegFam :=
  { base := 0x100010, dims := [(0x4000, 3)]
    part := fun ix => (16, ix.headD 0), shadow := mask 28 24 + mask 20 16 + mask 11 8 + mask 3 0
    reset := fun _ => 0x001C0909, group := fun ix => (16, ix.headD 0)
    check := fun _ _ v =>
      rng (decide (fld v 3 0 ≤ fld v 11 8)
        && decide ((fld v 28 24 + 1) * (3 + fld v 20 16 + fld v 11 8) ≥ 10)) }

/-- CAN_TDC: TDCO. -/
def canTdc : RegFam :=
  { base := 0x100014, dims := [(0x4000, 3)]
    part := fun ix => (16, ix.headD 0), shadow := mask 7 0, group := fun ix => (16, ix.headD 0) }

/-- CAN_WAKE_ID, retained; reads 0 on CAN2. -/
def canWakeId : RegFam :=
  { base := 0x100028, dims := [(0x4000, 2)]
    part := fun ix => (16, ix.headD 0), frozen := mask 31 31 + mask 28 0, kept := 0xFFFFFFFF }

/-- CAN_WAKE_MSK, retained; reads 0 on CAN2. -/
def canWakeMsk : RegFam :=
  { base := 0x10002C, dims := [(0x4000, 2)]
    part := fun ix => (16, ix.headD 0), frozen := mask 28 0, kept := 0xFFFFFFFF, reset := fun _ => 0x1FFFFFFF }

/-- CAN_FLTi_ID: DEST and ID; DEST 6 returns RANGE. -/
def canFltId : RegFam :=
  { base := 0x100100, dims := [(0x4000, 3), (8, 32)]
    part := fun ix => (16, ix.headD 0), shadow := 0xFFFFFFFF, reset := fun _ => place 7 31 29
    group := fun ix => (16, ix.headD 0), check := fun _ _ v => rng (fld v 31 29 != 6) }

/-- CAN_FLTi_MSK. -/
def canFltMsk : RegFam :=
  { base := 0x100104, dims := [(0x4000, 3), (8, 32)]
    part := fun ix => (16, ix.headD 0), shadow := mask 31 30 + mask 28 0
    group := fun ix => (16, ix.headD 0) }

/-- CAN_FLTM: FDM of 16 filters a word; 3 returns RANGE. -/
def canFltm : RegFam :=
  { base := 0x100200, dims := [(0x4000, 3), (4, 2)]
    part := fun ix => (16, ix.headD 0), shadow := 0xFFFFFFFF, group := fun ix => (16, ix.headD 0)
    check := fun _ _ v => rng ((List.range 16).all fun i => fld v (2 * i + 1) (2 * i) != 3) }

/-- The mailbox records: instance (c, m, word) (R410). -/
def canMbx : RegFam :=
  { base := 0x102000, dims := [(0x4000, 3), (0x80, 16), (4, 20)]
    part := fun ix => (16, ix.headD 0), live := 0xFFFFFFFF, right := 1 }

/-! ### NET and TIM (chapter 16) -/

/-- NET_CFG. -/
def netCfg : RegFam := { base := 0x110008, frozen := mask 1 0, reset := fun _ => 3 }

/-- NET_PLATp: reset to the factory's values, which the manual does not give (Config.phyLat, assumption 3). -/
def netPlat : RegFam :=
  { base := 0x110030, dims := [(8, 2)], frozen := 0xFFFFFFFF
    reset := fun ix => place (Config.phyLat (ix.headD 0) true % 2001) 31 16 + place (Config.phyLat (ix.headD 0) false % 2001) 15 0
    check := fun _ _ v => rng (inR (fld v 31 16) 0 2000 && inR (fld v 15 0) 0 2000) }

/-- NET_ASYMp. -/
def netAsym : RegFam :=
  { base := 0x110034, dims := [(8, 2)], shadow := mask 15 0, group := fun _ => (17, 0)
    check := fun _ _ v => rng (inS16 (fld v 15 0) (-10000) 10000) }

/-- TIM_CFG. -/
def timCfg : RegFam := { base := 0x120020, frozen := mask 31 31 + mask 7 0, reset := fun _ => 2 ^ 31 }

/-- TIM_STEPMAX. -/
def timStepmax : RegFam :=
  { base := 0x120024, shadow := mask 19 0, reset := fun _ => 1000, group := fun _ => (18, 0)
    check := fun _ _ v => rng (inR (fld v 19 0) 20 1000000) }

/-- TIM_DLY. -/
def timDly : RegFam :=
  { base := 0x120028, shadow := 0xFFFFFFFF, reset := fun _ => place 200 31 16 + 60, group := fun _ => (18, 0)
    check := fun _ _ v => rng (inR (fld v 31 16) 20 10000 && inR (fld v 15 0) 10 3600) }

/-- TIM_XCHK. -/
def timXchk : RegFam :=
  { base := 0x12002C, shadow := mask 15 0, reset := fun _ => 100, group := fun _ => (18, 0)
    check := fun _ _ v => rng (inR (fld v 15 0) 20 10000) }

/-- TIM_SLATE. -/
def timSlate : RegFam :=
  { base := 0x120108, shadow := mask 15 0, reset := fun _ => 10, group := fun _ => (18, 0)
    check := fun _ _ v => rng (inR (fld v 15 0) 0 1000) }

/-- TIM_STIME_LO and TIM_STIME_HI, held for each window. -/
def timStime : RegFam := { base := 0x120110, dims := [(4, 2)], live := 0xFFFFFFFF, perWin := true, right := 1 }

/-- TIM_SACT, held for each window. -/
def timSact : RegFam := { base := 0x120118, live := mask 31 28 + mask 2 0, perWin := true, right := 1 }

/-- TIM_SVAL, held for each window. -/
def timSval : RegFam := { base := 0x12011C, live := 0xFFFFFFFF, perWin := true, right := 1 }

/-! ### WIN and HST (chapter 17) -/

/-- WIN_EVMASK. -/
def winEvmask : RegFam := { base := 0x1C, live := mask 27 0, perWin := true, right := 1 }

/-- WIN_RMASK_LO and WIN_RMASK_HI. -/
def winRmask : RegFam := { base := 0x20, dims := [(4, 2)], live := 0xFFFFFFFF, perWin := true, right := 1 }

/-- HST_HPCFG. -/
def hstHpcfg : RegFam :=
  { base := 0x130020, frozen := mask 31 16, live := mask 15 0, reset := fun _ => place 30 31 16 + 10
    check := fun _ _ v => rng (inR (fld v 31 16) 5 600 && inR (fld v 15 0) 1 600) }

/-- log2 of the default depth, policy and producer of a ring (*Table: Default ring allocation*). -/
def ringDefault (r : Nat) : Nat × Nat × Bool :=
  if r < 16 then
    match r % 4 with
    | 0 => (6, 0, true)
    | 1 => (6, 0, false)
    | 2 => (8, 1, false)
    | _ => (10, 1, false)
  else if r < 20 then (8, 1, false)
  else if r < 24 then (8, 2, false)
  else if r < 27 then (8, 1, false)
  else if r < 30 then (6, 0, true)
  else if r < 32 then (8, 0, false)
  else if r < 36 then (10, 1, false)
  else if r < 40 then (8, 1, false)
  else if r = 40 then (12, 1, false)
  else if r < 44 then (8, 0, false)
  else if r < 48 then (6, 1, false)
  else if r < 51 then (8, 1, false)
  else if r = 51 then (6, 1, false)
  else (0, 0, false)

/-- The base of a ring at reset: the default rings follow each other in ring order, each aligned to 32 × its depth
(R47). DESIGN CHOICE (assumption 3): no reset value is given. -/
def ringBaseDefault (r : Nat) : Nat :=
  if r < 16 then 0x10000 * (r / 4) + [0, 0x800, 0x2000, 0x8000].getD (r % 4) 0
  else if r < 27 then 0x40000 + 0x2000 * (r - 16)
  else if r < 30 then 0x56000 + 0x800 * (r - 27)
  else if r < 32 then 0x58000 + 0x2000 * (r - 30)
  else if r < 36 then 0x60000 + 0x8000 * (r - 32)
  else if r < 40 then 0x80000 + 0x2000 * (r - 36)
  else if r = 40 then 0xA0000
  else if r < 44 then 0xC0000 + 0x2000 * (r - 41)
  else if r < 48 then 0xC6000 + 0x800 * (r - 44)
  else if r < 52 then 0xC8000 + 0x2000 * (r - 48)
  else 0

/-- HST_RCFGr. R54 gives CHECK_FAIL for a Memory billet that changes the use of one of rings 0 to 51; DESIGN CHOICE
(assumption 3): a host write in CONFIGURE that does so answers the same. The base stays aligned to the depth (R47,
R101). The binding of rings 0 to 15 follows R453; that of the others comes from the Window billet. -/
def hstRcfg : RegFam :=
  { base := 0x131004, dims := [(0x20, 64)], frozen := mask 29 24 + mask 3 0
    reset := fun ix =>
      let r := ix.headD 0
      let (d, p, h) := ringDefault r
      place p 29 28 + flag h 27 + (if r < 16 then 2 ^ 26 + place (r / 4) 25 24 else 0) + d
    check := fun s ix v =>
      let r := ix.headD 0
      let (_, p, h) := ringDefault r
      if fld v 29 28 = 3 || !(fld v 3 0 == 0 || inR (fld v 3 0) 4 12) then .range
      else if fld v 3 0 != 0 && fld (frzAt s (0x131000 + 0x20 * r) (ringBaseDefault r)) 23 0 % (32 * 2 ^ fld v 3 0) != 0 then
        .range
      else if decide (r < 52) && (fld v 29 28 != p || bitN v 27 != h) then .checkFail
      else .ok }

/-- HST_RBASEr: aligned to 32 × depth (R47). -/
def hstRbase : RegFam :=
  { base := 0x131000, dims := [(0x20, 64)], frozen := mask 23 0, reset := fun ix => ringBaseDefault (ix.headD 0)
    check := fun s ix v =>
      let d := fld (rdFrozen s hstRcfg 0 ix) 3 0
      rng (d == 0 || fld v 23 0 % (32 * 2 ^ d) == 0) }

/-! ### REC, PAR, UPD and PNL (chapters 18 to 21) -/

/-- REC_CFG. -/
def recCfg : RegFam :=
  { base := 0x14000C, shadow := mask 31 31 + mask 26 24 + mask 15 0, reset := fun _ => place 1 26 24 + 100
    group := fun _ => (20, 0)
    check := fun _ _ v => rng (inR (fld v 26 24) 0 3 && inR (fld v 15 0) 20 1000) }

/-- REC_RDCUR, held for each window (R476). -/
def recRdcur : RegFam := { base := 0x140100, live := 0xFFFFFFFF, perWin := true, right := 1 }

/-- PAR_CFG. -/
def parCfg : RegFam := { base := 0x15000C, frozen := mask 31 29 + mask 19 16 + mask 11 8 }

/-- PAR_ID. -/
def parId : RegFam := { base := 0x150010, frozen := 0xFFFFFFFF }

/-- PAR_TMO: SWAP_TMO in ms. -/
def parTmo : RegFam :=
  { base := 0x15002C, shadow := mask 15 0, reset := fun _ => 200, group := fun _ => (21, 0)
    check := fun _ _ v => rng (inR (fld v 15 0) 50 2000) }

/-- UPD_CFG. -/
def updCfg : RegFam :=
  { base := 0x160010, frozen := mask 31 30 + mask 8 0, reset := fun _ => 3 * 2 ^ 30 + 16
    check := fun _ _ v => rng (inR (fld v 8 0) 4 256) }

/-- UPD_CWIN. -/
def updCwin : RegFam :=
  { base := 0x160014, frozen := mask 15 0, reset := fun _ => 600, check := fun _ _ v => rng (inR (fld v 15 0) 60 65535) }

/-- UPD_STMT: the statement buffer (R503). -/
def updStmt : RegFam := { base := 0x161000, dims := [(4, 64)], live := 0xFFFFFFFF }

/-- PNL_CFG. -/
def pnlCfg : RegFam :=
  { base := 0x170004, frozen := mask 31 30, live := mask 15 0, reset := fun _ => 3 * 2 ^ 30 + 60
    check := fun _ _ v => rng (inR (fld v 15 0) 10 3600) }

/-- PNL_MSGi: printable ASCII; byte 0 of a text that is not shown is 0. -/
def pnlMsg : RegFam :=
  { base := 0x170010, dims := [(4, 4)], live := 0xFFFFFFFF
    check := fun _ _ v => rng ((List.range 4).all fun i => inR (fld v (8 * i + 7) (8 * i)) 0x20 0x7E) }

/-- Every register that a host writes and that has no row of its own. -/
def plainFams : List RegFam :=
  [embWakeEn, embTimer, embDrwI, embDrwT, embRecov, crdXferOff, crdXferLen, crdStageBuf, klnView, klnXovrSel] ++
  [chnLcfg, chnLtim, swpLcfg, swpOw, swpVlim, swpTlim, swpBcfg, swpBauto, swpStk, swpCmask, swpBdem] ++
  [meaRotcfg, meaIvcfg, meaChcfg, meaIsocfg, meaIsothr, trcJ5cfg, trcJ5s, trcUref, trcCalid] ++
  [estVanc, estTanc, estIanc, estLrn, estLtmp, impCfg, impTim, impLim, impDsp, impTb, impTz, impTzf, impFpt] ++
  [ctlCvcfg, ctlCvmode, ctlIlim, ctlVcv, ctlRamp, ctlHomax, ctlGcfg, ctlGamp, ctlGf, ctlGdur, ctlCcfg, ctlCtrg] ++
  [ctlClvl, ctlClen, ctlCtt, ctlLcfg, ctlLsrc, ctlLsp, hrpCfg, hrpPer, hrpPhs, hrpDt, hrpMinpw, hrpDreg] ++
  [thmLvl1, thmLvl2, thmRise, thmRclr, thmPchg, thmPdis, thmTz, thmCool, thmHeat, thmCan, thmCanid, thmTh] ++
  [lgcFaddr, lgcFsym, lgcFval, lgcTcfg, lgcTwd, lgcToff, lgcStncfg, lgcStnid, lgcSubm, lgcSubv] ++
  [fioCfg, fioSubm, fioSubv, fioDb, canCfg, canNbt, canDbt, canTdc, canWakeId, canWakeMsk, canFltId, canFltMsk] ++
  [canFltm, netCfg, netPlat, netAsym, timCfg, timStepmax, timDly, timXchk, timSlate, timStime, timSact, timSval] ++
  [winEvmask, winRmask, hstHpcfg, hstRcfg, hstRbase, recCfg, parCfg, parId, parTmo, updCfg, updCwin, updStmt] ++
  [pnlCfg, pnlMsg]

/-- Every register that keeps a written word. -/
def allFams : List RegFam := plainFams ++ [ctlDsp, ctlBank, canMbx, recRdcur]

/-- The register at an address. -/
def famAt (a : Nat) : Option (RegFam × List Nat) := famIn allFams a

end Sys2Proof.Machine
end

