-- ==== Sys2Proof/Machine/Ops.lean ====
section
/-!
DEFINITION. The operations that every block shares: fitted instances, working SRAM, descriptor rings (R47 to R54),
window events (R452), records and the audit partition (R461 to R473), the event matrix (R28 to R31), mode requests
(R22) and latched faults.
-/

namespace Sys2Proof.Machine

/-! ### Codes and modes -/

/-- The number of a result code (*Table: Result codes*). -/
def Code.num : Code → Nat
  | .ok => 0 | .busy => 1 | .refusedMode => 2 | .refusedRights => 3 | .range => 4 | .expired => 5 | .lateDone => 6
  | .checkFail => 7 | .notPresent => 8 | .frozen => 9 | .full => 10

/-- The number of a mode (*Table: Modes*). -/
def Mode.num : Mode → Nat
  | .ember => 0 | .standby => 1 | .precharge => 2 | .connected => 3 | .drowse => 4 | .maintenance => 5
  | .safeStop => 6 | .configure => 7

/-- The mode of a code. -/
def modeOf (n : Nat) : Mode :=
  match n % 8 with
  | 0 => .ember | 1 => .standby | 2 => .precharge | 3 => .connected | 4 => .drowse | 5 => .maintenance
  | 6 => .safeStop | _ => .configure

/-- The code a check answers, or the next one: the order of R14 is the order in which a meaning lists its checks. -/
def Code.orElse (a b : Code) : Code := if a = .ok then b else a

/-- The first code of a list that is not OK. -/
def firstCode : List Code → Code
  | [] => .ok
  | c :: t => c.orElse (firstCode t)

/-- A code when a condition holds. -/
def when_ (b : Bool) (c : Code) : Code := if b then c else .ok

/-! ### Fitted instances (R5, R93) -/

/-- The number of strings fitted. -/
def nStr (v : Variant) : Nat := if v = .s2 then 2 else 4

/-- VARIANT code (R4). -/
def variantCode : Variant → Nat
  | .s4 => 1 | .m4 => 2 | .s2 => 3

/-- True when the variant fits instance i of a block: loops, strings, converters, ports, PWM channels, channels. -/
def fits (v : Variant) (kind i : Nat) : Bool :=
  match kind with
  | 4 | 5 | 8 | 9 | 10 => decide (i < nStr v)
  | 7 => decide (i < 2 * nStr v)
  | 11 => decide (i < 4 * nStr v)
  | 6 => if i < 12 then decide (i < 3 * nStr v) else if i < 20 then decide (i % 4 < nStr v) else true
  | _ => true

/-- True when an instance is fitted and enabled by the running Structure billet. -/
def present (s : State) (kind i : Nat) : Bool :=
  fits s.variant kind i &&
  match s.crd.content with
  | some c => !c.disabled.contains (kind, i)
  | none => true

/-- True when string k is fitted. -/
def strOk (s : State) (k : Nat) : Bool := present s 4 k

/-- The fitted strings. -/
def strs (s : State) : List Nat := (List.range 4).filter (strOk s)

/-- True when a Cord is installed and running. -/
def hasCord (s : State) : Bool := s.crd.content.isSome

/-- True while the module runs outside EMBER: after its cold start or Kindling (R538). -/
def awake (s : State) : Bool := s.emb.power == .on && s.emb.mode != .ember

/-! ### Free values -/

/-- Take a fresh free value. -/
def drawFree (s : State) : Nat × State := ((Config.free s.fresh).toNat, { s with fresh := s.fresh + 1 })

/-! ### Working SRAM -/

/-- The first address behind the SRAM aperture's last byte. -/
def sramSize : Nat := 0x1000000

/-- n bytes of working SRAM. -/
def memRead (m : Tab Byte) (off : Nat) : Nat → List Byte
  | 0 => []
  | n + 1 => tget 0 m off :: memRead m (off + 1) n

/-- Store bytes into working SRAM; bytes beyond its end have nowhere to go. -/
def memWrite (m : Tab Byte) (off : Nat) : List Byte → Tab Byte
  | [] => m
  | b :: t => if off < sramSize then memWrite (tset 0 m off b) (off + 1) t else m

/-- The canonical form of working SRAM. -/
abbrev Memory.wf (m : Tab Byte) : Prop := tabWf (0 : Byte) m = true

/-- The bank of an SRAM address: lines of 64 bytes go round the eight banks. DESIGN CHOICE (assumption 70): the manual
does not say which addresses lie in which bank. -/
def sramBank (off : Nat) : Nat := off / 64 % 8

/-- The bursts of an access as bank and beats of 16 bytes, at most 4 a burst (R26); `n` bounds the lines it touches. -/
def bursts : Nat → Nat → Nat → List (Nat × Nat)
  | 0, _, _ => []
  | n + 1, off, len =>
    if len = 0 then []
    else
      let k := min len (64 - off % 64)
      (sramBank off, (off + k - 1) / 16 - off / 16 + 1) :: bursts n (off + k) (len - k)

/-- Ask the arbiter for an access of a plane (R19, R26). -/
def sramAsk (p : Plane) (s : State) (off len : Nat) : State :=
  { s with arb := { s.arb with waiting := (bursts (len / 64 + 2) off len).foldl (fun t b =>
      tmod [] t b.1 (· ++ [{ plane := p, beats := b.2, since := s.now }])) s.arb.waiting } }

/-- Store bytes into the module's working SRAM with a plane's priority. The bytes change with the command that stores
them, and the arbiter serves the access after it (assumption 70). -/
def storeBytes (p : Plane) (s : State) (off : Nat) (bs : List Byte) : State :=
  { sramAsk p s off bs.length with mem := memWrite s.mem off bs }

/-! ### Partitions (R20, R35, R36, R51) -/

/-- The grant of an engine instance to an access of `len` bytes: it lies in one partition of the engine's plane. -/
def engGrant (s : State) (e : Engine) (i off len : Nat) : Access :=
  match s.crd.content with
  | some c =>
    match c.parts.find? fun q => decide (q.base ≤ off) && decide (off + len ≤ q.base + q.len) && e.plane == some q.plane with
    | some q => match q.engs.find? fun g => g.1 == e && g.2.1 == i with | some g => g.2.2 | none => .none
    | none => .none
  | none => .none

/-- KLN_PVIOL with its address and source: a violation is counted (R36). -/
def violCount (s : State) (src : Byte) (addr : Nat) : State :=
  { s with kln := { s.kln with pviol := inc16 s.kln.pviol, pviolAddr := wd addr, pviolSrc := src } }

/-- The address of an SRAM offset in the window address map (R45). -/
def sramAddr (off : Nat) : Nat := 0x10000000 + off

/-! ### Windows -/

/-- The bindings of a bare module (R92). -/
def bareBind (w : Nat) : WinBind :=
  match w with
  | 0 => { transport := .qspiA, quad := false, rights := 3
           access := [(0, .readWrite), (1, .readWrite), (2, .readWrite), (3, .readWrite), (0x16, .readWrite), (0x14, .read)] }
  | 1 => { transport := .usb, quad := false, rights := 1
           access := [(0, .readWrite), (1, .read), (2, .read), (3, .read), (0x14, .read), (0x16, .read)] }
  | _ => { transport := .none, quad := false, rights := 0, access := [] }

/-- The binding of a window: the running Cord's, or that of a bare module. -/
def winBind (s : State) (w : Nat) : WinBind :=
  match s.crd.content with
  | some c => c.windows.getD w { transport := .none, quad := false, rights := 0, access := [] }
  | none => bareBind w

/-- True when a window is bound to a transport. -/
def bound (s : State) (w : Nat) : Bool := (winBind s w).transport != .none

/-- True when a window holds a right class (*Table: Right classes*); every bound window holds the read right. -/
def hasRight (s : State) (w r : Nat) : Bool :=
  bound s w && ((winBind s w).rights.toNat.lor 1).land r == r

/-- The dispatch owner (R456). -/
def isOwner (s : State) (w : Nat) : Bool := s.hst.owner.val == w

/-- A window's own state. -/
def win (s : State) (w : Nat) : Wnd := tget {} s.hst.wins w

/-- Change a window's own state. -/
def modWin (s : State) (w : Nat) (f : Wnd → Wnd) : State :=
  { s with hst := { s.hst with wins := tmod {} s.hst.wins w f } }

/-! ### Rings -/

/-- A ring's indices. -/
def ring (s : State) (r : Nat) : Ring := tget {} s.hst.rings r

/-- Change a ring. -/
def modRing (s : State) (r : Nat) (f : Ring → Ring) : State :=
  { s with hst := { s.hst with rings := tmod {} s.hst.rings r f } }

/-- Depth of a ring in descriptors, 0 when unallocated. -/
def ringDepth (s : State) (r : Nat) : Nat := let d := rdf s hstRcfg [r] 3 0; if d = 0 then 0 else 2 ^ d

/-- The use of rings 0 to 51 (*Table: Default ring allocation*). -/
def ringTable (r : Nat) : RingUse :=
  let (_, pol, h) := ringDefault r
  let (e, i, p) : Engine × Nat × Plane :=
    if r < 16 then (.host, r / 4, .data)
    else if r < 24 then (.chain, r % 4, .control)
    else if r < 27 then (.can, r - 24, .data)
    else if r < 30 then (.can, r - 27, .data)
    else if r < 32 then (.network, 0, .data)
    else if r < 36 then (.control, r - 32, .control)
    else if r < 40 then (.impedance, r - 36, .data)
    else if r < 42 then (.recorder, 0, .data)
    else if r < 44 then (.relay, 0, .management)
    else if r < 48 then (.logic, r - 44, .control)
    else if r = 49 then (.thermal, 0, .control)
    else if r = 48 then (.estimator, 0, .data)
    else if r = 50 then (.recorder, 0, .data)
    else (.network, 0, .data)
  { host := h, engine := e, inst := i, plane := p, policy := pol, deadline := p == .control }

/-- The use of a ring: that of the table for rings 0 to 51, that of the Memory billet for the others (R54). -/
def ringUse (s : State) (r : Nat) : RingUse :=
  if r < 52 then ringTable r
  else match s.crd.content with
    | some c => match c.ringUse.find? fun p => p.1 == r with
      | some p => p.2
      | none => { host := false, engine := .ringManager, plane := .data, policy := 0 }
    | none => { host := false, engine := .ringManager, plane := .data, policy := 0 }

/-- Policy of a ring: 0 BLOCK, 1 DROP, 2 STOP. -/
def ringPolicy (s : State) (r : Nat) : Nat := rdf s hstRcfg [r] 29 28

/-- True when the host produces the ring. -/
def ringHost (s : State) (r : Nat) : Bool := bitN (rd s hstRcfg [r]) 27

/-- The window a ring is bound to (R453). -/
def ringWin (s : State) (r : Nat) : Option Nat :=
  if r < 16 then some (r / 4)
  else if bitN (rd s hstRcfg [r]) 26 then some (rdf s hstRcfg [r] 25 24) else none

/-- Entries between tail and head, modulo 2^32 (R48). -/
def ringFill (g : Ring) : Nat := (g.head - g.tail).toNat

/-- True when a ring holds an entry. -/
def ringAny (s : State) (r : Nat) : Bool := decide ((ring s r).head ≠ (ring s r).tail)

/-- A descriptor without its SEQ, NTIME and GAP flag (*Table: Ring descriptor*). -/
structure Desc where
  flags : Nat := 0
  result : Nat := 0
  type : Nat := 0
  src : Nat := 0
  buf : Nat := 0
  len : Nat := 0
  data : List Byte := []

/-- The descriptor's bytes as the producer writes them. -/
def Desc.bytes (d : Desc) (seq ntime : Nat) (gap : Bool) : List Byte :=
  leB 4 seq ++ [BitVec.ofNat 8 d.src, BitVec.ofNat 8 d.type, BitVec.ofNat 8 d.result,
    BitVec.ofNat 8 (d.flags.lor (flag gap 5))] ++ leB 8 ntime ++ leB 4 d.buf ++ leB 4 d.len ++ padTo 8 d.data

/-- An inline descriptor. -/
def inlineDesc (type src : Nat) (data : List Byte) : Desc :=
  { flags := 0x80, type := type, src := src, len := data.length, data := data }

/-- Address of an entry of a ring in the SRAM aperture (R48). -/
def ringEntry (s : State) (r : Nat) (idx : Word) : Nat :=
  rdf s hstRbase [r] 23 0 + 32 * (idx.toNat % max 1 (ringDepth s r))

/-- Write the entry at head, then advance head (R49). The ring manager, a meeting point, moves descriptors with the
priority of the ring's plane (R19, R54) and needs no partition grant for them (assumption 70). -/
def ringPlace (s : State) (r : Nat) (bs : List Byte) : State :=
  modRing (storeBytes (ringUse s r).plane s (ringEntry s r (ring s r).head) bs) r fun g =>
    { g with head := g.head + 1, seq := g.seq + 1, gap := false }

/-- True when the module's entries go to the ring: it is allocated, and its window is bound where it has one. -/
def ringLive (s : State) (r : Nat) : Bool :=
  decide (ringDepth s r > 0) && (decide (r ≥ 16) || bound s (r / 4))

/-- The module produces an entry, stamped with a module time, under the ring's full-ring policy (R52): whether it was
written, and the state. -/
def ringPutAt (s : State) (r : Nat) (d : Desc) (ntime : Nat) : Bool × State :=
  let g := ring s r
  if !ringLive s r then (false, s)
  else if g.overflow then (false, modRing s r fun g => { g with drop := inc32 g.drop })
  else if ringFill g < ringDepth s r ∧ g.waiting = [] then
    (true, ringPlace s r (d.bytes g.seq.toNat ntime g.gap))
  else match ringPolicy s r with
    | 0 => (false, modRing s r fun g => { g with waiting := g.waiting ++ [d.bytes 0 ntime false] })
    | 1 => (false, modRing s r fun g => { g with seq := g.seq + 1, drop := inc32 g.drop, gap := true })
    | _ => (false, modRing s r fun g => { g with overflow := true, drop := inc32 g.drop })

/-- The module produces an entry stamped with the present module time. -/
def ringPut (s : State) (r : Nat) (d : Desc) : Bool × State := ringPutAt s r d s.tim.now.toNat

/-- The descriptor at the tail of a ring that a host produces (R48, R49). -/
def ringFront (s : State) (r : Nat) : Option (List Byte) :=
  if ringDepth s r > 0 ∧ (ring s r).head ≠ (ring s r).tail then some (memRead s.mem (ringEntry s r (ring s r).tail) 32)
  else none

/-- The module takes the descriptor at the tail, which it reads with the priority of the ring's plane. -/
def ringPop (s : State) (r : Nat) : State :=
  modRing (sramAsk (ringUse s r).plane s (ringEntry s r (ring s r).tail) 32) r fun g => { g with tail := g.tail + 1 }

/-- A payload buffer lies within one partition of a plane (R51). -/
def bufOk (s : State) (p : Plane) (off len : Nat) : Bool :=
  match s.crd.content with
  | some c => c.parts.any fun q => q.plane == p && decide (q.base ≤ off) && decide (off + len ≤ q.base + q.len)
  | none => false

/-- A latched window event (R452): the bit sets and an inline descriptor goes to the window's event ring. -/
def winEvent (s : State) (w bit src : Nat) : State :=
  if bound s w then
    (ringPut (modWin s w fun x => { x with ev := x.ev ||| wd (2 ^ bit) }) (4 * w + 2) (inlineDesc bit src [])).2
  else s

/-- A latched event of every window. -/
def allEvent (s : State) (bit src : Nat) : State :=
  (List.range 4).foldl (fun s w => winEvent s w bit src) s

/-- The window event that a descriptor on a ring raises (*Table: Window events*): its bit and its SRC. -/
def ringEvent (r type src : Nat) : Option (Nat × Nat) :=
  if r = 50 then some (5, src)
  else if r = 51 then some (9, type)
  else if r = 48 then some (10, src)
  else if r = 49 then some (11, src)
  else if 20 ≤ r ∧ r < 24 then some (12, r - 20)
  else none

/-- Produce an entry and raise the window event that it stands for. -/
def ringPush (s : State) (r : Nat) (d : Desc) : State :=
  let (written, s) := ringPut s r d
  match written, ringEvent r d.type d.src with
  | true, some (bit, src) => allEvent s bit src
  | _, _ => s

/-! ### Relay and confirmation state -/

/-- The fields of UPD_STAT. -/
def updKey (u : Upd) : List Nat :=
  [u.rx.state, u.vres.num, flag (tget none u.tx 0).isSome 0, flag (tget none u.tx 1).isSome 0, flag u.confRun 0,
    flag u.confirmed 0, flag u.fbPending 0, flag u.fellBack 0, flag u.fbFail 0]

/-- Change the relay; when UPD_STAT changes with it, UPDATE sets at every window (R452). -/
def modUpd (s : State) (f : Upd → Upd) : State :=
  let t := { s with upd := f s.upd }
  if updKey t.upd = updKey s.upd then t else allEvent t 14 0

/-! ### Records -/

/-- The names in the order of `RecName`, which numbers them for `Config.recordCode`. -/
def RecName.index (n : RecName) : Nat := n.ctorIdx

/-- CODE[15:8] is the block; CODE[7:0] the number within it (R462, *Table: Recorder codes*). -/
def recCode (src : Byte) (n : RecName) : Nat :=
  match n with
  | .timeStep => 0x1201
  | .recLostUnflushed => 0x1401
  | .recAuditLost => 0x1402
  | .auditArchived => 0x1403
  | .auditReleased => 0x1404
  | n => src.toNat * 256 + (Config.recordCode n.index).toNat

/-- A record's 64 bytes (*Table: Record*, *Table: ATTR word*). -/
def Rec.bytes (r : Rec) : List Byte :=
  let attr := flag r.coalesced 31 + flag r.timeUnset 30 + flag r.holdover 29 + flag r.pf 28 + flag r.gapBefore 27 +
    place r.sev 23 21 + place r.cnt 20 8 + r.src.toNat
  let body := leB 4 r.seq.toNat ++ leB 4 r.oph.toNat ++ leB 4 (r.pwc * 256 + r.epc.toNat) ++ leB 4 attr ++
    leB 8 r.ntime.toNat ++ leB 2 (recCode r.src r.name) ++ leB 2 r.payload.length ++ padTo 32 r.payload
  body ++ leB 4 (crc32c body)

/-- Stamp a record (R464): one read of the time unit, and the next SEQ. -/
def stamp (s : State) (n : RecName) (src : Byte) (sev : Nat) (payload : List Byte) : Rec :=
  { seq := s.recd.seqNext, oph := s.emb.oph, pwc := s.emb.pwc, epc := s.tim.epc, coalesced := false
    timeUnset := s.tim.state == 0, holdover := s.tim.state == 3, pf := s.emb.pfail
    gapBefore := s.recd.gapBefore, sev := sev, cnt := 1, src := src, ntime := s.tim.now, name := n
    payload := payload.take 32, staged := s.lgc.time }

/-- The staging fill in slots, the unused half of a pair closed at a flush included (R466). -/
def stagingFill (r : RecS) : Nat :=
  r.staging.length + (match r.flushing with | some n => n % 2 | none => 0)

/-- The partition of a use, if the Memory billet names one. -/
def partOf (s : State) (u : PartUse) : Option Partition :=
  match s.crd.content with
  | some c => c.parts.find? fun p => p.use == u
  | none => none

/-- Merge an occurrence into the last staged record with its SRC and CODE, if one was staged in the last 100 ms (R468). -/
def coalesce (now : Nat) (src : Byte) (n : RecName) : List Rec → Option (List Rec)
  | [] => none
  | r :: t =>
    match coalesce now src n t with
    | some t' => some (r :: t')
    | none =>
      if r.src = src ∧ r.name = n ∧ now ≤ r.staged + 100000 then
        some ({ r with cnt := satAdd 8191 r.cnt 1, coalesced := true } :: t)
      else none

/-- The recorder's store into its staging partition, held to its grant (R36). -/
def slotStore (s : State) (off : Nat) (bs : List Byte) : State :=
  if (partOf s .staging).isNone then s
  else if engGrant s .recorder 0 off 64 = .readWrite then storeBytes .data s off bs
  else violCount s (Config.engTag Engine.recorder.ctorIdx 0) (sramAddr off)

/-- Place a stamped record in the next staging slot (a staging partition that the recorder may not write counts a
violation, which leaves no record of its own: it would have the same fate), with ring 40's descriptor when it completes a pair (R466). -/
def placeStaged (s : State) (r : Rec) : State :=
  let slot := s.recd.slot
  let base := match partOf s .staging with | some p => p.base | none => 0
  let s := { s with recd := { s.recd with staging := s.recd.staging ++ [r], seqNext := s.recd.seqNext + 1
                                          gapBefore := false, slot := (slot + 1) % 8192 } }
  let s := slotStore s (base + 64 * slot) r.bytes
  if slot % 2 = 1 then (ringPut s 40 { buf := base + 64 * (slot - 1), len := 128 }).2 else s

/-- Stage a record (R461, R466 to R468): below MIN_SEV it is discarded, on a full staging it is dropped, above 75 % it
may coalesce. In EMBER the recorder does not run, and after its share of a power-fail flush, 8.5 ms from PFAIL, it takes no
record (R470). A record of severity FAULT or higher raises RECORD at the windows. -/
def stage (s : State) (n : RecName) (src : Byte) (sev : Nat) (payload : List Byte) : State :=
  if s.emb.power = .dark ∨ s.emb.power = .waiting ∨ s.emb.mode = .ember ∨
      (s.emb.power = .flushing ∧ s.now ≥ s.emb.pfailAt + 8500) ∨ sev < rdf s recCfg [] 26 24 then s
  else
    let fill := stagingFill s.recd
    let merged := if fill ≥ 6144 ∧ sev ≤ 2 then coalesce s.lgc.time src n s.recd.staging else none
    match merged with
    | some l => { s with recd := { s.recd with staging := l } }
    | none =>
      if fill ≥ 8192 then { s with recd := { s.recd with sdrop := inc32 s.recd.sdrop, gapBefore := true } }
      else
        let s := placeStaged s (stamp s n src sev payload)
        if sev ≥ 4 then
          allEvent { s with recd := { s.recd with lastFaultAt := some s.now, faultSeen := some s.now } } 8 sev
        else s

/-- Severities (R461). -/
def sevInfo : Nat := 1
/-- NOTICE. -/
def sevNotice : Nat := 2
/-- WARNING. -/
def sevWarning : Nat := 3
/-- FAULT. -/
def sevFault : Nat := 4
/-- SAFETY. -/
def sevSafety : Nat := 5
/-- CRITICAL. -/
def sevCritical : Nat := 6
/-- AUDIT. -/
def sevAudit : Nat := 7

/-- Free slots of the audit partition. -/
def auditFree (r : RecS) : Nat := r.auditSlots - r.audit.length

/-- Append an AUDIT record to the audit partition (R472). -/
def auditAppend (s : State) (n : RecName) (src : Byte) (payload : List Byte) : State :=
  { s with recd := { s.recd with audit := s.recd.audit ++ [{ stamp s n src sevAudit payload with gapBefore := false }]
                                 seqNext := s.recd.seqNext + 1 } }

/-- True when an AUDIT record of an action that can be refused would fall into the reserve (R473). -/
def auditFullNow (s : State) : Bool := decide (auditFree s.recd ≤ 64)

/-- Note a refusal with FULL (R473). -/
def noteAuditFull (s : State) : State := { s with recd := { s.recd with auditFull := true } }

/-- Write an AUDIT record for an action, or answer none when it is refused with FULL. -/
def audit (s : State) (n : RecName) (src : Byte) (payload : List Byte) : Option State :=
  if auditFullNow s then none else some (auditAppend s n src payload)

/-- Write the AUDIT record of an automatic step, which may use the reserve; without a slot it is lost and counted, and
REC_AUDIT_LOST is staged in its place (R473). -/
def auditAuto (s : State) (n : RecName) (src : Byte) (payload : List Byte) : State :=
  if auditFree s.recd > 0 then auditAppend s n src payload
  else
    let s := { s with recd := { s.recd with auditLost := inc8 s.recd.auditLost } }
    stage s .recAuditLost 0x14 sevCritical (leB 2 (recCode src n) ++ [0, 0] ++ leB 8 s.tim.now.toNat)

/-! ### Event matrix -/

/-- The sinks that the Route billet joins to a source. -/
def sinksOf (s : State) (e : EvSource) : List EvSink :=
  match s.crd.content with
  | some c => (c.events.filter fun p => p.1 == e).map (·.2)
  | none => []

/-- Raise an event: it stands at each of its sinks until delivered, merged with one already there (R28, R29). -/
def raise (s : State) (e : EvSource) : State :=
  let pend := (sinksOf s e).foldl (fun l k => if l.contains k then l else l ++ [k]) s.kln.evPend
  { s with kln := { s.kln with evPend := pend } }

/-! ### Stream crossbar (R33, R34, R455) -/

/-- The routes of the running Cord with their numbers, at most 256 (R33). -/
def routesOf (s : State) : List (Nat × Route) :=
  match s.crd.content with
  | some c => ((c.routes.take 256).zipIdx).map fun p => (p.2, p.1)
  | none => []

/-- A consumer holds a word: one that it had not taken is replaced, and its overrun counter counts (R34). -/
def xbarHold (key : Nat) (tag : Byte) (v : Word) (s : State) : State :=
  let lost : Bool := match tget none s.kln.xhold key with | some h => !h.taken | none => false
  { s with kln := { s.kln with
      xhold := tset none s.kln.xhold key (some { word := v, tag := tag, taken := false })
      xovr := if lost then tmod 0 s.kln.xovr key inc16 else s.kln.xovr } }

/-- A word reaches consumer `key` of a route: a ring takes it at once, under its full-ring policy, a window's stream ring
in a block of one word; any other consumer holds it, the logic image in its live copy too. -/
def xbarTake (tag : Byte) (v : Word) (s : State) (key : Nat) (c : Consumer) : State :=
  match c with
  | .window w => (ringPut s (4 * w + 3) (inlineDesc 0 tag.toNat (leB 4 v.toNat))).2
  | .ring r => (ringPut s r.val (inlineDesc 0 tag.toNat (leB 4 v.toNat))).2
  | .logicXi n => xbarHold key tag v { s with lgc := { s.lgc with xi := tset 0 s.lgc.xi n v } }
  | .loopInput _ _ | .estimator _ | .capture _ | .other _ => xbarHold key tag v s

/-- The consumers of a route with their numbers, at most 4 (R33). -/
def consOf (r : Nat × Route) : List (Nat × Consumer) :=
  ((r.2.consumers.take 4).zipIdx).map fun p => (4 * r.1 + p.2, p.1)

/-- A producer presents a word, which reaches every consumer of its routes. -/
def xbar (s : State) (p : Producer) (v : Word) : State :=
  ((routesOf s).filter fun r => r.2.producer == p).foldl (fun s r =>
    (consOf r).foldl (fun s c => xbarTake r.2.tag v s c.1 c.2) s) s

/-- The words that the consumers a test names hold, by consumer key. -/
def xbarKeys (s : State) (is : Consumer → Bool) : List Nat :=
  (routesOf s).flatMap fun r => ((consOf r).filter fun c => is c.2).map (·.1)

/-- A held word is taken. -/
def XHold.take (h : XHold) : XHold := { h with taken := true }

/-- The consumers that a test names take the words they hold (R34). -/
def xbarTaken (is : Consumer → Bool) (s : State) : State :=
  let t := (xbarKeys s is).foldl (fun t k => tset none t k ((tget none t k).map XHold.take)) s.kln.xhold
  { s with kln := { s.kln with xhold := t } }

/-- The word that a consumer holds and has not taken. -/
def xbarWord (s : State) (is : Consumer → Bool) : Option Word :=
  (xbarKeys s is).findSome? fun k => match tget none s.kln.xhold k with
    | some h => if h.taken then none else some h.word
    | none => none

/-! ### Mode requests and latched faults -/

/-- The plane order of R22: SAFE_STOP requests first, then control, data and management. -/
def reqRank (r : ModeReq) : Nat :=
  if r.target = .safeStop then 0
  else match r.src with
    | .fault _ | .logic _ | .thermal | .module _ => 1
    | .window _ | .sched _ => 2
    | .panel | .relay _ | .lever => 3

/-- Queue a mode request in order of arrival (R22). -/
def reqMode (s : State) (target : Mode) (src : ReqSrc) : State :=
  { s with emb := { s.emb with reqs := s.emb.reqs ++ [{ target := target, src := src }] } }

/-- Latch a fault and ask for SAFE_STOP (R57); `cause` is its code in *Table: Transition causes*. -/
def latchFault (s : State) (cause : Nat) : State :=
  reqMode { s with emb := { s.emb with
      latchFaults := if s.emb.latchFaults.contains cause then s.emb.latchFaults else s.emb.latchFaults ++ [cause] } }
    .safeStop (.fault cause)

/-- The display returns to HOME and lights the backlight (R510). -/
def showHome (s : State) : State :=
  { s with pnl := { s.pnl with screen := 0, menu := none, backlight := true, lastTouch := s.now } }

/-! ### Frames the module sends -/

/-- Keep the last frame sent on an interface. -/
def send (s : State) (iface : Nat) (bs : List Byte) : State := { s with tx := tset [] s.tx iface bs }

/-- Interfaces of `State.tx`: chain ports 0 to 7, QSPI ports, Ethernet and USB windows, field link, CAN, NET, pair. -/
def ifChain (j : Nat) : Nat := j
/-- QSPI port A or B. -/
def ifQspi (b : Bool) : Nat := if b then 11 else 10
/-- Host protocol or USB response of a window. -/
def ifHost (w : Nat) : Nat := 12 + w
/-- EVENT message of a window. -/
def ifEvent (w : Nat) : Nat := 16 + w
/-- Isolation link. -/
def ifFio : Nat := 20
/-- CAN controller. -/
def ifCan (c : Nat) : Nat := 24 + c
/-- Safe connection. -/
def ifSafe (c : Nat) : Nat := 32 + c
/-- Remote station. -/
def ifStn (i : Nat) : Nat := 48 + i
/-- NET port: relay frames. -/
def ifNet (p : Nat) : Nat := 64 + p
/-- NET port: Sync, Pdelay_Req and Pdelay_Resp messages. -/
def ifPtp (p : Nat) : Nat := 68 + p
/-- NET port: Follow_Up messages. -/
def ifPtpFollow (p : Nat) : Nat := 80 + p
/-- NET port: Announce messages. -/
def ifPtpAnn (p : Nat) : Nat := 82 + p
/-- Pair link. -/
def ifPair : Nat := 72
/-- Frames that the switch sends on a NET port. -/
def ifSwitch (p : Nat) : Nat := 76 + p

end Sys2Proof.Machine
end

