-- ==== Sys2Proof/Machine/Access.lean ====
section
/-!
DEFINITION. How a host's request reaches a block: the window's transport, its access map and rights (R38, R45, R92,
R438, R439), the window's result of last command (R441), and a command of a block seen as one request.
-/

namespace Sys2Proof.Machine

/-- The outcome of every command of this block: a next state. -/
abbrev Out := Host.Outcome State Fault Refusal

/-- Key of the page or aperture that holds an address in `WinBind.access`: its base / 64 KB, none outside the map of
R45. -/
def pageKey (a : Nat) : Option Nat :=
  if a < 0x180000 then some (a / 0x10000)
  else if 0x10000000 ≤ a ∧ a < 0x11000000 then some 0x1000
  else if 0x20000000 ≤ a ∧ a < 0x22000000 then some 0x2000
  else if 0x30000000 ≤ a ∧ a < 0x30800000 then some 0x3000
  else none

/-- The grant of a window to a page; a page the map does not name gives no access (R38). -/
def grantOf (s : State) (w key : Nat) : Access :=
  match (winBind s w).access.find? fun p => p.1 == key with
  | some p => p.2
  | none => .none

/-- True when requests of a window reach the register fabric (R438, R538): it is bound and the module is awake. -/
def reachable (s : State) (w : Nat) : Bool := awake s && bound s w

/-- The code of an access before the register itself is asked: alignment (R10), map (R45), grant (R38), bare (R92). -/
def accessCode (s : State) (w a : Nat) (write : Bool) : Code :=
  match pageKey a with
  | none => .range
  | some k =>
    match grantOf s w k with
    | .readWrite => if a % 4 = 0 then .ok else .range
    | .read => if write then .refusedRights else if a % 4 = 0 then .ok else .range
    | .none => if hasCord s then .refusedRights else .notPresent

/-- Set WIN_LASTRES and, for a failure, WIN_LASTADDR, and raise LASTERR (R441, R452). -/
def finish (s : State) (w a : Nat) (c : Code) : State :=
  if c = .ok ∨ c = .lateDone then modWin s w fun x => { x with lastRes := .ok }
  else winEvent (modWin s w fun x => { x with lastRes := c, lastAddr := wd a }) w 15 c.num

/-- A command register of a block. `res` stores the block's RES field, which reports the last command written from any
window (R442); a window without one of `rights` gets REFUSED_RIGHTS, ahead of every other code (R14). -/
def cmdReq (rights : State → Bool) (res : Code → State → State) (f : State → Code × State) (s : State) :
    Code × State :=
  if rights s then
    let (c, t) := f s
    (c, res c t)
  else (.refusedRights, res .refusedRights s)

/-- One command request of a window: access, then the block, then the window's result. -/
def hostCmd (w : Win) (a : Nat) (f : State → Code × State) (s : State) : State :=
  if reachable s w then
    match accessCode s w a true with
    | .ok =>
      let (c, t) := f s
      finish t w a c
    | c => finish s w a c
  else s

/-- No RES register. -/
def noRes (_ : Code) (s : State) : State := s

/-- A command that every check has passed and that answers OK. -/
def okCmd (s : State) : Code × State := (.ok, s)

/-- A command refused with a code. -/
def refuse (c : Code) (s : State) : Code × State := (c, s)

/-- Run a command when its code is OK. -/
def ifOk (c : Code) (s : State) (f : State → Code × State) : Code × State := if c = .ok then f s else (c, s)

/-- Any of two rights. -/
def rightAny (w : Win) (a b : Nat) (s : State) : Bool := hasRight s w a || hasRight s w b

/-- One right. -/
def rightOne (w : Win) (a : Nat) (s : State) : Bool := hasRight s w a

/-- The right classes. -/
def rRead : Nat := 1
/-- Configure. -/
def rCfg : Nat := 2
/-- Dispatch. -/
def rDsp : Nat := 4
/-- Maintenance. -/
def rMaint : Nat := 8
/-- Time. -/
def rTime : Nat := 16
/-- Safety acknowledge. -/
def rSafe : Nat := 32
/-- Calibration. -/
def rCal : Nat := 64
/-- Audit. -/
def rAudit : Nat := 128

end Sys2Proof.Machine
end

