-- ==== Sys2Proof/Machine/ChainOps.lean ====
section
/-!
DEFINITION. The chain protocol's frames, queue and transactions (chapter 4), shared by the commands of the chain and
by the engines that use it.
-/

namespace Sys2Proof.Machine

/-- BLOCK code of CHN. -/
def bCHN : Byte := 0x04
/-- BLOCK code of SWP. -/
def bSWP : Byte := 0x05

/-- A loop. -/
def lp (s : State) (k : Nat) : LoopS := tget {} s.chn.loops k

/-- Change a loop. -/
def modLp (s : State) (k : Nat) (f : LoopS → LoopS) : State :=
  { s with chn := { s.chn with loops := tmod {} s.chn.loops k f } }

/-- A unit of a loop as the module knows it. -/
def unitAt (l : LoopS) (p : Nat) : UnitS := tget {} l.units p

/-- Change a unit. -/
def modUnit (s : State) (k p : Nat) (f : UnitS → UnitS) : State :=
  modLp s k fun l => { l with units := tmod {} l.units p f }

/-- A port. -/
def port (s : State) (j : Nat) : PortS := tget {} s.chn.ports j

/-- Change a port. -/
def modPort (s : State) (j : Nat) (f : PortS → PortS) : State :=
  { s with chn := { s.chn with ports := tmod {} s.chn.ports j f } }

/-- The loops that sweep: CLOSED or REROUTED (R142). -/
def sweeps (l : LoopS) : Bool := l.state == .closed || l.state == .rerouted

/-- The last position reached from the A end, as CHN_BRKk reads it. -/
def aLast (l : LoopS) : Nat := if l.state = .closed then l.n else l.aLast

/-- The first position reached from the B end. -/
def bFirst (l : LoopS) : Nat := if l.state = .closed then l.n + 1 else l.bFirst

/-- A frame (*Table: Frame structure*) without preamble and delimiter: header, payload, CRC-16. -/
def frame (typ hop opc tag : Nat) (payload : List Byte) : List Byte :=
  let b := [BitVec.ofNat 8 (typ * 64 + hop % 64), BitVec.ofNat 8 opc, BitVec.ofNat 8 tag,
    BitVec.ofNat 8 payload.length] ++ payload
  b ++ leB 2 (crc16 b)

/-- The broadcast HOP. -/
def hopAll : Nat := 0x3F

/-- A broadcast command from an end. -/
def bcast (fromA : Bool) (opc : Nat) (payload : List Byte) : ChainCmd :=
  { opc := opc, fromA := fromA, hop := hopAll, payload := payload }

/-- The end and hop count that address a position (R112), none where it cannot be reached. -/
def route (l : LoopS) (p : Nat) : Option (Bool × Nat) :=
  if p = 0 ∨ p > l.n then none
  else match l.state with
    | .closed => some (true, p)
    | .rerouted => if p ≤ l.aLast then some (true, p) else if p ≥ l.bFirst then some (false, l.n + 1 - p) else none
    | _ => none

/-- The port that a command leaves from. -/
def sendPort (k : Nat) (fromA : Bool) : Nat := if fromA then 2 * k else 2 * k + 1

/-- Start a transaction: a new tag, and the frame on the sending port. -/
def startTx (s : State) (k : Nat) (rank pos limit : Nat) (cmd : ChainCmd) : State :=
  let tag := (lp s k).tag + 1
  let t : ChainTx :=
    { cmd := cmd, rank := rank, pos := pos, limit := limit, tag := tag, retries := 0, arrived := false, resps := []
      sentAt := s.now }
  let s := modLp s k fun l => { l with tag := tag, tx := some t }
  send s (ifChain (sendPort k cmd.fromA)) (frame 0 cmd.hop cmd.opc tag.toNat cmd.payload)

/-- Items queued on a loop: the queue, a READ_ALARM, a LOCATE and a refresh (R130 items 3 to 7). -/
def queued (l : LoopS) : Nat :=
  (l.queue.filter fun i => i.rank != 10).length + (if l.almPend then 1 else 0) + (if l.suspect then 1 else 0) +
    (if l.refresh then 1 else 0)

/-- Queue an item, or none when 16 are queued (FULL). -/
def enqueue (s : State) (k : Nat) (i : ChainItem) : Option State :=
  if queued (lp s k) ≥ 16 then none
  else some (modLp s k fun l => { l with queue := l.queue ++ [i] })

/-- Queue an item of the module's own; on a full queue the request is refused and nothing is queued. -/
def enqueueOwn (s : State) (k : Nat) (i : ChainItem) : State := (enqueue s k i).getD s

/-- A command to one position as a queue item; HOP and end are set when it starts. -/
def toUnit (opc : Nat) (payload : List Byte) : ChainCmd := { opc := opc, fromA := true, hop := 0, payload := payload }

/-- LIMIT of an addressed command. -/
def limAll : Byte := 0x3F

/-- Compensation of a delay: round(D / 25 ns) (R122). -/
def compOf (d : Nat) : Nat := (2 * d + 25) / 50

/-- The SET_COMP command of a unit. -/
def setComp (l : LoopS) (p : Nat) : ChainCmd :=
  let u := unitAt l p
  toUnit 0x04 ([BitVec.ofNat 8 p, BitVec.ofNat 8 (l.n + 1 - p)] ++ leB 2 (compOf u.da) ++ leB 2 (compOf u.db))

/-- The CFG_WRITE commands of a unit, addresses 0x00 to 0x06 (R166). -/
def cfgWrites (s : State) (k p : Nat) : List ChainCmd :=
  let cm := rd s swpCmask [k, p - 1]
  let v := rd s swpVlim [k]
  let t := rd s swpTlim [k]
  let vals := [fld cm 15 0, fld cm 19 16, fld v 31 16, fld v 15 0, fld t 31 16, fld t 15 0, rdf s swpBauto [k] 15 0]
  vals.mapIdx fun a x => toUnit 0x0D ([limAll, BitVec.ofNat 8 a] ++ leB 2 x)

/-- Duration of a frame on a hop in ns (R105, R107). -/
def frameNs (len : Nat) : Nat := (60 + 8 * len) * 250

/-- Response length of a command; none where it has no response (*Table: Chain commands*). -/
def respLen (opc : Nat) : Option Nat :=
  match opc with
  | 0x02 => some 0 | 0x03 => some 9 | 0x05 => some 46 | 0x06 => some 6 | 0x09 => some 49 | 0x0C => some 53
  | 0x0E => some 4 | 0x0B | 0x10 => none | _ => some 1

/-- Predicted length of a transaction in ns: the bounds of R111 and R132 with the frame lengths of R107. -/
def predictNs (l : LoopS) (broadcast : Bool) (p : Nat) (c : ChainCmd) : Nat :=
  let cmd := frameNs c.payload.length
  let u := unitAt l p
  match respLen c.opc with
  | none => cmd + l.dl
  | some r =>
    if broadcast then cmd + 2 * l.dl + 2100 + l.n * (frameNs r + 1000) + 40000
    else cmd + 2 * max u.da u.db + 2100 + frameNs r

/-- Sweep period of a loop in µs: DRW_PER in DROWSE, else PER (R143). -/
def sweepPer (s : State) (k : Nat) : Nat :=
  if s.emb.mode = .drowse then 1000 * rdf s swpLcfg [k] 21 12 else 1000 * rdf s swpLcfg [k] 31 22

/-- The next sweep instant of a loop whose SYNC has neither left nor been skipped (R143). -/
def nextSync (s : State) (k : Nat) : Nat :=
  let p := max 1 (sweepPer s k)
  let o := s.chn.timer0 + 10 * rdf s swpLcfg [k] 8 0
  if s.now < o then o
  else if (s.now - o) % p = 0 ∧ (lp s k).lastSweep ≠ some s.now then s.now
  else o + p * ((s.now - o) / p + 1)

/-- True when a transaction's predicted end lies at least 2 µs before the next SYNC due (R130); a loop that does not sweep
has none due. -/
def fitsGap (s : State) (k ns : Nat) : Bool :=
  !sweeps (lp s k) || decide (s.now * 1000 + ns + 2000 ≤ nextSync s k * 1000)

/-- The loop's cells are fitted cells of the string: CMASK bit (swpCmask). -/
def fitted (s : State) (k p c : Nat) : Bool := bitN (rd s swpCmask [k, p - 1]) c

/-- Thermistor fitted. -/
def thermFitted (s : State) (k p t : Nat) : Bool := bitN (rd s swpCmask [k, p - 1]) (16 + t)

/-- Cell index (R3). -/
def cellIdx (k p c : Nat) : Nat := 512 * k + 16 * (p - 1) + c

/-- Loop, position and cell of a cell index. -/
def cellPos (n : Nat) : Nat × Nat × Nat := (n / 512, n % 512 / 16 + 1, n % 16)

/-- Set the loop state; entering REROUTED or LOST counts a break and records it (R138). -/
def setLoopState (s : State) (k : Nat) (st : LoopState) (a b : Nat) : State :=
  let old := (lp s k).state
  let s := modLp s k fun l => { l with state := st, aLast := a, bFirst := b }
  if (st = .rerouted ∨ st = .lost) ∧ old ≠ st then
    stage (modLp s k fun l => { l with brkCnt := inc16 l.brkCnt }) .chainBreak bCHN sevFault
      [BitVec.ofNat 8 k, BitVec.ofNat 8 a, BitVec.ofNat 8 b]
  else s

/-- Suspect a break in a CLOSED loop (R135). -/
def suspectBreak (s : State) (k : Nat) : State :=
  if (lp s k).state = .closed then modLp s k fun l => { l with suspect := true } else s

/-- HOLD in 10 ms: 2 × the current period + 10 ms, rounded up (R153). -/
def owHold (s : State) (k : Nat) : Nat := min 255 ((2 * sweepPer s k + 10000 + 9999) / 10000)

/-- A command to the unit under test, or by broadcast from the ends that R137 reads (R153, R160). -/
def owCmds (l : LoopS) (opc : Nat) (tail : List Byte) : List (Nat × ChainCmd) :=
  if l.owPos ≠ 0 then [(l.owPos, toUnit opc (limAll :: tail))]
  else (0, bcast true opc (BitVec.ofNat 8 (aLast l) :: tail)) ::
    (if l.state = .rerouted ∧ bFirst l ≤ l.n then [(0, bcast false opc (BitVec.ofNat 8 (l.n + 1 - bFirst l) :: tail))]
     else [])

/-- Queue an OW_TEST phase; as the test begins, a BAL_SET of zero durations goes before it (R160). -/
def owSend (s : State) (k phase : Nat) : State :=
  let l := lp s k
  let zero := if phase = 1 then owCmds l 0x07 (List.replicate 32 0) else []
  enqueueOwn s k { rank := 60, cmds := zero ++ owCmds l 0x0A [BitVec.ofNat 8 phase, BitVec.ofNat 8 (owHold s k)] }

/-- Abandon the open-wire test that runs (R155): PHASE 0 is sent, OW_LAST reads ABORTED, no flag changes and the
trigger stays pending. -/
def owAbort (s : State) (k : Nat) : State :=
  if (lp s k).owState = 0 then s
  else
    let s := owSend (modLp s k fun l => { l with queue := l.queue.filter (fun i => i.rank != 60) }) k 0
    modLp s k fun l =>
      { l with owState := 0, owLast := 3, owAckAt := none
               owWait := if l.owWait.contains l.owPos then l.owWait else l.owPos :: l.owWait }

/-- Start an enumeration (R119, R120 step 1): the loop runs no sweep, flags of R121 clear, and what is queued stays
(R542). A transaction that runs is not cut short (R130): READ_ID follows it. -/
def startEnum (s : State) (k : Nat) : State :=
  let idle := (lp s k).tx.isNone
  let s := modLp s k fun l =>
    { l with state := .enum, op := .enumA, countMismatch := false, tooMany := false, idConflict := false
             listA := [], listB := [], arrA := false, arrB := false, readBoth := false, sweepOpen := false
             readDue := false, readDone := false, rejoin := 0, echo := []
             echoTodo := (l.echoCmds.take 1).map (·.1) ++ l.echoTodo, echoCmds := []
             queue := l.queue.filter fun i => i.rank != 10 }
  if idle then startTx s k 10 0 63 (bcast true 0x03 [limAll]) else s

/-- True when the Structure billet enables the loop, the variant fits it and the chain engine runs (R37). -/
def loopOn (s : State) (k : Nat) : Bool := strOk s k && bitN (rd s chnLcfg [k]) 31 && !s.kln.stopped.contains .chain

/-! ### Alarm entries (R167 to R169) -/

/-- True when the pair's last entry has not yet been passed by the ring's tail. -/
def entryPending (g : Ring) (p : AlarmPair) : Bool :=
  match p.pending with
  | none => false
  | some e => decide ((e - g.tail).toNat < ringFill g)

/-- An alarm occurrence of a position and type (R168): an entry, or a suppressed count while one is pending; with the
ring in OVERFLOW, or filled by it, the occurrence is counted in ALOST (R169). -/
def alarmOcc (s : State) (k p type cells therm : Nat) : State :=
  let key := 64 * p + type
  let l := lp s k
  let pr := tget {} l.pairs key
  let r := 20 + k
  let g := ring s r
  if entryPending g pr then
    modLp s k fun l => { l with pairs := tset {} l.pairs key { pr with suppressed := pr.suppressed + 1 } }
  else
    let d := leB 2 cells ++ [BitVec.ofNat 8 therm, BitVec.ofNat 8 (min 255 pr.suppressed), l.syncId, 0, 0, 0]
    let (written, t) := ringPut s r (inlineDesc type p d)
    if written then
      allEvent (modLp t k fun l =>
        { l with pairs := tset {} l.pairs key { pending := some g.head, suppressed := 0 } }) 12 k
    else modLp t k fun l => { l with alost := inc16 l.alost }

/-- After the consumer drained an alarm ring in OVERFLOW: RESYNC first, then ALOST restarts at 0 (R169). -/
def resync (s : State) (k : Nat) : State :=
  let l := lp s k
  let d := leB 2 l.alost ++ [0, 0, l.syncId, 0, 0, 0]
  ringPush (modLp s k fun l => { l with alost := 0 }) (20 + k) (inlineDesc 0x3F 0 d)

/-! ### Balancing (R158 to R165) -/

/-- True when a cell may balance (R159): fitted, and neither INVALID, SENSE_SUSPECT nor CELL_FAULT in the last normal
sweep. -/
def eligible (s : State) (k p c : Nat) : Bool :=
  fitted s k p c && bitN (unitAt (lp s k) p).elig.toNat c

/-- The lowest reading of the string's eligible cells in the last normal sweep. -/
def vMin (s : State) (k : Nat) : Option Nat :=
  let l := lp s k
  ((List.range l.n).flatMap fun i => ((List.range 16).filter fun c => eligible s k (i + 1) c).map fun c =>
    (unitAt l (i + 1)).cells.getD c 0).min?

/-- READ_BAL of every unit: by broadcast, with the LIMITs of R137 (R161). -/
def readBalItem (l : LoopS) : ChainItem :=
  { rank := 63, cmds := (0, bcast true 0x09 [BitVec.ofNat 8 (aLast l)]) ::
      (if l.state = .rerouted ∧ bFirst l ≤ l.n then [(0, bcast false 0x09 [BitVec.ofNat 8 (l.n + 1 - bFirst l)])] else []) }

/-- Positions that the module can address. -/
def reachablePos (l : LoopS) : List Nat := ((List.range l.n).map (· + 1)).filter fun p => (route l p).isSome

/-- The BAL_AUTO commands of a loop, after a READ_BAL (R161, R163); none under POL 0 or on a loop that does not
sweep (R542). -/
def balAutoItems (s : State) (k : Nat) : List ChainItem :=
  let l := lp s k
  if rdf s swpBcfg [k] 31 30 = 0 ∨ !sweeps l then []
  else
    let tgt := (vMin s k).getD 0 + 10 * rdf s swpBcfg [k] 23 16
    [readBalItem l, { rank := 63, cmds := (reachablePos l).map fun p =>
      (p, toUnit 0x08 ([limAll] ++ leB 2 (rdf s swpBauto [k] 31 16) ++
        (List.range 16).flatMap fun c => leB 2 (if eligible s k p c then tgt else 0))) }]

/-- Send BAL_AUTO to every unit of every sweeping loop (R163). -/
def sendBalAuto (s : State) : State :=
  (strs s).foldl (fun s k =>
    if loopOn s k then
      (balAutoItems s k).foldl (fun s i => enqueueOwn s k i) s
    else s) s

/-- Stop balancing on a loop with a broadcast BAL_SET of zero durations (R160). -/
def sendBalZero (s : State) (k : Nat) : State :=
  let l := lp s k
  if sweeps l then
    let z := List.replicate 32 (0 : Byte)
    enqueueOwn s k { rank := 63, cmds := (0, bcast true 0x07 (BitVec.ofNat 8 (aLast l) :: z)) ::
      (if l.state = .rerouted ∧ bFirst l ≤ l.n then [(0, bcast false 0x07 (BitVec.ofNat 8 (l.n + 1 - bFirst l) :: z))] else []) }
  else s

/-- True while balancing is stopped on a loop (SWP_STATk.BAL_HALTED). -/
def balStopped (s : State) (k : Nat) : Bool :=
  let l := lp s k
  l.balHalted || l.balImp || l.owState != 0 || s.emb.mode == .safeStop || s.emb.mode == .configure

/-- Entry into SAFE_STOP or CONFIGURE stops balancing on every loop (R160). -/
def balStopAll (s : State) : State :=
  (strs s).foldl (fun s k => if loopOn s k then sendBalZero s k else s) s

/-- On leaving DROWSE the BAL_SET of zero durations goes out that a BAL_HALT there left waiting (R160, R165). -/
def balWake (s : State) : State :=
  (strs s).foldl (fun s k => if loopOn s k && (lp s k).balHalted then sendBalZero s k else s) s

/-- The queued BAL_SETs leave a loop's queue: in DROWSE none is sent (R165). -/
def dropBalSets (s : State) (k : Nat) : State :=
  modLp s k fun l => { l with queue := (l.queue.map fun i =>
    if i.rank = 63 then { i with cmds := i.cmds.filter fun c => c.2.opc != 0x07 } else i).filter fun i => !i.cmds.isEmpty }

/-- Before EMBER: open-wire tests are abandoned and BAL_AUTO goes out (R155, R163). -/
def chnPrep (s : State) : State := sendBalAuto ((List.range 4).foldl owAbort s)

/-- No loop has an open-wire or balancing command left to send, and none carries a transaction. -/
def chnQuiet (s : State) : Bool :=
  (strs s).all fun k =>
    let l := lp s k
    !sweeps l || (l.tx.isNone && !l.queue.any fun i => i.rank == 60 || i.rank == 63)

/-- The transmitters go off (R141): what runs on a loop ends without a response. -/
def chnEmber (s : State) : State :=
  (List.range 4).foldl (fun s k => modLp s k fun l =>
    { l with tx := none, sweepOpen := false, readDue := false, readDone := false }) s

end Sys2Proof.Machine
end

