-- ==== Sys2Proof/Machine/Flags.lean ====
section
/-!
DEFINITION. The flags that several blocks compute the same way from State: the lease (R479, R482), CALIBRATE (R206),
the safety latches (R329), contactor states (R343 to R348) and the comparisons of R12, R360 and R361.
-/

namespace Sys2Proof.Machine

/-- PAR_CFG.PAIRED (R479). -/
def paired (s : State) : Bool := bitN (rd s parCfg []) 31

/-- LEASE_VALID (R479, R482): always 1 in a module that is not paired. -/
def leaseValid (s : State) : Bool := !paired s || decide (s.par.ctr > 0)

/-- True in CALIBRATE (R206). -/
def calActive (s : State) : Bool := s.trc.owner.isSome

/-- Default reaction of a function (*Table: Safety functions*). -/
def defaultClass (f : Nat) : Nat := if f ≤ 5 ∨ f = 10 ∨ f = 11 then 1 else if f = 9 ∨ f = 14 then 3 else 2

/-- SAF_STAT.LATCHED: a function is latched. -/
def safLatched (s : State) : Bool := decide (s.saf.latch ≠ 0)

/-- Contactors of a string. -/
def ctr (s : State) (k : Nat) : Ctr := tget {} s.saf.cts k

/-- A safety output. -/
def sout (s : State) (j : Nat) : SafOut := tget {} s.saf.sos j

/-- The output is energised: its lanes have it on and no off-pulse runs on it. -/
def soOn (s : State) (j : Nat) : Bool := (sout s j).laneOn

/-- K+, K− and KP of a string are open (R343): SO(4k), SO(4k+1) and SO(4k+2) are off. -/
def ctrOpen (s : State) (k : Nat) : Bool := !soOn s (4 * k) && !soOn s (4 * k + 1) && !soOn s (4 * k + 2)

/-- No contactor output of the module is on. -/
def allOpen (s : State) : Bool := (strs s).all (ctrOpen s)

/-- Sign of a 64-bit result and whether it leaves the signed range of n bits (R361). -/
def overflows (n : Nat) (x : Int) : Bool := decide (satS n x ≠ x)

/-- Bus or host activity (R70): in DROWSE it wakes the module to CONNECTED; elsewhere it does nothing (only a current
sample restarts the quiet time of R67). -/
def activity (s : State) : State :=
  if s.emb.mode = .drowse then
    if s.emb.reqs.any (fun r => r.target == .connected) then s else reqMode s .connected (.module 0x04)
  else s

/-- A wake source fires in EMBER (R65): disabled sources are not monitored. -/
def fireWake (s : State) (n : Nat) : State :=
  if s.emb.power = .on ∧ s.emb.mode = .ember ∧ (n ≥ 5 ∨ bitN (rd s embWakeEn []) n) then
    { s with emb := { s.emb with wakeSrc := s.emb.wakeSrc ||| BitVec.ofNat 8 (2 ^ n), wakePend := true } }
  else s

/-- Count a partition violation and record it (R36): KLN_PVIOL with its address and source. -/
def partViol (s : State) (src : Byte) (addr : Nat) : State :=
  stage (violCount s src addr)
    .partitionViolation 0x01 sevFault (src :: leB 4 addr)

/-- A violation of an engine instance: counted and recorded; on a write the fault reaction of a control-plane engine
falls due (R36). -/
def engViol (s : State) (e : Engine) (i off : Nat) (isWrite : Bool) : State :=
  let s := partViol s (Config.engTag e.ctorIdx i) (sramAddr off)
  if isWrite && e.plane == some .control && !s.kln.faultPend.contains (e, i) then
    { s with kln := { s.kln with faultPend := s.kln.faultPend ++ [(e, i)] } }
  else s

/-- An engine instance stores bytes: only where its grant lets it (R36, R51), with its plane's priority (R19). -/
def engStore (s : State) (e : Engine) (i off : Nat) (bs : List Byte) : State :=
  if engGrant s e i off bs.length = .readWrite then storeBytes (e.plane.getD .data) s off bs else engViol s e i off true

/-- An engine instance reads bytes: zeros where its grant does not let it (R36). -/
def engRead (s : State) (e : Engine) (i off n : Nat) : List Byte × State :=
  if engGrant s e i off n = .none then (List.replicate n 0, engViol s e i off false)
  else (memRead s.mem off n, sramAsk (e.plane.getD .data) s off n)

/-- True while the module serves nothing but the Ember domain. -/
def inEmber (s : State) : Bool := s.emb.mode == .ember

/-! ### Commit groups (R95) -/

/-- Commit one register's shadow copy. -/
def commitReg (s : State) (key : Nat) (v : Word) : State :=
  match famAt (key % 0x100000000) with
  | some (f, ix) =>
    let d := wd (f.reset ix)
    { s with regs := tset d s.regs key (wd (putBits (tget d s.regs key).toNat f.shadow v.toNat))
             shadow := tset none s.shadow key none }
  | none => s

/-- The commit group of a shadow copy; a converter's registers commit with its power context. -/
def groupOfKey (s : State) (key : Nat) : Nat × Nat :=
  match famAt (key % 0x100000000) with
  | some (f, ix) =>
    let g := f.group ix
    if g.1 = 10 ∧ g.2 ≥ 256 then (10, rdf s ctlCvcfg [g.2 - 256] 21 16) else g
  | none => (0, 0)

/-- Commit the shadow copies of a group; a context's CTL_LCFG is not among them, its change of bank follows R290. -/
def commitRegs (s : State) (b n : Nat) : State :=
  s.shadow.foldl (fun s p => match p.2 with
    | some v => if groupOfKey s p.1 = (b, n) ∧ p.1 ≠ ctlLcfg.addr [n] then commitReg s p.1 v else s
    | none => s) s

/-- True while a group holds (R98). -/
def held (s : State) (b n : Nat) : Bool := s.kln.holds.contains (b, n)

/-- A group's boundary that comes with the command which runs its instance (R95): it commits unless it holds. -/
def commitFree (s : State) (b n : Nat) : State := if s.shadow.isEmpty || held s b n then s else commitRegs s b n

end Sys2Proof.Machine
end

