-- ==== Sys2Proof/Machine/Mea.lean ====
section
/-!
DEFINITION. The measurement bank (chapter 6): channel words, the current vote, the calibration rotation, injected
conversions, the references and the insulation monitor. The readings of the converters reach the module as the data of
its commands: a reading for every slice, in nV for a current channel (R173) and in thousandths of the word unit for
every other; calibration readings in nV.
-/

namespace Sys2Proof.Machine

/-- BLOCK code of MEA. -/
def bMEA : Byte := 0x06

/-- A channel. -/
def chan (s : State) (c : Nat) : ChanS := tget {} s.mea.chans c

/-- Change a channel. -/
def modChan (s : State) (c : Nat) (f : ChanS → ChanS) : State :=
  { s with mea := { s.mea with chans := tmod {} s.mea.chans c f } }

/-- A string's part of the bank. -/
def mstr (s : State) (k : Nat) : MeaStr := tget {} s.mea.strs k

/-- Change a string's part of the bank. -/
def modMstr (s : State) (k : Nat) (f : MeaStr → MeaStr) : State :=
  { s with mea := { s.mea with strs := tmod {} s.mea.strs k f } }

/-- A slice. -/
def sliceOf (s : State) (i : Nat) : SliceS := tget {} s.mea.slices i

/-- Change a slice. -/
def modSlice (s : State) (i : Nat) (f : SliceS → SliceS) : State :=
  { s with mea := { s.mea with slices := tmod {} s.mea.slices i f } }

/-! ### Calibration records as the bank applies them (R202 to R204) -/

/-- The nominal VALUE of an entry: 2.0 V, 1 MΩ, and 50 nS for a divider of 20 MΩ (*Table: Electrical ratings*); the
manual gives none for ISP and ISN. -/
def nominalValue (e : Nat) : Nat :=
  if 24 ≤ e ∧ e ≤ 26 then 2000000000
  else if e = 29 then 1000000000
  else if 30 ≤ e ∧ e ≤ 41 then 50000
  else if e = 42 ∨ e = 43 then Config.isoDivider.toNat
  else 0

/-- The factory record of an entry: SOURCE 1 and REV 1 (R213), with nominal content (assumption 2). -/
def factoryRec (e : Nat) : CalRec := { source := 1, rev := 1, value := nominalValue e }

/-- What applies when neither copy passes its CRC (R204). -/
def lostRec (e : Nat) : CalRec := { value := nominalValue e }

/-- The record in use for an entry: the copy that passes its CRC and has the higher REV (R204). -/
def calRec (s : State) (e : Nat) : CalRec :=
  let a := tget (factoryRec e) s.trc.recA e
  let b := tget (factoryRec e) s.trc.recB e
  match s.trc.badA.contains e, s.trc.badB.contains e with
  | true, true => lostRec e
  | true, false => b
  | false, true => a
  | false, false => if a.rev ≥ b.rev then a else b

/-! ### Channels (R172 to R174) -/

/-- Range limit of a channel in its word unit. -/
def chanLimit (c : Nat) : Int := if c < 12 then 800000 else if c < 22 then 2200000 else 30000

/-- True for a channel in use (R174). -/
def inUse (s : State) (c : Nat) : Bool := present s 6 c && bitN (rd s meaChcfg [c]) 31

/-- The channels in use, ascending. -/
def usedChans (s : State) : List Nat := (List.range 24).filter (inUse s)

/-- T_SLEW in µs. -/
def tSlew (s : State) : Nat := 1000 * rdf s meaRotcfg [] 15 0

/-- The slice serving channel c. -/
def serving (s : State) (c : Nat) : Nat := ((chan s c).slice).getD c

/-- The correction a channel's words carry (R176), in thousandths of a unit: +m on the spare, d × (1 − t / T_SLEW) on
the channel's own slice after a switch back. -/
def trimNow (s : State) (ch : ChanS) : Int :=
  match ch.slice with
  | some _ => ch.trim
  | none =>
    let t := s.now - ch.rampAt
    if t < tSlew s then ch.ramp * ((tSlew s - t : Nat) : Int) / (tSlew s : Int) else 0

/-- The nominal scale of a channel's input as a fraction (R173): a shunt of SCALE nΩ and a transducer of SCALE turns into
2 Ω turn nV into thousandths of a mA; the readings of the other channels are in thousandths of their unit. -/
def nominalScale (s : State) (c : Nat) : Int × Int :=
  let sc := rdf s meaChcfg [c] 23 0
  if c ≥ 12 then (1, 1) else if c % 3 = 2 then (sc, 2000) else (1000000, sc)

/-- A slice's reading with the gain and the offset of its last calibration (R170, R185), as a multiple of 10⁻⁹; before
the first one both are nominal. -/
def sliceCorr (s : State) (i c : Nat) (raw : Int) : Int :=
  let sl := sliceOf s i
  if sl.calibrated then (raw - (if c < 12 then sl.off else rdiv (sl.off * Config.inputScale c) 1000000)) * sl.gain
  else raw * 1000000000

/-- The value of channel c that slice i reads, in thousandths of the word unit, as a fraction (R172, R173). -/
def valueOf (s : State) (i c : Nat) (raw : Int) : Int × Int :=
  let (n, d) := nominalScale s c
  (sliceCorr s i c raw * n, 1000000000 * d)

/-- The word of a value, with a correction in thousandths, and its OVR (R172, R203). -/
def wordOf (s : State) (c : Nat) (v : Int × Int) (trim : Int) : Int × Bool :=
  if v.1.natAbs > (chanLimit c * 1000 * v.2).natAbs then (if v.1 < 0 then -chanLimit c else chanLimit c, true)
  else
    let r := calRec s c
    (rdiv (v.1 * (1000000000 + r.gcorr) + trim * 1000000000 * v.2) (1000000000000 * v.2) + r.ocorr, false)

/-- The word of channel c from the readings of the slices (R173, R176). -/
def chanWord (s : State) (raw : List Int) (c : Nat) : Int × Bool :=
  let i := serving s c
  wordOf s c (valueOf s i c (raw.getD i 0)) (trimNow s (chan s c))

/-- True while VBk's precision words repeat the last unaffected word (R182). -/
def vbHeld (s : State) (c : Nat) : Bool :=
  decide (16 ≤ c) && decide (c < 20) &&
    ((mstr s (c - 16)).running.isSome || decide (s.now < (mstr s (c - 16)).vbHold))

/-- True while VBk's control words repeat the last word taken before an injection (R182). -/
def vbCtlHeld (s : State) (c : Nat) : Bool :=
  decide (16 ≤ c) && decide (c < 20) &&
    ((mstr s (c - 16)).running.isSome || decide (s.now < (mstr s (c - 16)).ctlHold))

/-- True when channel c converts in the present mode (R197). -/
def converts (s : State) (c : Nat) : Bool := awake s && !(decide (c < 12) && s.emb.mode == .drowse)

/-- Take one precision word of a channel in use. -/
def takeWord (raw : List Int) (s : State) (c : Nat) : State :=
  if inUse s c && converts s c && !vbHeld s c then
    let (w, ovr) := chanWord s raw c
    modChan s c fun ch => { ch with word := w, ovr := ovr }
  else s

/-- Take one control word of a channel in use; in DROWSE the bank runs on the precision path only (R197). -/
def takeCtl (raw : List Int) (s : State) (c : Nat) : State :=
  if inUse s c && awake s && s.emb.mode != .drowse && !vbCtlHeld s c then
    modChan s c fun ch => { ch with ctl := (chanWord s raw c).1 }
  else s

/-! ### The current vote (R189 to R192) -/

/-- The middle of three values. -/
def median3 (a b c : Int) : Int := max (min a b) (min (max a b) c)

/-- The vote over the admitted values: the median, or the rounded mean of two. -/
def vote (l : List Int) : Option Int :=
  match l with
  | [a, b, c] => some (median3 a b c)
  | [a, b] => some (rdiv (a + b) 2)
  | _ => none

/-- The channels of a string that are admitted: in use and not flagged. -/
def admitted (s : State) (k : Nat) : List Nat :=
  (List.range 3).filter fun j => inUse s (3 * k + j) && !bitN (mstr s k).flag.toNat j

/-- What every channel is compared with: the voted value, or while it is INVALID the vote of the channels in use
(DEDUCED, assumption 37: the spec names no value there). -/
def compareWith (s : State) (k : Nat) : Int :=
  match vote ((admitted s k).map fun j => (chan s (3 * k + j)).word) with
  | some v => v
  | none => (vote (((List.range 3).filter fun j => inUse s (3 * k + j)).map fun j => (chan s (3 * k + j)).word)).getD
      (chan s (3 * k)).word

/-- The threshold max(VOTE_REL × |voted|, VOTE_ABS) in mA, times 10,000 (R190). -/
def voteThr (s : State) (k : Nat) (v : Int) : Nat :=
  let c := rd s meaIvcfg [k]
  max (fld c 6 0 * v.natAbs) (fld c 21 12 * 100000)

/-- Update the run of one channel's deviation. -/
def devRunOf (s : State) (k : Nat) (v : Int) (m : MeaStr) (j : Nat) : MeaStr :=
  let dev := decide (((chan s (3 * k + j)).word - v).natAbs * 10000 > voteThr s k v)
  let start (o : Option Nat) : Option Nat := some (o.getD s.now)
  { m with devSince := tmod none m.devSince j fun o => if dev then start o else none
           okSince := tmod none m.okSince j fun o => if dev then none else start o }

/-- Vote a string's precision current after its channel words were taken (R189 to R192). -/
def voteString (s : State) (k : Nat) : State :=
  let ws := (admitted s k).map fun j => (chan s (3 * k + j)).word
  let all := (List.range 3).map fun j => chan s (3 * k + j)
  let same := all.all (fun c => c.ovr) &&
    (all.all (fun c => decide (c.word > 0)) || all.all (fun c => decide (c.word < 0)))
  let used := (List.range 3).all fun j => inUse s (3 * k + j)
  let ovr := same && used
  let cmp := compareWith s k
  let m := mstr s k
  let m := (List.range 3).foldl (devRunOf s k cmp) m
  let res := if ovr then some (all.getD 0 {}).word else vote ws
  let m' : MeaStr := match res with
    | some v => { m with voted := v, invalid := false, lastValid := v, ovr := ovr
                         validSince := some (m.validSince.getD s.now) }
    | none => { m with invalid := true, ovr := false, validSince := none }
  let s := modMstr s k fun _ => m'
  if ovr && !m.ovr then stage s .curOverrange bMEA sevWarning (BitVec.ofNat 8 k :: leI 4 m'.voted) else s

/-- Vote a string's control current (R189): the flags are those of the precision path; three channels at their limit of
one sign give that limit (R192). -/
def voteCtl (s : State) (k : Nat) : State :=
  let w (j : Nat) : Int := (chan s (3 * k + j)).ctl
  let l := chanLimit (3 * k)
  let all (v : Int) : Bool := (List.range 3).all fun j => inUse s (3 * k + j) && w j == v
  let res := if all l then some l else if all (-l) then some (-l) else vote ((admitted s k).map w)
  match res with
  | some v => modMstr s k fun m => { m with votedCtl := v }
  | none => s

/-- Add the words of an overlap: the mean of slice c's and of the spare's over the precision instants (R176), in
thousandths of the unit with the record's gain. -/
def overlapSample (raw : List Int) (s : State) : State :=
  if s.mea.rotRun && (s.mea.rotPhase == 1 || s.mea.rotPhase == 3) && decide (s.now > s.mea.rotAt) then
    let c := s.mea.rotCh
    let g := 1000000000 + (calRec s c).gcorr
    let w (i : Nat) (t : Int) : Int :=
      let v := valueOf s i c (raw.getD i 0)
      rdiv (v.1 * g) (1000000000 * v.2) + t
    { s with mea := { s.mea with ovN := s.mea.ovN + 1, ovSlice := s.mea.ovSlice + w c 0
                                 ovSpare := s.mea.ovSpare + w 24 (chan s c).trim } }
  else s

/-- Add the words of RCB and RCC to the running second of R186. -/
def refSample (s : State) : State :=
  let add (c : Nat) (p : Nat × Int) : Nat × Int := if inUse s c then (p.1 + 1, p.2 + (chan s c).word) else p
  let b := add 22 (s.mea.refNB, s.mea.refSB)
  let c := add 23 (s.mea.refNC, s.mea.refSC)
  { s with mea := { s.mea with refNB := b.1, refSB := b.2, refNC := c.1, refSC := c.2 } }

/-- A precision-path instant has come: they lie 100 µs apart (R171). -/
def sampleDue (s : State) : Bool := !s.mea.sampled || decide (s.mea.sampleAt / 100 < s.now / 100)

/-- One precision-path instant: words of every channel, then the votes of the strings whose current channels convert
(R171, R189, R197). A bank that R37 has stopped takes no sample. -/
def bankSample (raw : List Int) (s : State) : State :=
  if s.kln.stopped.contains .bank then s else
  let s := (List.range 24).foldl (takeWord raw) { s with mea := { s.mea with sampleAt := s.now, sampled := true } }
  let s := refSample (overlapSample raw s)
  if s.emb.mode = .drowse then s else (strs s).foldl voteString s

/-- The voted precision word of a string: MEA_IVk (R191). -/
def ivWord (s : State) (k : Nat) : Nat := if (mstr s k).invalid then 0x80000000 else twos 32 (mstr s k).voted

/-- The voted control current of a string as a word (R189, R191). -/
def ctlCurrent (s : State) (k : Nat) : Int := if (mstr s k).invalid then -2147483648 else (mstr s k).votedCtl

/-- The control words of a grid instant on the crossbar (R33, R170): those of the channels in use that convert (R174,
R197), and the voted control currents. -/
def bankWords (s : State) : State :=
  let s := ((List.finRange 24).filter fun (c : Fin 24) => inUse s c && converts s c).foldl
    (fun s (c : Fin 24) => xbar s (.channel c) (wd (twos 32 (chan s c).ctl))) s
  ((List.finRange 4).filter fun (k : Fin 4) => strOk s k).foldl
    (fun s (k : Fin 4) => xbar s (.current k) (wd (twos 32 (ctlCurrent s k)))) s

/-- One control-path instant: the readings of the slices give the control words, the control votes and the words on the
crossbar (R170, R171, R189). An instant of which no reading is given changes nothing. -/
def controlSample (raw : List Int) (s : State) : State :=
  if raw.isEmpty ∨ s.kln.stopped.contains .bank ∨ s.emb.mode = .drowse then s
  else bankWords ((strs s).foldl voteCtl ((List.range 24).foldl (takeCtl raw) s))

/-- The runs of R190 end: in DROWSE no current word is compared (R197). -/
def voteRest (s : State) : State :=
  (List.range 4).foldl (fun s k =>
    if (mstr s k).devSince = [] ∧ (mstr s k).okSince = [] then s
    else modMstr s k fun m => { m with devSince := [], okSince := [] }) s

/-- CHANNEL_FLAG: a channel that deviated at every instant for VOTE_T is flagged; its third flag within 86,400
operating seconds latches it (R190). -/
def execChannelFlag (k : Str) (j : Fin 3) (s : State) : Out :=
  .next (
    let m := mstr s k
    match tget none m.devSince j with
    | none => s
    | some t =>
      if bitN m.flag.toNat j || !inUse s (3 * k + j) || !converts s (3 * k + j) || s.now < t + 1000 * rdf s meaIvcfg [k] 31 22 then s
      else
        let oph := s.emb.oph.toNat
        let times := (m.flagTimes.filter fun p => p.2 + 86400 ≥ oph) ++ [(j.val, oph)]
        let third := decide ((times.filter fun p => p.1 == j.val).length ≥ 3)
        let s := modMstr s k fun m =>
          { m with flag := m.flag ||| BitVec.ofNat 3 (2 ^ j.val), flagTimes := times
                   latch := if third then m.latch ||| BitVec.ofNat 3 (2 ^ j.val) else m.latch
                   okSince := tset none m.okSince j none }
        stage s .curChannelFlagged bMEA sevWarning
          ([BitVec.ofNat 8 k.val, BitVec.ofNat 8 j.val] ++ leI 4 (chan s (3 * k + j)).word ++ leI 4 m.voted))

/-- CHANNEL_READMIT: a flagged channel that stayed within the threshold for 10 s and is not latched is admitted again
(R190). -/
def execChannelReadmit (k : Str) (j : Fin 3) (s : State) : Out :=
  .next (
    let m := mstr s k
    match tget none m.okSince j with
    | none => s
    | some t =>
      if !bitN m.flag.toNat j || bitN m.latch.toNat j || !converts s (3 * k + j) || s.now < t + 10000000 then s
      else modMstr s k fun m => { m with flag := m.flag &&& ~~~ BitVec.ofNat 3 (2 ^ j.val) })

/-- A W1C of MEA_IFk.LATCH: the channel is admitted again (R190). -/
def clearIfLatch (s : State) (k v : Nat) : State :=
  modMstr s k fun m =>
    let c := m.latch &&& BitVec.ofNat 3 (fld v 10 8)
    { m with latch := m.latch &&& ~~~ c, flag := m.flag &&& ~~~ c }

/-! ### Calibration rotation (R175 to R179, R183 to R185) -/

/-- True while the rotation pauses under R179. -/
def rotHalted (s : State) : Bool :=
  !bitN (rd s meaRotcfg []) 31 || s.mea.halted || calActive s || s.emb.mode == .drowse || !awake s

/-- True while the rotation pauses (R179), or has stopped (R178, R37). -/
def rotPaused (s : State) : Bool := rotHalted s || s.mea.rotDegr || s.kln.stopped.contains .bank

/-- Begin a pause or end one, whenever what R179 names has changed: before the switch out the step is abandoned, after
it the slot goes on to its switch back. -/
def rotNote (s : State) : State :=
  if rotPaused s then
    if s.mea.rotPhase ≤ 1 then { s with mea := { s.mea with rotPhase := 4, rotRun := false } } else s
  else if s.mea.rotPhase = 4 then { s with mea := { s.mea with rotPhase := 0, rotRun := false } }
  else s

/-- The next channel in use after c, wrapping to the lowest. -/
def nextChan (s : State) (c : Nat) : Nat :=
  match (usedChans s).find? (fun d => decide (d > c)) with
  | some d => d
  | none => (usedChans s).headD 0

/-- Where the rotation goes on from its present channel, and whether it is complete then. -/
def rotAhead (s : State) : Nat × Bool := let a := nextChan s s.mea.rotCh; (a, decide (a ≤ s.mea.rotCh))

/-- Go on where the rotation has stopped to return to skipped channels. -/
def rotOn (s : State) (a : Nat × Bool) : State :=
  { s with mea := { s.mea with rotCh := a.1, rotPhase := 0, rotRun := false, rotAfter := none
                               rotCnt := if a.2 then wrap 16 s.mea.rotCnt else s.mea.rotCnt } }

/-- Go on after a slot: back to the channel skipped last, or forward from where the rotation stands (R183). -/
def rotNext (s : State) : State :=
  let a := s.mea.rotAfter.getD (rotAhead s)
  match s.mea.rotReturn with
  | c :: t => { s with mea := { s.mea with rotReturn := t, rotAfter := some a, rotCh := c, rotPhase := 0, rotRun := false } }
  | [] => rotOn s a

/-- Stop the rotation until the next cold start (R178). -/
def rotStop (s : State) : State :=
  { s with mea := { s.mea with rotDegr := true, rotDegrOph := s.emb.oph.toNat, rotPhase := 4, rotRun := false } }

/-- The median of the reference results that are not excluded, or the mean of two (R185, R186). -/
def refVote (excl : BitVec 3) (v : List Int) : Option Int :=
  let l := ((List.range 3).filter fun i => !bitN excl.toNat i).map fun i => v.getD i 0
  match l with
  | [a] => some a
  | l => vote l

/-- A slice's gain in ppb of nominal and offset in nV from its calibration readings (R185); `fv` is the free value of a
gain whose reading equals that of zero, for which the manual states none (assumption 67). -/
def sliceCal (s : State) (fv : Nat) (old : SliceS) (r : CalReadings) : SliceS :=
  let g (e : Nat) (x : Int) : Int :=
    if x = r.zero then sgn 64 fv else rdiv (((calRec s e).value : Int) * 1000000000) (x - r.zero)
  let gain := (refVote s.mea.excl [g 24 r.refA, g 25 r.refB, g 26 r.refC]).getD old.gain
  { old with gain := if s.mea.refFail then old.gain else gain, off := r.zero, calibrated := true }

/-- True when a new calibration marks the slice faulty (R178). -/
def calFaulty (old new : SliceS) : Bool :=
  old.calibrated && (decide ((new.gain - old.gain).natAbs > 100000) ||
    decide ((new.off - old.off).natAbs * 20000 > Config.sliceSpan))

/-- Calibrate a slice; a faulty one is marked, recorded and stops the rotation, and keeps its last calibration. -/
def calibrate (s : State) (i : Nat) (r : CalReadings) : Bool × State :=
  let old := sliceOf s i
  let (fv, s) := if r.refA = r.zero ∨ r.refB = r.zero ∨ r.refC = r.zero then drawFree s else (0, s)
  let new := sliceCal s fv old r
  if calFaulty old new then
    let s := rotStop (modSlice s i fun _ => { old with faulty := true })
    (true, stage s .sliceFault bMEA sevFault ([BitVec.ofNat 8 i] ++ leI 4 new.gain ++ leI 4 new.off))
  else (false, modSlice s i fun _ => new)

/-- The string whose injections use channel c. -/
def injStr (c : Nat) : Option Nat := if 16 ≤ c ∧ c < 20 then some (c - 16) else none

/-- True when an injection runs or waits on the input of channel c. -/
def injPending (s : State) (c : Nat) : Bool :=
  match injStr c with
  | some k => (mstr s k).running.isSome || !(mstr s k).waiting.isEmpty
  | none => false

/-- True when an injection runs on the input of channel c. -/
def injRunning (s : State) (c : Nat) : Bool :=
  match injStr c with
  | some k => (mstr s k).running.isSome
  | none => false

/-- ROTATION_SLOT_START: the slot of the next channel in use begins; the spare calibrates itself (R174, R175). -/
def execRotationSlotStart (s : State) : Out :=
  .next (
    let s := rotNote s
    if rotPaused s || s.mea.rotRun || s.mea.rotPhase != 0 || (usedChans s).isEmpty then s
    else
      let c := if inUse s s.mea.rotCh then s.mea.rotCh else nextChan s s.mea.rotCh
      { s with mea := { s.mea with rotCh := c, rotRun := true, rotAt := s.now } })

/-- Skip channel c because an injection is pending or running on its input (R183). -/
def rotSkip (s : State) (c : Nat) : State :=
  let row := tget 0 s.mea.skipRow c + 1
  let back := decide (row < 4)
  let s := { s with mea := { s.mea with rotSkip := inc16 s.mea.rotSkip
                                        skipRow := tset 0 s.mea.skipRow c (if back then row else 0) } }
  let s := rotOn s (s.mea.rotAfter.getD (rotAhead s))
  if back then { s with mea := { s.mea with rotReturn := c :: s.mea.rotReturn } }
  else stage s .calStarved bMEA sevNotice [BitVec.ofNat 8 c]

/-- A phase of the slot begins. -/
def rotBegin (s : State) (phase : Nat) : State :=
  { s with mea := { s.mea with rotPhase := phase, rotAt := s.now, ovN := 0, ovSlice := 0, ovSpare := 0 } }

/-- ROTATION_SPARE_CONNECT: 48 ms into a slot the spare's own calibration ends; unless an injection is pending the
spare connects and overlap in begins (R175, R178, R183). -/
def execRotationSpareConnect (spare : CalReadings) (s : State) : Out :=
  .next (
    let s := rotNote s
    if !s.mea.rotRun || s.mea.rotPhase != 0 || s.now < s.mea.rotAt + 48000 then s
    else
      let (bad, s) := calibrate s 24 spare
      if bad then s
      else if injPending s s.mea.rotCh then rotSkip s s.mea.rotCh
      else rotBegin { s with mea := { s.mea with skipRow := tset 0 s.mea.skipRow s.mea.rotCh 0 } } 1)

/-- True when an overlap of 1 ms has ended with no injection in it (R184), with its ten precision instants (R176). -/
def overlapDone (s : State) (phase : Nat) : Bool :=
  s.mea.rotRun && s.mea.rotPhase == phase && decide (s.now ≥ s.mea.rotAt + 1000) && decide (s.mea.ovN ≥ 10) &&
    !injRunning s s.mea.rotCh

/-- The mean of an overlap's words. -/
def ovMean (s : State) (sum : Int) : Int := rdiv sum s.mea.ovN

/-- ROTATION_SWITCH_OUT: the channel's words switch to the spare with the trim m (R176). -/
def execRotationSwitchOut (s : State) : Out :=
  .next (
    let s := rotNote s
    if !overlapDone s 1 then s
    else
      let m := ovMean s s.mea.ovSlice - ovMean s s.mea.ovSpare
      rotBegin (modChan s s.mea.rotCh fun ch => { ch with slice := some 24, trim := m }) 2)

/-- |m| above MATCH_TOL is recorded (R178). -/
def matchCheck (s : State) (c : Nat) : State :=
  let m := (chan s c).trim
  if m.natAbs * 1000000 > rdf s meaRotcfg [] 23 16 * (2 * chanLimit c * 1000).natAbs then
    stage s .sliceMismatch bMEA sevWarning ([BitVec.ofNat 8 c] ++ leI 4 (rdiv m 1000) ++ [BitVec.ofNat 8 c, 24])
  else s

/-- ROTATION_RECONNECT: slice c's calibration ends; a faulty slice leaves the spare on the channel for good, else |m| is
compared and overlap out begins (R175, R178, R185). -/
def execRotationReconnect (slice : CalReadings) (s : State) : Out :=
  .next (
    if !s.mea.rotRun || s.mea.rotPhase != 2 || s.now < s.mea.rotAt + 200000 then s
    else
      let (bad, s) := calibrate s s.mea.rotCh slice
      if bad then s else rotBegin (matchCheck s s.mea.rotCh) 3)

/-- ROTATION_SWITCH_BACK: the words switch back to slice c, the difference d is removed over T_SLEW, and the slot ends
(R175, R176). A pause that came during the slot begins here (R179). -/
def execRotationSwitchBack (s : State) : Out :=
  .next (
    if !overlapDone s 3 then s
    else
      let d := ovMean s s.mea.ovSpare - ovMean s s.mea.ovSlice
      let s := modChan s s.mea.rotCh fun ch => { ch with slice := none, trim := 0, ramp := d, rampAt := s.now }
      if rotPaused s then { s with mea := { s.mea with rotPhase := 4, rotRun := false } } else rotNext s)

/-! ### Injected conversions (R180 to R184) -/

/-- Rank of a requester: the lanes ahead of all others. -/
def injLane (r : InjReq × Nat) : Bool := r.1 == .lanes

/-- Report the end of a host's INJECT. -/
def injFail (r : InjReq) (s : State) : State :=
  match r with
  | .host _ => { s with mea := { s.mea with res := .full } }
  | _ => s

/-- Queue a request (R181): FULL when 4 wait; a lane's request takes the place of the newest other one. -/
def injRequest (s : State) (k : Nat) (r : InjReq) (point : Nat) : Code × State :=
  let q := (mstr s k).waiting
  let put (q : List (InjReq × Nat)) : List (InjReq × Nat) :=
    if r = .lanes then q.filter injLane ++ [(r, point)] ++ q.filter (fun x => !injLane x) else q ++ [(r, point)]
  if q.length < 4 then (.ok, modMstr s k fun m => { m with waiting := put q })
  else if r = .lanes then
    match q.getLast? with
    | some x =>
      if injLane x then (.full, s) else (.ok, injFail x.1 (modMstr s k fun m => { m with waiting := put q.dropLast }))
    | none => (.full, s)
  else (.full, s)

/-- INJECTION_START: the request at the front of a string's queue starts when none runs (R180 to R182). -/
def execInjectionStart (k : Str) (s : State) : Out :=
  .next (
    let m := mstr s k
    match m.running, m.waiting with
    | none, (r, p) :: q =>
      if !awake s ∨ s.kln.stopped.contains .bank then s else
      let s := modMstr s k fun m => { m with running := some (r, p, s.now), waiting := q }
      { s with mea := { s.mea with injSaf := if r = .lanes then wrap 16 s.mea.injSaf else s.mea.injSaf
                                   injOther := if r = .lanes then s.mea.injOther else wrap 16 s.mea.injOther } }
    | _, _ => s)

/-- Deliver an injection's result to a requester other than the lanes. -/
def injDeliver (r : InjReq) (mv : Int) (s : State) : State :=
  match r with
  | .host _ => { s with mea := { s.mea with injVal := mv, res := .ok } }
  | .iso => { s with mea := { s.mea with isoU := mv, isoGot := true } }
  | .lanes => s
  | .logic => s

/-- The multiplexer has returned: VBk's control words stay held for 20 µs and its precision words as long as their
filter window touches that time, and an overlap of the rotation on this input starts again (R182, R184). -/
def injReturn (s : State) (k : Nat) : State :=
  let s := modMstr s k fun m => { m with ctlHold := s.now + 20, vbHold := s.now + 20 + 500 }
  if s.mea.rotRun ∧ s.mea.rotCh = 16 + k ∧ (s.mea.rotPhase = 1 ∨ s.mea.rotPhase = 3) then
    let s := rotBegin s s.mea.rotPhase
    { s with mea := { s.mea with rotAt := s.now + 20, restart := inc16 s.mea.restart } }
  else s

/-- The injection that runs on a string ends: 11 µs after its start, within the 10.5 to 11.5 µs of R180. -/
def injEnd (s : State) (k : Nat) : Option (InjReq × Nat × State) :=
  match (mstr s k).running with
  | some (r, p, t) =>
    if !awake s ∨ s.now < t + 11 then none
    else some (r, p, injReturn (modMstr s k fun m => { m with running := none }) k)
  | none => none

/-! ### Commands of MEA_CMD -/

/-- MEA_RES. -/
def meaRes (c : Code) (s : State) : State := { s with mea := { s.mea with res := c } }

/-- Rights of MEA_CMD: maintenance. -/
def meaRight (w : Win) : State → Bool := rightOne w rMaint

/-- ROT_HALT. -/
def opRotHalt (s : State) : Code × State := okCmd (rotNote { s with mea := { s.mea with halted := true } })

/-- ROT_RESUME. -/
def opRotResume (s : State) : Code × State := okCmd (rotNote { s with mea := { s.mea with halted := false } })

/-- INJECT: REFUSED_MODE in EMBER, RANGE for POINT 3, NOT_PRESENT for a string not fitted (R14's order). RES reads
BUSY until it completes. -/
def opInject (w : Win) (k : Nat) (point : Nat) (s : State) : Code × State :=
  ifOk (firstCode [when_ (!strOk s k || s.kln.stopped.contains .bank) .notPresent, when_ (inEmber s) .refusedMode, rng (decide (point < 3))]) s
    fun s =>
      let (c, s) := injRequest s k (.host w) point
      (if c = .ok then .busy else c, s)

/-- The result of an INJECT: BUSY is a command accepted and still running. -/
def acceptBusy (r : Code × State) : Code × State := (if r.1 = .busy then .ok else r.1, r.2)

/-- ROT_HALT (R179). -/
def execRotHalt (w : Win) (s : State) : Out := .next (hostCmd w 0x60000 (cmdReq (meaRight w) meaRes opRotHalt) s)

/-- ROT_RESUME (R179). -/
def execRotResume (w : Win) (s : State) : Out :=
  .next (hostCmd w 0x60000 (cmdReq (meaRight w) meaRes opRotResume) s)

/-- INJECT as a command request: RES keeps BUSY while the window's result is OK. -/
def injectReq (w : Win) (k point : Nat) (s : State) : Code × State :=
  acceptBusy (cmdReq (meaRight w) meaRes (opInject w k point) s)

/-- INJECT (R180, R181). -/
def execInject (w : Win) (k : Str) (point : BitVec 2) (s : State) : Out :=
  .next (hostCmd w 0x60000 (injectReq w k point.toNat) s)

/-! ### Insulation monitor (R194 to R196) -/

/-- True while the monitor may switch its bleeder: EN set, awake, and the lease held in a paired module (R196). -/
def isoMay (s : State) : Bool := bitN (rd s meaIsocfg []) 31 && awake s && leaseValid s

/-- A string whose channels the monitor may measure: fitted. -/
def isoFirst (s : State) : Nat := rdf s meaIsocfg [] 9 8

/-- Ask for U of the string measured; a request that finds the queue full is repeated (R194). -/
def isoAsk (s : State) : State :=
  let k := s.mea.isoStr
  let open_ := (match (mstr s k).running with | some (r, _) => r == .iso | none => false) ||
    (mstr s k).waiting.any fun x => x.1 == .iso
  if s.mea.isoGot || open_ then s else (injRequest s k .iso 0).2

/-- A bleeder state begins (R194). -/
def isoEnter (s : State) (k st : Nat) : State :=
  isoAsk { s with mea := { s.mea with isoStr := k, isoState := st, isoSince := s.now, isoGot := false, isoHist := [] } }

/-- Begin state 1 of a measurement of string k. -/
def isoBegin (s : State) (k : Nat) : State := isoEnter s k 1

/-- The monitor at a precision instant: it starts when it may run and idles, stops when it may not run, asks for U and
keeps ISP and ISN (R194, R196). -/
def isoKick (s : State) : State :=
  if s.kln.stopped.contains .bank then s
  else if isoMay s then
    if s.mea.isoState = 0 then (if strOk s (isoFirst s) then isoBegin s (isoFirst s) else s)
    else
      isoAsk { s with mea := { s.mea with isoHist := ((chan s 20).word, (chan s 21).word) :: s.mea.isoHist.take 4999 } }
  else if s.mea.isoState = 0 then s
  else { s with mea := { s.mea with isoState := 0, isoHist := [] } }

/-- ISP has changed by at most 0.1 % of U over the last 500 ms (R194). DEDUCED (assumption 37): its highest and lowest word of that time
lie no further apart. -/
def isoSettled (s : State) : Bool :=
  match s.mea.isoHist.map (·.1) with
  | [] => false
  | a :: t =>
    decide ((t.foldl max a - t.foldl min a) * 1000 ≤ (s.mea.isoU.natAbs : Int)) && s.mea.isoGot &&
      decide (s.mea.isoHist.length = 5000)

/-- The mean over the last 100 ms (R194). -/
def isoMean (l : List Int) : Int := rdiv (sumI (l.take 1000)) (max 1 (l.take 1000).length : Nat)

/-- The string measured next: the next fitted one with CYCLE, else STR. -/
def isoNext (s : State) : Nat :=
  if bitN (rd s meaIsocfg []) 30 then
    ((strs s).find? fun k => decide (k > s.mea.isoStr)).getD ((strs s).headD 0)
  else isoFirst s

/-- ISO_NOW: abandon and restart the measurement of STR. -/
def opIsoNow (k : Nat) (s : State) : Code × State :=
  ifOk (when_ (!strOk s k || s.kln.stopped.contains .bank) .notPresent) s fun s => (.ok, if isoMay s then isoBegin s k else s)

/-- ISO_NOW (R194). -/
def execIsoNow (w : Win) (k : Str) (s : State) : Out :=
  .next (hostCmd w 0x60000 (cmdReq (meaRight w) meaRes (opIsoNow k)) s)

/-- det of R194. -/
def isoDet (vp1 vn1 vp2 vn2 : Int) : Int := vp1 * vn2 - vn1 * vp2

/-- Conductances gp and gn in pS from the two states; none where the divisor is 0 (R194). -/
def isoG (s : State) (k : Nat) (vp1 vn1 u1 vp2 vn2 u2 : Int) : Option (Int × Int) :=
  let det := isoDet vp1 vn1 vp2 vn2
  let rb : Int := (calRec s 29).value
  let gin (e : Nat) : Int := (calRec s e).value
  if rb * det = 0 then none
  else some (rdiv (-(1000000000000000 * vn2 * u1)) (rb * det) - gin (30 + 3 * k) - gin 42,
             rdiv (1000000000000000 * vp1 * u2) (rb * det) - gin (31 + 3 * k) - gin 43)

/-- R_iso in kΩ, rp and rn in 10 kΩ units. Where gp and gn divide by 0 the manual states no rp and rn: free values
(assumption 67). -/
def isoResult (det : Int) (g : Option (Int × Int)) (s : State) : (Nat × Nat × Nat) × State :=
  match g with
  | none =>
    let (a, s) := drawFree s
    let (b, s) := drawFree s
    ((0xFFFFFF, a % 5001, b % 5001), s)
  | some (gp, gn) =>
    let r (x : Int) : Nat := (rdiv 100000000 (max x 20000)).toNat
    ((if det ≤ 0 ∨ gp + gn ≤ 20000 then 0xFFFFFF else (rdiv 1000000000 (gp + gn)).toNat, r gp, r gn), s)

/-- Publish a measurement and compare it with the thresholds (R195). -/
def isoPublish (s : State) (k : Nat) (det : Int) (g : Option (Int × Int)) : State :=
  let ((r, rp, rn), s) := isoResult det g s
  let thr := rd s meaIsothr []
  let warn := decide (r < fld thr 31 16)
  let alarm := decide (r < fld thr 15 0)
  let s := modMstr s k fun m =>
    { m with isoStat := if alarm then 3 else if warn then 2 else 1, isoR := r, isoRp := rp, isoRn := rn, isoAt := s.now }
  let data := BitVec.ofNat 8 k :: leB 3 r
  let s := if warn then stage s .isoWarn bMEA sevWarning data else s
  if alarm then raise (stage s .isoAlarm bMEA sevFault data) .isoAlarm else s

/-- Go on with the next measurement. -/
def isoGoOn (s : State) : State :=
  let k := isoNext s
  if isoMay s && strOk s k then isoBegin s k else { s with mea := { s.mea with isoState := 0 } }

/-- ISO_STATE_END: a bleeder state ends settled after 1 s or unsettled at 10 s, not while an injection runs on the
string; after state 2 R_iso is computed and compared (R194 to R196). -/
def execIsoStateEnd (s : State) : Out :=
  .next (
    let m := s.mea
    let t := s.now - m.isoSince
    let settled := isoSettled s
    let vp := isoMean (m.isoHist.map (·.1))
    let vn := isoMean (m.isoHist.map (·.2))
    if !awake s ∨ m.isoState = 0 ∨ t < 1000000 ∨ (¬ settled ∧ t < 10000000) ∨ (mstr s m.isoStr).running.isSome then s
    else if !isoMay s then { s with mea := { s.mea with isoState := 0, isoHist := [] } }
    else if !settled then
      isoGoOn (modMstr s m.isoStr fun x => { x with isoStat := 4, isoAt := s.now })
    else if m.isoState = 1 then
      isoEnter { s with mea := { m with isoVp1 := vp, isoVn1 := vn, isoU1 := m.isoU } } m.isoStr 2
    else isoGoOn (isoPublish s m.isoStr (isoDet m.isoVp1 m.isoVn1 vp vn)
      (isoG s m.isoStr m.isoVp1 m.isoVn1 m.isoU1 vp vn m.isoU)))

/-! ### References (R185 to R188) -/

/-- Seconds of the current run of a reference above 3 ppm. -/
def refTimer (s : State) (x : Nat) : Nat := tget 0 s.mea.refTimer x

/-- Exclude a reference at once or after its 10 min (R186). -/
def excludeRef (s : State) (x : Nat) : State :=
  stage { s with mea := { s.mea with excl := s.mea.excl ||| BitVec.ofNat 3 (2 ^ x) } } .refExcluded bMEA sevWarning
    (BitVec.ofNat 8 x :: leI 2 (tget 0 s.mea.refDev x))

/-- The common denominator of the deviations of a second: they are exact fractions of 0.01 ppm, and so is the mean of
two (R186, R187). -/
def refDen (s : State) : Nat := 2 * max 1 s.mea.refNB * max 1 s.mea.refNC

/-- δ_A, δ_B and δ_C of the last second over `refDen`: the means of the words of RCB and RCC. -/
def refNum (s : State) : List Int :=
  [0, 2 * s.mea.refSB * (max 1 s.mea.refNC : Nat), 2 * s.mea.refSC * (max 1 s.mea.refNB : Nat)]

/-- The deviation of reference x from the median over the references not excluded, over `refDen`. -/
def refOff (s : State) (x : Nat) : Int := (refNum s).getD x 0 - (refVote s.mea.excl (refNum s)).getD 0

/-- The run of one reference above 3 ppm; while WARMING is set it stands still (R186). -/
def refRun (s : State) (x : Nat) : Nat :=
  if s.trc.warming then refTimer s x else if (refOff s x).natAbs > 300 * refDen s then inc16 (refTimer s x) else 0

/-- REF_EVALUATION: once a second the deviations from the median, and the runs above 3 ppm. After WARMING a reference
whose oven is outside 55 °C ±1 K is excluded at once (R186, R187). -/
def execRefEvaluation (ovens : BitVec 3) (s : State) : Out :=
  .next (
    if !awake s ∨ s.now < s.mea.refAt + 1000000 then s
    else
      let devs := (List.range 3).map fun x => (x, rdiv (refOff s x) (refDen s), refRun s x)
      let s := devs.foldl (fun s (x, d, run) => { s with mea := { s.mea with
        refDev := tset 0 s.mea.refDev x d, refTimer := tset 0 s.mea.refTimer x run } }) s
      let s := { s with mea := { s.mea with ovenOk := ovens, refAt := s.now, refNB := 0, refSB := 0, refNC := 0, refSC := 0 } }
      if s.trc.warming then s
      else (List.range 3).foldl (fun s x =>
        if bitN s.mea.excl.toNat x || bitN ovens.toNat x then s else excludeRef s x) s)

/-- REF_EXCLUSION: a reference above 3 ppm at every evaluation for 10 min is excluded (R186); with one already excluded
R187 applies instead. -/
def execRefExclusion (x : Fin 3) (s : State) : Out :=
  .next (
    if refTimer s x < 600 || bitN s.mea.excl.toNat x || popcount 3 s.mea.excl.toNat ≥ 1 || s.trc.warming then s
    else excludeRef s x)

/-- REF_FAIL: with one reference excluded, the half-difference of the other two has been above 3 ppm for 10 min; slice
calibrations update offsets only from then on (R187). -/
def execRefFail (s : State) : Out :=
  .next (
    let rest := (List.range 3).filter fun x => !bitN s.mea.excl.toNat x
    if s.mea.refFail || popcount 3 s.mea.excl.toNat != 1 || !(rest.all fun x => decide (refTimer s x ≥ 600)) then s
    else stage { s with mea := { s.mea with refFail := true, refFailSince := some s.now } } .refFail bMEA sevFault
      [BitVec.ofNat 8 s.mea.excl.toNat])

/-! ### Status words -/

/-- MEA_STAT. -/
def meaStat (s : State) : Nat :=
  flag s.trc.warming 31 + flag (rotHalted s) 30 + flag s.mea.rotDegr 29 + flag s.mea.refFail 28 +
    flag (s.emb.mode == .drowse) 27 + bitsOf 4 fun k => (mstr s k).running.isSome

/-- MEA_ROT. -/
def meaRot (s : State) : Nat :=
  place s.mea.rotCh 31 27 + place s.mea.rotPhase 26 24 + place (serving s s.mea.rotCh) 23 19 + s.mea.rotCnt % 65536

/-- MEA_ISORk: STAT reads 5 when no result came within 60 s while EN is set. -/
def meaIsor (s : State) (k : Nat) : Nat :=
  let m := mstr s k
  let stale := decide (m.isoStat ≠ 0) && bitN (rd s meaIsocfg []) 31 && decide (s.now > m.isoAt + 60000000)
  place (if stale then 5 else m.isoStat) 31 28 + place m.isoR 23 0

/-- The bank at cold start and Kindling (R173, R178, R197): every channel on its own slice, but at Kindling the spare
stays on the channel of a faulty slice; rotation from the lowest, no injection, no measurement; the LATCH and EXCL bits
are retained. DESIGN CHOICE (assumption 74): flags that are not latched, and the times of earlier flags, are forgotten,
since R190 retains LATCH alone. -/
def meaStart (s : State) (cold : Bool) : State :=
  let m := s.mea
  let keep : Tab MeaStr := m.strs.map fun (k, x) => (k, { ({} : MeaStr) with latch := x.latch, flag := x.latch })
  let keep := keep.filter fun p => p.2 != {}
  { s with mea := { ({} : Mea) with
      excl := m.excl, strs := keep, slices := if cold then [] else m.slices
      chans := if cold then [] else
        (m.chans.filter fun p => (sliceOf s p.1).faulty).map fun p => (p.1, { ({} : ChanS) with slice := p.2.slice })
      rotDegr := !cold && m.rotDegr, rotDegrOph := if cold then 0 else m.rotDegrOph
      rotPhase := if !cold && m.rotDegr then 4 else 0
      isoState := 0, refAt := s.now } }

end Sys2Proof.Machine
end

