-- ==== Sys2Proof/Machine/Trc.lean ====
section
/-!
DEFINITION. Traceability and in-situ calibration (chapter 7): WARMING, calibration records, CALIBRATE and the J5
transfer-standard port.
-/

namespace Sys2Proof.Machine

/-- BLOCK code of TRC. -/
def bTRC : Byte := 0x07

/-- Change the traceability unit. -/
def modTrc (s : State) (f : Trc → Trc) : State := { s with trc := f s.trc }

/-- WARMING is set and its 1800 s of Ember ticks start (R201). -/
def startWarming (s : State) : State := modTrc s fun t => { t with warming := true, warmAt := some s.emb.ticks }

/-- Ember ticks in 1800 s (R64: 32,768 a second). -/
def warmTicks : Nat := 1800 * 32768

/-- WARMING_END: 1800 s of Ember ticks after the ovens were switched on, WARMING clears; a reference whose oven is
outside its band is excluded (R186, R201). -/
def execWarmingEnd (s : State) : Out :=
  .next (
    match s.trc.warmAt with
    | none => s
    | some t =>
      if !s.trc.warming || s.emb.ticks < t + warmTicks then s
      else
        let s := modTrc s fun t => { t with warming := false, warmAt := none }
        (List.range 3).foldl (fun s x =>
          if bitN s.mea.excl.toNat x || bitN s.mea.ovenOk.toNat x then s else excludeRef s x) s)

/-- CAL_AGED: 720 h of OPH after ROT_DEGR set (R200). -/
def execCalAged (s : State) : Out :=
  .next (
    if s.mea.rotDegr && !s.trc.calAged && decide (s.emb.oph.toNat ≥ s.mea.rotDegrOph + 720 * 3600) then
      modTrc s fun t => { t with calAged := true }
    else s)

/-! ### Records -/

/-- Write one copy of a record, copy B or copy A. -/
def putCopy (e : Nat) (b : Bool) (r : CalRec) (s : State) : State :=
  modTrc s fun t =>
    if b then { t with recB := tset (factoryRec e) t.recB e r, badB := t.badB.filter (· != e) }
    else { t with recA := tset (factoryRec e) t.recA e r, badA := t.badA.filter (· != e) }

/-- The second copy of a change is written (R204). -/
def trcSecond (s : State) : State :=
  match s.trc.second with
  | some (e, b, r) => modTrc (putCopy e b r s) fun t => { t with second := none }
  | none => s

/-- REV of a copy, 0 of one that fails its CRC. -/
def copyRev (s : State) (e : Nat) (b : Bool) : Nat :=
  if (if b then s.trc.badB else s.trc.badA).contains e then 0
  else (tget (factoryRec e) (if b then s.trc.recB else s.trc.recA) e).rev

/-- Write a record: first the copy with the lower REV, or B when equal, then the other, within the next µs (R204). A
brown-out between the two leaves the other copy as it was. -/
def putRec (s : State) (e : Nat) (r : CalRec) : State :=
  let s := trcSecond s
  let b := decide (copyRev s e true ≤ copyRev s e false)
  modTrc (putCopy e b r s) fun t => { t with second := some (e, !b, r) }

/-- The entries both of whose copies fail: TRC_RECBAD (R204). -/
def recBad (s : State) : List Nat := s.trc.badA.filter s.trc.badB.contains

/-- The 128 bytes of a record (*Table: Calibration record*). -/
def CalRec.bytes (e : Nat) (r : CalRec) : List Byte :=
  let b := [BitVec.ofNat 8 e, BitVec.ofNat 8 r.source, 0, 0] ++ leB 4 r.rev ++ leI 4 r.gcorr ++ leI 4 r.ocorr ++
    leB 4 r.value ++ leB 4 r.u ++ leB 8 r.ntime.toNat ++ leB 4 r.oph.toNat ++ leB 4 r.calid.toNat ++
    List.replicate 84 0
  b ++ leB 4 (crc32c b)

/-- Stamp a changed record. -/
def CalRec.changed (r : CalRec) (s : State) (src : Nat) : CalRec :=
  { r with source := src, rev := r.rev + 1, ntime := s.tim.now, oph := s.emb.oph, calid := wd (rd s trcCalid []) }

/-- The audit payload (*Table: Calibration audit payload*). -/
def calAudit (s : State) (e : Nat) (w : Win) (verdict rev : Nat) (gb ga dev : Int) (u : Nat) : List Byte :=
  [BitVec.ofNat 8 e, BitVec.ofNat 8 w.val, BitVec.ofNat 8 verdict, 0] ++ leB 4 rev ++ leI 4 gb ++ leI 4 ga ++
    leI 4 dev ++ leB 4 u ++ leB 4 (rd s trcCalid []) ++ leB 4 (rd s trcUref [])

/-- Write the audit record and go on, or answer FULL with nothing changed (R205). -/
def audited (n : RecName) (payload : List Byte) (f : State → Code × State) (s : State) : Code × State :=
  match audit s n bTRC payload with
  | some t => f t
  | none => (.full, noteAuditFull s)

/-! ### CALIBRATE (R206) -/

/-- TRC_RES. -/
def trcRes (c : Code) (s : State) : State := modTrc s fun t => { t with res := c }

/-- The right TRC_CMD needs. -/
def trcRight (w : Win) : State → Bool := rightOne w rCal

/-- End CALIBRATE: a running operation is abandoned with REFUSED_MODE to the owner; the rotation may resume. -/
def endCal (s : State) : State :=
  let res := if s.trc.op = .idle then s.trc.res else .refusedMode
  rotNote (modTrc s fun t => { t with owner := none, op := .idle, res := res, verifs := [] })

/-- ENTER: MAINTENANCE with WARMING clear and no owner; BUSY for any other window while there is an owner. -/
def opTrcEnter (w : Win) (s : State) : Code × State :=
  match s.trc.owner with
  | some o => (if o = w then .refusedMode else .busy, s)
  | none =>
    if s.emb.mode ≠ .maintenance ∨ s.trc.warming then (.refusedMode, s)
    else (.ok, rotNote (modTrc s fun t => { t with owner := some w, verifs := [], secAt := s.now, secN := 0, secJ := 0 }))

/-- Outside CALIBRATE every other TRC_CMD returns REFUSED_MODE. -/
def trcMode (s : State) : Code := when_ (!calActive s) .refusedMode

/-- An owner that is another window, or an operation that runs, answers BUSY. -/
def trcBusy (w : Win) (s : State) : Code := when_ (s.trc.owner != some w || s.trc.op != .idle) .busy

/-- LEAVE from the owner, also while an operation runs. -/
def opTrcLeave (w : Win) (s : State) : Code × State :=
  match s.trc.owner with
  | none => (.refusedMode, s)
  | some o => (if o = w then .ok else .busy, if o = w then endCal s else s)

/-- ENTER (R206). -/
def execTrcEnter (w : Win) (s : State) : Out :=
  .next (hostCmd w 0x70000 (cmdReq (trcRight w) trcRes (opTrcEnter w)) s)

/-- LEAVE as a request: the window's result is that of LEAVE, and with an operation that it abandons TRC_RES keeps that
operation's REFUSED_MODE for the owner (R206). -/
def leaveReq (w : Win) (s : State) : Code × State :=
  let (c, t) := cmdReq (trcRight w) trcRes (opTrcLeave w) s
  (c, if c = .ok ∧ s.trc.op ≠ .idle then trcRes .refusedMode t else t)

/-- LEAVE (R206). -/
def execTrcLeave (w : Win) (s : State) : Out := .next (hostCmd w 0x70000 (leaveReq w) s)

/-! ### VERIFY and ADJUST (R208 to R211) -/

/-- True for a current or voltage entry. -/
def measEntry (e : Nat) : Bool := decide (e < 22)

/-- NOT_PRESENT for the entry of a channel that is not fitted (R5). -/
def entryGone (s : State) (e : Nat) : Code := when_ (measEntry e && !present s 6 e) .notPresent

/-- The J5 range of TRC_J5CFG. -/
def j5Range (s : State) : Nat := rdf s trcJ5cfg [] 31 31

/-- Full scale of the J5 range in TRC_J5VAL units: 11 V in 10 nV, 120 mV in 0.1 nV. -/
def j5Full (s : State) : Nat := if j5Range s = 0 then 1100000000 else 1200000000

/-- T_INT in s. -/
def tInt (s : State) : Nat := rdf s trcJ5cfg [] 25 16

/-- An operation that integrates begins: its seconds run from now (R209). -/
def opBegin (op : TrcOp) (s : State) : State :=
  modTrc s fun t => { t with op := op, secAt := s.now, secN := 0, secJ := 0, secC := 0, secs := [], opN := 0 }

/-- VERIFY of entry e starts (R208, R209): RANGE for an entry that is no current or voltage entry, a range that does
not fit it, or S equal to 0. -/
def opTrcVerify (w : Win) (e : Nat) (s : State) : Code × State :=
  ifOk (firstCode [entryGone s e, trcMode s,
      rng (measEntry e && rd s trcJ5s [] != 0 && (j5Range s == (if e < 12 then 1 else 0))), trcBusy w s]) s fun s =>
    (.busy, opBegin (.verify e s.now) s)

/-- VERIFY as a request: RES reads BUSY while the window's result is OK. -/
def verifyReq (w : Win) (e : Nat) (s : State) : Code × State :=
  acceptBusy (cmdReq (trcRight w) trcRes (opTrcVerify w e) s)

/-- VERIFY (R208, R209). -/
def execTrcVerify (w : Win) (entry : BitVec 6) (s : State) : Out :=
  .next (hostCmd w 0x70000 (verifyReq w entry.toNat) s)

/-- The J5 word of a reading of the spare slice in thousandths of a TRC_J5VAL unit, under record 27 or 28 (R207). -/
def j5Word (s : State) (raw : Int) : Int :=
  let e := 27 + j5Range s
  let r := calRec s e
  rdiv (sliceCorr s 24 e raw * (1000000000 + r.gcorr)) (1000000000 * 1000000000000) + r.ocorr

/-- The channel that the operation integrates. -/
def opChan (o : TrcOp) : Option Nat :=
  match o with
  | .idle => none
  | .verify e _ | .zero e _ => some e

/-- A precision instant in CALIBRATE: J5 is read on the spare slice, and the operation takes the words of the instant.
A second that ends gives TRC_J5VAL its mean (R207, R209). -/
def trcSample (raw : List Int) (s : State) : State :=
  if !calActive s then s
  else
    let t := s.trc
    let n := t.secN + 1
    let j := t.secJ + j5Word s (raw.getD 24 0)
    let c := t.secC + (match opChan t.op with | some e => (chan s e).word | none => 0)
    let t := { t with opN := t.opN + 1 }
    if s.now < t.secAt + 1000000 then modTrc s fun _ => { t with secN := n, secJ := j, secC := c }
    else modTrc s fun _ => { t with secAt := t.secAt + 1000000, secN := 0, secJ := 0, secC := 0
                                    j5val := rdiv j n, secs := t.secs ++ [(c, j)] }

/-- c over q × j5_scale as a fraction (R208, R209): for a current, mA over 0.1 nV by the shunt in nΩ; for a voltage, mV
over 10 nV times the ratio in 0.001. -/
def ratioOf (s : State) (e : Nat) (c q : Int) : Int × Int :=
  let sc : Int := rd s trcJ5s []
  if e < 12 then (c * sc, q * 100) else (c * 100000000, q * sc)

/-- DEV in 0.01 ppm of a ratio (R209). -/
def devOf (r : Int × Int) : Int := rdiv ((r.1 - r.2) * 100000000) r.2

/-- Twice the standard uncertainty of the mean ratio in 10⁻³ ppm (R209): stdev over √T_INT of r(s) in 10⁻⁸. -/
def uA2 (rs : List Int) : Nat :=
  let n := rs.length
  if n < 2 then 0
  else
    let sum := sumI rs
    let ss := sumI (rs.map fun r => (r * n - sum) ^ 2)
    -- (2 u_a)² in (10⁻³ ppm)²: r is in 0.01 ppm, ten such units; deviations are scaled by n
    rsqrt ((400 * ss).natAbs / (n * n * (n - 1) * n))

/-- U_J5 in 10⁻³ ppm at a mean J5 reading of q / n TRC_J5VAL units, from *Table: Measurement specifications*: a relative
part, and a floor of 1 µV on range 0, of 30 nV or 100 nV on range 1. -/
def uJ5 (s : State) (q n : Nat) : Nat :=
  let m := s.variant == .m4
  if j5Range s = 0 then (if m then 2000 else 20000) + (rdiv (100 * 1000000000 * n : Nat) q).toNat
  else (if m then 3000 else 30000) + (rdiv ((if m then 300 else 1000) * 1000000000 * n : Nat) q).toNat

/-- The verdict (R210): 1 PASS, 2 INDETERMINATE, 3 FAIL; DEV in 0.01 ppm, U and TOL in 0.1 ppm. -/
def verdictOf (dev : Int) (u tol : Nat) : Nat :=
  if dev.natAbs + 10 * u ≤ 10 * tol then 1
  else if (dev.natAbs : Int) - 10 * u > 10 * tol then 3
  else 2

/-- DEV of the VERIFY that has integrated (R209). Every second holds the same number of instants, so that the sums stand
for the means. -/
def verifyDev (s : State) (e : Nat) : Int :=
  devOf (ratioOf s e (sumI (s.trc.secs.map (·.1))) (sumI (s.trc.secs.map (·.2))))

/-- U of the VERIFY that has integrated, in 0.1 ppm (R209). With a second whose J5 mean is 0 the manual states no r(s)
and so no U: a free value (assumption 67). -/
def verifyU (s : State) (e : Nat) : Nat × State :=
  if s.trc.secs.any fun p => p.2 == 0 then
    let (x, s) := drawFree s
    (x % 2 ^ 24, s)
  else
    let ua := uA2 (s.trc.secs.map fun p => devOf (ratioOf s e p.1 p.2))
    let uj := uJ5 s (sumI (s.trc.secs.map (·.2))).natAbs s.trc.opN
    let ur := 100 * rd s trcUref []
    (min (2 ^ 24 - 1) (rdiv (rsqrt (ur * ur + uj * uj + ua * ua)) 100).toNat, s)

/-- TRC_VERIFY_COMPLETE: at the end of T_INT the module writes CAL_VERIFY and then publishes DEV, U and the verdict
(R205, R209, R210). A mean J5 reading below 10 % of the range ends it with RANGE (R208). -/
def execTrcVerifyComplete (s : State) : Out :=
  .next (
    match s.trc.op, s.trc.owner with
    | .verify e t, some w =>
      if !awake s ∨ s.now < t + 1000000 * tInt s ∨ s.trc.secs.length < tInt s then s
      else
        let q := (sumI (s.trc.secs.map (·.2))).natAbs
        let (c, s) :=
          if q * 10 < j5Full s * s.trc.opN then (.range, s)
          else
            let (u, s) := verifyU s e
            let dev := verifyDev s e
            let v := verdictOf dev u (rdf s trcJ5cfg [] 15 0)
            let r := calRec s e
            audited .calVerify (calAudit s e w v r.rev r.gcorr r.gcorr dev u) (fun s =>
              (.ok, modTrc s fun t =>
                { t with dev := dev, vU := u, verdict := v, vEntry := e
                         verifs := tset none t.verifs e (some { dev := dev, u := u, at_ := s.now }) })) s
        modTrc s fun t => { t with op := .idle, res := c }
    | _, _ => s)

/-- The adjusted GCORR in ppb (R211). -/
def gcorrNew (g dev : Int) : Int :=
  rdiv ((1000000000 + g) * 100000000) (100000000 + dev) - 1000000000

/-- ADJUST (R211): the last VERIFY of the entry, from this stay and at most 600 s old, else EXPIRED. -/
def opTrcAdjust (w : Win) (e : Nat) (s : State) : Code × State :=
  ifOk (firstCode [entryGone s e, trcMode s, rng (measEntry e), trcBusy w s]) s fun s =>
    match tget none s.trc.verifs e with
    | none => if auditFullNow s then (.full, noteAuditFull s) else (.expired, s)
    | some x =>
      let r := calRec s e
      let g := gcorrNew r.gcorr x.dev
      let r' := { r.changed s 2 with gcorr := g, u := x.u }
      if g.natAbs > 5000000 then (.range, s)
      else if auditFullNow s then (.full, noteAuditFull s)
      else if s.now > x.at_ + 600000000 then (.expired, s)
      else audited .calAdjust (calAudit s e w 0 r'.rev r.gcorr g x.dev x.u) (fun s => (.ok, putRec s e r')) s

/-- ADJUST (R204, R205, R211, R213). -/
def execTrcAdjust (w : Win) (entry : BitVec 6) (s : State) : Out :=
  .next (hostCmd w 0x70000 (cmdReq (trcRight w) trcRes (opTrcAdjust w entry.toNat)) s)

/-! ### ZERO, REF_ADJUST and REF_READMIT (R212) -/

/-- The string of a current or voltage entry, none for ISP and ISN. -/
def entryStr (e : Nat) : Option Nat :=
  if e < 12 then some (e / 3) else if e < 20 then some (e % 4) else none

/-- The contactors R212 asks for: of the entry's string, or of every string for ISP and ISN. -/
def zeroOpen (s : State) (e : Nat) : Bool :=
  match entryStr e with
  | some k => ctrOpen s k
  | none => allOpen s

/-- ZERO of entry e starts: the string's contactors open. -/
def opTrcZero (w : Win) (e : Nat) (s : State) : Code × State :=
  ifOk (firstCode [entryGone s e, trcMode s, when_ (measEntry e && !zeroOpen s e) .refusedMode, rng (measEntry e), trcBusy w s]) s fun s =>
    (.busy, opBegin (.zero e s.now) s)

/-- ZERO as a request. -/
def zeroReq (w : Win) (e : Nat) (s : State) : Code × State :=
  acceptBusy (cmdReq (trcRight w) trcRes (opTrcZero w e) s)

/-- ZERO (R212). -/
def execTrcZero (w : Win) (entry : BitVec 6) (s : State) : Out :=
  .next (hostCmd w 0x70000 (zeroReq w entry.toNat) s)

/-- The mean of the channel's words over the seconds that the operation has integrated. -/
def opMean (s : State) : Int := rdiv (sumI (s.trc.secs.map (·.1))) (max 1 s.trc.opN : Nat)

/-- TRC_ZERO_COMPLETE: OCORR := OCORR − mean, audited with OCORR after (R205, R212). -/
def execTrcZeroComplete (s : State) : Out :=
  .next (
    match s.trc.op, s.trc.owner with
    | .zero e t, some w =>
      if !awake s ∨ s.now < t + 1000000 * tInt s ∨ s.trc.secs.length < tInt s then s
      else
        let r := calRec s e
        let o := r.ocorr - opMean s
        let r' := { r.changed s 3 with ocorr := o }
        let (c, s) := audited .calZero (calAudit s e w 0 r'.rev r.gcorr r.gcorr o r.u)
          (fun s => (.ok, putRec s e r')) s
        modTrc s fun t => { t with op := .idle, res := c }
    | _, _ => s)

/-- V_cal × V_std / reading where it fits VALUE; where the reading is 0 or the result does not fit, the manual states no
VALUE: a free value (assumption 67). -/
def refValue (v : Nat) (reading vstd : Int) (s : State) : Nat × State :=
  let x := rdiv ((v : Int) * vstd) reading
  if reading ≠ 0 ∧ 0 ≤ x ∧ x < 2 ^ 32 then (x.toNat, s)
  else
    let (f, s) := drawFree s
    (f % 2 ^ 32, s)

/-- REF_ADJUST for entries 24 to 26 on J5 range 0 (R212): V_cal := V_cal × V_std / reading, read with reference x
alone. -/
def opTrcRefAdjust (w : Win) (e : Nat) (reading vstd : Int) (s : State) : Code × State :=
  ifOk (firstCode [trcMode s,
      rng (decide (24 ≤ e) && decide (e ≤ 26) && (j5Range s == 0)), trcBusy w s]) s
    fun s =>
      let r := calRec s e
      let (v, s) := refValue r.value reading vstd s
      let r' := { r.changed s 2 with value := v, u := rd s trcUref [] }
      let dev := rdiv (((v : Int) - r.value) * 100000000) (max 1 r.value)
      audited .refAdjust (calAudit s e w 0 r'.rev r.gcorr r.gcorr dev r'.u) (fun s => (.ok, putRec s e r')) s

/-- REF_ADJUST (R212). -/
def execTrcRefAdjust (w : Win) (entry : BitVec 6) (reading vstd : Int) (s : State) : Out :=
  .next (hostCmd w 0x70000 (cmdReq (trcRight w) trcRes (opTrcRefAdjust w entry.toNat reading vstd)) s)

/-- REF_READMIT (R188): the reference is admitted, REF_FAIL clears when two are then admitted. -/
def opTrcRefReadmit (w : Win) (e : Nat) (s : State) : Code × State :=
  ifOk (firstCode [trcMode s, rng (decide (24 ≤ e) && decide (e ≤ 26)), trcBusy w s]) s fun s =>
    let r := calRec s e
    audited .refReadmit (calAudit s e w 0 r.rev r.gcorr r.gcorr 0 r.u) (fun s =>
      let excl := s.mea.excl &&& ~~~ BitVec.ofNat 3 (2 ^ (e - 24))
      let two := decide (popcount 3 excl.toNat ≤ 1)
      (.ok, { s with mea := { s.mea with
          excl := excl, refTimer := tset 0 s.mea.refTimer (e - 24) 0
          refFail := s.mea.refFail && !two, refFailSince := if two then none else s.mea.refFailSince } })) s

/-- REF_READMIT (R188, R205, R212). -/
def execTrcRefReadmit (w : Win) (entry : BitVec 6) (s : State) : Out :=
  .next (hostCmd w 0x70000 (cmdReq (trcRight w) trcRes (opTrcRefReadmit w entry.toNat)) s)

/-! ### Status words -/

/-- CERT_DIVERGED (R213). -/
def certDiverged (s : State) : Bool :=
  (List.range 44).any fun e => decide ((calRec s e).rev > 1)

/-- TRC_STAT. -/
def trcStat (s : State) : Nat :=
  let left := match s.trc.warmAt with
    | some t => if s.trc.warming then (t + warmTicks - s.emb.ticks + 32767) / 32768 else 0
    | none => if s.trc.warming then 1800 else 0
  flag s.trc.warming 31 + flag s.mea.refFail 30 + flag s.trc.calAged 29 + flag (!(recBad s).isEmpty) 28 +
    flag (certDiverged s) 27 + flag (calActive s) 26 + place ((s.trc.owner.map (·.val)).getD 0) 25 24 + place left 10 0

/-- A word of the certificate block (R213), 0 on -4S and -2S. -/
def certWord (s : State) (i : Nat) : Nat :=
  if s.variant ≠ .m4 then 0
  else if i < 4 then (Config.certWord i).toNat
  else
    let r := factoryRec ((i - 4) / 4)
    if i ≥ 180 then 0
    else match (i - 4) % 4 with
      | 0 => twos 32 r.gcorr
      | 1 => twos 32 r.ocorr
      | 2 => r.value
      | _ => r.u

/-- The unit at cold start and Kindling (R201, R204): CALIBRATE ended, WARMING started; `bad` are the copies that fail
their CRC now; CAL_RECORD_LOST for an entry without an intact copy. A second copy that was not written stays as it
was. -/
def trcStart (s : State) (cold : Bool) (bad : List (Nat × Bool)) : State :=
  let t := s.trc
  let s := startWarming { s with trc := { ({} : Trc) with
      recA := t.recA, recB := t.recB, calAged := t.calAged && !cold
      badA := (t.badA ++ (bad.filter fun p => !p.2).map (·.1)).eraseDups
      badB := (t.badB ++ (bad.filter fun p => p.2).map (·.1)).eraseDups } }
  (recBad s).foldl (fun s e => stage s .calRecordLost bTRC sevFault [BitVec.ofNat 8 e]) s

end Sys2Proof.Machine
end

