-- ==== Sys2Proof/Machine/Saf.lean ====
section
/-!
DEFINITION. The safety lanes (chapter 12): votes, safety functions and reactions, cell summaries, inputs, outputs,
contactors, precharge and weld detection, and the safe connections.
-/

namespace Sys2Proof.Machine

/-- BLOCK code of SAF. -/
def bSAF : Byte := 0x0D

/-- Change the lanes. -/
def modSaf (s : State) (f : Saf → Saf) : State := { s with saf := f s.saf }

/-- A lane. -/
def lane (s : State) (i : Nat) : Lane := tget {} s.saf.lanes i
/-- A safety input. -/
def sinp (s : State) (n : Nat) : SafIn := tget {} s.saf.sis n
/-- Change a safety output. -/
def modSo (s : State) (j : Nat) (f : SafOut → SafOut) : State :=
  modSaf s fun x => { x with sos := tmod {} x.sos j f }
/-- Change a string's contactors. -/
def modCtr (s : State) (k : Nat) (f : Ctr → Ctr) : State := modSaf s fun x => { x with cts := tmod {} x.cts k f }
/-- A supervised position's summary. -/
def summ (s : State) (k p : Nat) : Summ := tget {} s.saf.summ (32 * k + p - 1)
/-- A safe connection. -/
def sconn (s : State) (c : Nat) : SafConnS := tget {} s.saf.conns c
/-- Change a safe connection. -/
def modConn (s : State) (c : Nat) (f : SafConnS → SafConnS) : State :=
  modSaf s fun x => { x with conns := tmod {} x.conns c f }

/-! ### The Safety billet (R326, R328) -/

/-- The billet of a bare module: defaults, nothing enabled. -/
def bareSafety : SafetyBillet :=
  { otTrip := 1040, sumTmo := 500, ocTrip := 650000, ocN := 2, tpW := 200, tPre := 2000, kClose := 50
    vWeld := 50000, tOpen := 100, laneDegMaxH := 72, funcs := [], inputs := [], outputs := [], loops := []
    therms := [], conns := [], terms := [] }

/-- The Safety billet the lanes run. -/
def safB (s : State) : SafetyBillet := match s.crd.content with | some c => c.safety | none => bareSafety

/-- Function table entry of function f. -/
def funcOf (s : State) (f : Nat) : SafFunc :=
  match (safB s).funcs[f - 1]? with
  | some x => x
  | none => { enable := false, cls := defaultClass f, strings := 0 }

/-- True when a function may demand (R328). -/
def funcOn (s : State) (f : Nat) : Bool := (funcOf s f).enable || f == 9 || f == 14 || f == 15

/-- Output table entry. -/
def outOf (s : State) (j : Nat) : SafOutput :=
  ((safB s).outputs[j]?).getD { auxString := j / 4, tpPer := 10, parallel := false, bay := false, permit := none }

/-- Loop table entry. -/
def loopOf (s : State) (k : Nat) : SafLoop := ((safB s).loops[k]?).getD { snum := 0, lset := 0 }

/-- Connection table entry. -/
def connOf (s : State) (c : Nat) : SafConn :=
  ((safB s).conns[c]?).getD
    { dir := 0, connId := 0, dlen := 1, wd := 100, pPer := 20, required := false, bits := [], demandBits := [] }

/-- True when output j drives a contactor: it is no AUX output (R338). -/
def isContactor (s : State) (j : Nat) : Bool := strOk s (j / 4) && decide (j % 4 < 3)

/-- The outputs that function f switches off under its class with string set m (*Table: Reaction classes*). -/
def reactionOff (s : State) (cls m j : Nat) : Bool :=
  match cls with
  | 0 => false
  | 1 => if isContactor s j then bitN m (j / 4) else bitN m (outOf s j).auxString
  | 2 => isContactor s j || (outOf s j).bay
  | _ => true

/-! ### Summaries (R140, R331, R332) -/

/-- One bit of a CRC-8 without reflection. -/
def crc8Bit (c : Nat) : Nat := if c ≥ 128 then Nat.xor (c * 2 % 256) 0x2F else c * 2

/-- SCHK's CRC-8: polynomial 0x2F, initial value 0xFF. -/
def crc8 (bs : List Nat) : Nat :=
  bs.foldl (fun c b => (List.range 8).foldl (fun c _ => crc8Bit c) (Nat.xor c (b % 256))) 0xFF

/-- Accept a summary's content. -/
def Summ.accept (m : Summ) (v now : Nat) : Summ :=
  { m with scnt := some (fld v 15 12), cand := none, ov := bitN v 11, uv := bitN v 10, ot := bitN v 9
           sflt := bitN v 8, last := now, lost := false }

/-- A summary handed to the lanes (R331): from a supervised position, with SCHK for its LSET and hop count, in
sequence. -/
def safSummary (s : State) (k p v : Nat) : State :=
  let l := loopOf s k
  if p = 0 ∨ p > l.snum ∨ crc8 [l.lset.toNat, p, fld v 15 8] ≠ fld v 7 0 then s
  else
    let m := summ s k p
    let n := fld v 15 12
    let follows : Bool := match m.cand with | some c => n == (c + 1) % 16 | none => false
    let m' := match m.scnt with
      | none => if follows then m.accept v s.now else { m with cand := some n }
      | some a =>
        let d := (n + 16 - a) % 16
        if (decide (1 ≤ d) && decide (d ≤ 8)) || (follows && d != 0) then m.accept v s.now
        else if d = 0 then m
        else { m with cand := some n }
    modSaf s fun x => { x with summ := tset {} x.summ (32 * k + p - 1) m' }

/-- SUMMARY_TIMEOUT: a supervised position's timer has exceeded SUM_TMO (R332). -/
def execSummaryTimeout (k : Str) (pos : BitVec 6) (s : State) : Out :=
  .next (
    let p := pos.toNat
    let m := summ s k p
    if s.emb.power ≠ .on ∨ p = 0 ∨ p > (loopOf s k).snum ∨ m.lost ∨ s.now ≤ m.last + 1000 * (safB s).sumTmo then s
    else modSaf s fun x => { x with summ := tset {} x.summ (32 * k.val + p - 1) { m with lost := true } })

/-- True when a position is SUM_LOST. -/
def sumLost (s : State) (k p : Nat) : Bool := (summ s k p).lost || (summ s k p).sflt

/-- The supervised positions of a loop that satisfy a test. -/
def supPos (s : State) (k : Nat) (f : Summ → Bool) : List Nat :=
  ((List.range (loopOf s k).snum).map (· + 1)).filter fun p => f (summ s k p)

/-! ### Inputs (R335 to R337) -/

/-- Input table entry. -/
def inOf (s : State) (n : Nat) : SafInput :=
  ((safB s).inputs[n]?).getD { tested := false, tDisc := 20, startup := false, strings := 0 }

/-- The start-up test of an input is incomplete (R337). -/
def startupOpen (s : State) (n : Nat) : Bool := (inOf s n).startup && (sinp s n).stState != 0

/-- The safe value of an input (R336, R337). -/
def safeValue (s : State) (n : Nat) : Bool :=
  let x := sinp s n
  x.a && x.b && !x.discFlt && !startupOpen s n

/-- One safety tick of an input (R336, R337). -/
def tickIn (s : State) (a b : Bool) (n : Nat) (x : SafIn) : SafIn :=
  let c := if a ≠ b then x.discCnt + 1 else 0
  let flt := x.discFlt || c == (inOf s n).tDisc
  let seen := x.seenZero || (flt && !a && !b)
  let clr := flt && seen && a && b
  let zs := if !a && !b then some (x.zeroSince.getD s.now) else none
  let st := match x.stState with
    | 1 => (match zs with | some t => if s.now ≥ t + 50000 then 2 else 1 | none => 1)
    | 2 => if a && b then 0 else 2
    | n => n
  { x with a := a, b := b, discCnt := min 8191 c, discFlt := flt && !clr, seenZero := seen && !clr && flt
           zeroSince := zs, stState := st }

/-- A pulse of a test source ends now: TS0's 10 ms after its last, TS1's 5 ms after one of TS0 (R335). -/
def pulseEnds (s : State) (ts1 : Bool) : Bool :=
  let period (t : Option Nat) : Bool := match t with | some t => decide (s.now ≥ t + 10000) | none => true
  if ts1 then period s.saf.tsB && (match s.saf.tsA with | some t => decide (s.now ≥ t + 5000) | none => false)
  else period s.saf.tsA

/-- A tick falls within the 400 µs pulse of a source whose last pulse ended then (R335). -/
def inPulse (last : Option Nat) (now : Nat) : Bool :=
  match last with | some t => decide (t + 9600 ≤ now) && decide (now < t + 10000) | none => false

/-- TEST_PULSE_READ: at the end of each pulse of TS0 (channel a) or TS1 (channel b) the lanes read the TESTED inputs;
two reads of 1 in a row set TP_FLT, ten of 0 on both channels clear it (R335). -/
def execTestPulseRead (ts1 : Bool) (reads : BitVec 8) (s : State) : Out :=
  .next (
    let one (s : State) (n : Nat) : State :=
      if !(inOf s n).tested then s
      else
        let r := bitN reads.toNat n
        let upd (x : SafIn) : SafIn :=
          let run (c : Nat) := if r then satAdd 2 c 1 else 0
          let ok (c : Nat) := if r then 0 else satAdd 10 c 1
          let x := if ts1 then { x with tpRunB := run x.tpRunB, tpOkB := ok x.tpOkB }
            else { x with tpRunA := run x.tpRunA, tpOkA := ok x.tpOkA }
          let set := (if ts1 then x.tpRunB else x.tpRunA) == 2
          let clr := x.tpOkA == 10 && x.tpOkB == 10
          { x with tpFlt := set || (x.tpFlt && !clr) }
        modSaf s fun y => { y with sis := tmod {} y.sis n upd }
    if s.emb.power = .on && pulseEnds s ts1 then
      (List.range (safB s).inputs.length).foldl one
        (modSaf s fun x => if ts1 then { x with tsB := some s.now } else { x with tsA := some s.now })
    else s)

/-! ### The LOTO key as the lanes read it (R63, R511) -/

/-- The lanes take LOCK: until their first reading of a position, and for a reading between positions that has lasted
longer than 100 ms. -/
def lanesLock (s : State) : Bool :=
  !s.saf.lotoSeen || s.saf.loto == .lock ||
    (match s.saf.lotoBetween with | some t => decide (s.now > t + 100000) | none => false)

/-- Take the key's reading of one cycle. -/
def lanesLoto (x : Saf) (now : Nat) (l : Loto) : Saf :=
  match l with
  | .between => { x with lotoBetween := some (x.lotoBetween.getD now) }
  | l => { x with loto := l, lotoSeen := true, lotoBetween := none }

/-! ### Contactors (R344 to R348) -/

/-- The module opens a string's contactors: K+, KP and K− together; the weld check starts where one was on (R346). -/
def openString (s : State) (k : Nat) : State :=
  let on := !ctrOpen s k
  let off (s : State) (j : Nat) : State := modSo s j fun o => { o with req := false, laneOn := false, highRun := 0 }
  let s := off (off (off s (4 * k)) (4 * k + 1)) (4 * k + 2)
  modCtr s k fun c =>
    { c with want := false, met := false, preSince := none, kplusAt := none, preFail := false
             pollAt := if on then none else c.pollAt
             pstate := if on then 4 else if c.pstate = 4 then 4 else 0
             openAt := if on then some s.now else c.openAt }

/-- The module withdraws every contactor request. -/
def openAll (s : State) : State := (strs s).foldl openString s

/-- The module starts the connect sequence of a string: K− and KP (R345). -/
def connectString (s : State) (k : Nat) : State :=
  let on (s : State) (j : Nat) : State := modSo s j fun o => { o with req := true }
  modCtr (on (on s (4 * k + 1)) (4 * k + 2)) k fun c =>
    { c with want := true, met := false, pstate := 1, preSince := some s.now, kplusAt := none, preFail := false, pollAt := none }

/-- Every safety output goes off at once: PFAIL, a cold start with the supply present, the watchdog. No weld check
follows (R346 names the openings that start one). -/
def safAllOff (s : State) : State :=
  let s := (List.range 16).foldl (fun s j => modSo s j fun o => { o with req := false, laneOn := false, pulsing := none }) s
  (List.range 4).foldl (fun s k => modCtr s k fun c =>
    { c with want := false, met := false, preSince := none, kplusAt := none, preFail := false, pstate := 0 }) s

/-- The lanes request an injected conversion (R181). -/
def laneAsk (s : State) (k point : Nat) : State := (injRequest s k .lanes point).2

/-- A poll of the lanes is due: 5 ms after the last one of the string (R345, R346). -/
def pollDue (s : State) (k : Nat) : Bool :=
  match (ctr s k).pollAt with | some t => decide (s.now ≥ t + 5000) | none => true

/-- A POINT 1 reading against the POINT 0 reading of the same poll: at 95 % K+ is commanded (R345). -/
def prechargeMet (s : State) (k : Nat) : State :=
  let c := ctr s k
  if c.pstate = 1 ∧ c.v0New ∧ c.v1 * 100 ≥ c.v0 * 95 then
    modSo (modCtr s k fun c => { c with met := true, pstate := 2, kplusAt := some s.now }) (4 * k) fun o => { o with req := true }
  else s

/-- A weld check passes at the first POINT 2 reading at V_WELD_THR or above (R346). -/
def weldPass (s : State) (k : Nat) : State :=
  if (ctr s k).pstate = 4 ∧ (ctr s k).v2.natAbs ≥ (safB s).vWeld.natAbs then
    modCtr s k fun c => { c with pstate := 0, openAt := none }
  else s

/-- The lanes receive a result over their own path (R180). -/
def laneResult (s : State) (k point : Nat) (mv : Int) : State :=
  match point with
  | 0 => modCtr s k fun c => { c with v0 := mv, v0New := true }
  | 1 => prechargeMet (modCtr s k fun c => { c with v1 := mv }) k
  | _ => weldPass (modCtr s k fun c => { c with v2 := mv }) k

/-- INJECTION_COMPLETE: the result goes to the requester (R180), and the input returns to VBk (R182, R184). -/
def execInjectionComplete (k : Str) (mv : Int) (s : State) : Out :=
  .next (
    match injEnd s k with
    | some (r, p, s) => if r = .lanes then laneResult s k p mv else injDeliver r mv s
    | none => s)

/-- PRECHARGE_POLL: every 5 ms the lanes request POINT 0 and then POINT 1 of a string that precharges (R345). -/
def execPrechargePoll (k : Str) (s : State) : Out :=
  .next (
    if s.emb.power ≠ .on ∨ (ctr s k).pstate ≠ 1 ∨ !pollDue s k ∨ s.kln.stopped.contains .bank then s
    else laneAsk (laneAsk (modCtr s k fun c => { c with pollAt := some s.now, v0New := false }) k 0) k 1)

/-- PRECHARGE_KP_OPEN: K_CLOSE after K+, KP is commanded off and the string is connected; with the last string MODE
goes to CONNECTED at the next evaluation (R345). -/
def execPrechargeKpOpen (k : Str) (s : State) : Out :=
  .next (
    let c := ctr s k
    match c.kplusAt with
    | none => s
    | some t =>
      if c.pstate ≠ 2 ∨ s.now < t + 1000 * (safB s).kClose then s
      else
        let s := modSo s (4 * k.val + 2) fun o => { o with req := false, laneOn := false, highRun := 0 }
        let s := modCtr s k fun c => { c with pstate := 3, kplusAt := none }
        if s.emb.mode = .precharge ∧ (strs s).all (fun k => (ctr s k).pstate == 3) then
          reqMode s .connected (.module 0x0E)
        else s)

/-- PRECHARGE_TIMEOUT: t_pre has expired without the condition; PRECHARGE_FAIL for the string and SAFE_STOP (R57,
R345). -/
def execPrechargeTimeout (k : Str) (s : State) : Out :=
  .next (
    let c := ctr s k
    match c.preSince with
    | none => s
    | some t =>
      if c.pstate ≠ 1 ∨ c.preFail ∨ s.now < t + 1000 * (safB s).tPre then s
      else reqMode (modCtr s k fun c => { c with preFail := true }) .safeStop (.module 0x07))

/-- WELD_CHECK_POLL: every 5 ms from the open command the lanes request POINT 2 (R346). -/
def execWeldCheckPoll (k : Str) (s : State) : Out :=
  .next (
    if s.emb.power ≠ .on ∨ (ctr s k).pstate ≠ 4 ∨ !pollDue s k ∨ s.kln.stopped.contains .bank then s
    else laneAsk (modCtr s k fun c => { c with pollAt := some s.now }) k 2)

/-- WELD_TIMEOUT: T_OPEN expired without a passing reading; WELD is latched on the string (R346). -/
def execWeldTimeout (k : Str) (s : State) : Out :=
  .next (
    let c := ctr s k
    match c.openAt with
    | none => s
    | some t =>
      if c.pstate ≠ 4 ∨ s.now < t + 1000 * (safB s).tOpen then s
      else modCtr s k fun c => { c with weld := true, pstate := 0, openAt := none })

/-! ### Output faults and acknowledges (R339 to R342, R348) -/

/-- A short to L+ on output j: its group goes off and its return switch opens (R341). -/
def shortLplus (s : State) (j : Nat) : State :=
  let g := j / 4
  let s := modSo s j fun o => { o with flt := 1, offSince := none, latched := true }
  let s := (List.range 4).foldl (fun s i => modSo s (4 * g + i) fun o => { o with laneOn := false }) s
  modSaf s fun x => { x with sgClosed := x.sgClosed &&& ~~~ BitVec.ofNat 4 (2 ^ g)
                             sgFlt := x.sgFlt ||| BitVec.ofNat 4 (2 ^ g) }

/-- The outputs that are on. -/
def outsOn (s : State) : List Nat := (List.range 16).filter (soOn s)

/-- An output of HIGH_OFF that no pulse lowered is a short to L+ (R341). -/
def highDone (s : State) (i : Nat) : State :=
  if (sout s i).flt = 3 ∧ (sout s i).highLeft = [] then shortLplus s i else s

/-- A pulse slot: it begins every 2 ms at a safety tick, and 2 ms after the last pulse at the earliest (R339). -/
def slotNow (s : State) : Bool := decide (s.saf.cycle % 8 = 0) && decide (s.now ≥ s.saf.slotAt + 2000)

/-- OFF_PULSE: at a pulse slot the lowest output that is due goes off for TP_W: on for TP_PER since its last pulse, or
while a HIGH_OFF output is being searched (R339, R341). -/
def execOffPulse (s : State) : Out :=
  .next (
    let search := (List.range 16).flatMap fun i => (sout s i).highLeft
    let due (j : Nat) : Bool := soOn s j && (sout s j).pulsing.isNone &&
      (search.contains j || decide (s.now ≥ (sout s j).lastPulse + 1000000 * (outOf s j).tpPer))
    if !slotNow s ∨ ((List.range 16).any fun j => (sout s j).pulsing.isSome) then s
    else match (List.range 16).find? due with
      | some j => modSo (modSaf s fun x => { x with slotAt := s.now }) j fun o =>
          { o with pulsing := some s.now, pcnt := wrap 16 o.pcnt, lastPulse := s.now }
      | none => s)

/-- The output in its off-pulse. -/
def pulsed (s : State) : Option (Nat × Nat) :=
  ((List.range 16).filterMap fun j => (sout s j).pulsing.map fun t => (j, t)).head?

/-- OFF_PULSE_READBACK: TP_W − 50 µs into a pulse the readback is taken: the output's own high is SHORT_LPLUS, a
HIGH_OFF output that reads low is a CROSS_SHORT with it (R341). -/
def execOffPulseReadback (readback : BitVec 16) (s : State) : Out :=
  .next (
    match pulsed s with
    | none => s
    | some (j, t) =>
      if s.now + 50 < t + (safB s).tpW then s
      else
        let s := modSo s j fun o => { o with rb := bitN readback.toNat j }
        let cross (s : State) (i : Nat) : State :=
          let o := sout s i
          if o.flt ≠ 3 ∨ i = j ∨ !o.highLeft.contains j then s
          else if !bitN readback.toNat i then
            if (outOf s i).parallel || (outOf s j).parallel then s
            else
              let s := modSo s i fun o =>
                { o with flt := 2, peer := j, laneOn := false, latched := true, highLeft := [], offSince := none }
              modSo s j fun o => { o with flt := 2, peer := i, laneOn := false, latched := true, offSince := none }
          else highDone (modSo s i fun o => { o with highLeft := o.highLeft.filter (· != j) }) i
        let s := (List.range 16).foldl cross s
        if bitN readback.toNat j ∧ (sout s j).flt ≠ 1 then shortLplus s j else s)

/-- OFF_PULSE_END: the pulse ends after TP_W; a switch-off that fell within it keeps the output off, a switch-on takes
effect (R340). -/
def execOffPulseEnd (s : State) : Out :=
  .next (
    match pulsed s with
    | none => s
    | some (j, t) => if s.now < t + (safB s).tpW then s else modSo s j fun o => { o with pulsing := none })

/-- SAF_RES. -/
def safRes (c : Code) (s : State) : State := modSaf s fun x => { x with res := c }

/-- The right of SAF_ACK. -/
def safRight (w : Win) : State → Bool := rightOne w rSafe

/-- A faulty output has read low while commanded off for 1 s, its return switch open where its fault opened it
(R342). DEDUCED (assumption 50): R341 opens no return switch for a CROSS_SHORT, and none is asked for then. -/
def outfReady (s : State) (j : Nat) : Bool :=
  let o := sout s j
  if o.flt = 1 ∨ o.flt = 2 then match o.offSince with | some t => decide (s.now ≥ t + 1000000) | none => false
  else true

/-- A reaction of class ALL holds the return switches open: of a present demand or a latched function (R329). -/
def allReaction (s : State) (ds : List Demand) : Bool :=
  (ds.any fun d => (funcOf s d.f).cls == 3) ||
    (List.range 17).any fun f => bitN s.saf.latch.toNat f && (funcOf s f).cls == 3

/-- OUTF_ACK (R342): the faults clear and the return switches close, but for a reaction of class ALL. -/
def opOutfAck (s : State) : Code × State :=
  if (List.range 16).all (outfReady s) then
    let s := (List.range 16).foldl (fun s j => modSo s j fun o =>
      if o.flt = 1 ∨ o.flt = 2 then { o with flt := 0, peer := 0, latched := false, offSince := none } else o) s
    (.ok, modSaf s fun x => { x with sgClosed := if allReaction s s.saf.dems then x.sgClosed else 15, sgFlt := 0 })
  else (.refusedMode, s)

/-- OUTF_ACK (R342). -/
def execOutfAck (w : Win) (s : State) : Out := .next (hostCmd w 0xD0000 (cmdReq (safRight w) safRes opOutfAck) s)

/-- WELD_ACK of string k with the POINT 2 reading taken on the write, which answers once the injection has ended (R348). -/
def opWeldAck (k : Nat) (mv : Int) (s : State) : Code × State :=
  if !strOk s k then (.notPresent, s)
  else if s.emb.mode ≠ .maintenance ∨ !ctrOpen s k then (.refusedMode, s)
  else
    let s := { s with mea := { s.mea with injSaf := wrap 16 s.mea.injSaf } }
    let s := modCtr (injReturn s k) k fun c => { c with v2 := mv }
    if mv.natAbs ≥ (safB s).vWeld.natAbs then (.ok, modCtr s k fun c => { c with weld := false })
    else (.refusedMode, s)

/-- WELD_ACK (R348). -/
def execWeldAck (w : Win) (k : Str) (mv : Int) (s : State) : Out :=
  .next (hostCmd w 0xD0000 (cmdReq (safRight w) safRes (opWeldAck k mv)) s)

/-! ### Lanes in the vote (R321 to R325) -/

/-- Lane i is in the vote. -/
def voting (s : State) (i : Nat) : Bool := (lane s i).state == 1

/-- The lanes in the vote, as a mask. -/
def voteMask (s : State) : Nat := bitsOf 3 (voting s)

/-- Exclude a lane; the first exclusion is recorded and starts LANE_DEG_MAX, the second makes LANE_FAULT demand
(R323). -/
def excludeLane (s : State) (i cause : Nat) : State :=
  if (lane s i).state = 2 then s
  else
    let s := modSaf s fun x => { x with lanes := tmod {} x.lanes i fun l => { l with state := 2, cause := cause } }
    let gone := (List.range 3).filter fun i => (lane s i).state == 2
    let s := raise (stage s .laneDegraded bSAF sevFault [BitVec.ofNat 8 i, BitVec.ofNat 8 cause]) (.lane (64 + i))
    modSaf s fun x =>
      { x with degrOph := some (x.degrOph.getD s.emb.oph.toNat), laneFault := x.laneFault || decide (gone.length ≥ 2) }

/-- A lane checks its copy of the Safety billet in the last cycle of each second after the check before (R82). -/
def laneDue (s : State) (n : Nat) : Bool := decide (s.now + 250 > (lane s n).checked + 1000000)

/-- An upset changes bytes of the lanes' copies of the Safety billet. -/
def laneUpsets (l : List (Nat × Nat × Byte)) (s : State) : State :=
  l.foldl (fun s u => modSaf s fun x => { x with
    lanes := tmod {} x.lanes (u.1 % 3) fun y => { y with billet := y.billet.set u.2.1 u.2.2 } }) s

/-- A lane that disagreed in three cycles running, or missed two, leaves the vote (R323). -/
def linkOut (s : State) (n : Nat) (l : Lane) : State :=
  if l.disagRun ≥ 3 then excludeLane s n 1
  else if l.missRun ≥ 2 then excludeLane s n 4
  else s

/-- What lane n's function results and output commands deviate by. -/
def flipOf (i : LaneInputs) (n : Nat) : BitVec 17 × BitVec 16 := i.flips.getD n (0, 0)

/-- Lane n's results differ from those of both other lanes (R323): the sound evaluation is the same for all. -/
def laneDiffers (i : LaneInputs) (s : State) (n : Nat) : Bool :=
  let o := (List.range 3).filter fun m => m != n && voting s m
  o.length == 2 && o.all fun m => flipOf i m != flipOf i n

/-- The cross-link of one cycle: disagreements, billet checks and missed exchanges (R323). `diff` names the lanes that
differed. -/
def crossLink (i : LaneInputs) (diff : List Nat) (s : State) (n : Nat) : State :=
  if !voting s n then s
  else
    let l := lane s n
    let d := diff.contains n
    let m := bitN i.missed.toNat n
    let l := { l with disag := if d then inc16 l.disag else l.disag, disagRun := if d then l.disagRun + 1 else 0
                      missRun := if m then l.missRun + 1 else 0 }
    let s := modSaf s fun x => { x with lanes := tset {} x.lanes n l }
    if laneDue s n then
      let t := modSaf s fun x => { x with lanes := tmod {} x.lanes n fun l => { l with checked := s.now } }
      if billetCrc l.billet then linkOut t n l else excludeLane t n 2
    else linkOut s n l

/-- LANE_DEGRADED_TIMEOUT: LANE_DEG_MAX of OPH has passed with a lane excluded; LANE_FAULT demands (R323). -/
def execLaneDegradedTimeout (s : State) : Out :=
  .next (
    match s.saf.degrOph with
    | none => s
    | some t =>
      if s.emb.power = .on ∧ s.emb.oph.toNat ≥ t + 3600 * (safB s).laneDegMaxH then modSaf s fun x => { x with laneFault := true } else s)

/-- LANE_SELF_TEST_COMPLETE: each lane that passed, its copy of the Safety billet
included (R82), enters the vote, each that failed is excluded; with fewer than two
LANE_FAULT demands from the start (R324). Without the lease the return-switch steps are deferred (R493). DESIGN CHOICE
(assumption 75): the outputs whose step failed show FLT 4. -/
def execLaneSelfTestComplete (passed : BitVec 3) (failedOuts : BitVec 16) (s : State) : Out :=
  .next (
    if s.emb.power ≠ .on ∨ !((List.range 3).any fun i => (lane s i).state == 0) then s
    else
      let good (i : Nat) : Bool := bitN passed.toNat i && billetCrc (lane s i).billet
      let one (s : State) (i : Nat) : State :=
        if (lane s i).state = 2 then s
        else if good i then modSaf s fun x => { x with lanes := tmod {} x.lanes i fun l => { l with state := 1, checked := s.now } }
        else excludeLane s i (if bitN passed.toNat i then 2 else 3)
      let n := ((List.range 3).filter good).length
      let s := (List.range 3).foldl one s
      let s := (List.range 16).foldl (fun s j => if bitN failedOuts.toNat j then modSo s j fun o => { o with flt := 4 } else s) s
      let s := { s with par := { s.par with untested := if paired s ∧ s.par.ctr = 0 then 15 else 0, deferredAt := none } }
      modSaf s fun x => { x with selftest := decide (n ≥ 2), lastCycle := s.now, laneFault := x.laneFault || decide (n < 2) })

/-- SAFETY_WATCHDOG: no lane has completed a cycle for 1 ms: every output off, every return switch open (R42, R325). A string
whose contactors were on goes through its sequence again before they close (R345). -/
def execSafetyWatchdog (s : State) : Out :=
  .next (
    if s.emb.power ≠ .on ∨ s.now < s.saf.lastCycle + 1000 then s
    else
      let s := (List.range 16).foldl (fun s j => modSo s j fun o => { o with laneOn := false, pulsing := none }) s
      let s := (List.range 4).foldl (fun s k => modCtr s k fun c =>
        { c with met := false, preSince := none, kplusAt := none, pstate := 0 }) s
      modSaf s fun x => { x with watchdog := true, sgClosed := 0 })

/-! ### Safe connections (R349 to R352) -/

/-- The CRC of a safe frame (R350). -/
def safeCrc (s : State) (c : Nat) (seqData : List Byte) : Nat := crc32c (leB 4 (connOf s c).connId.toNat ++ seqData)

/-- A data bit of a producing connection (R351). -/
def safBit (s : State) : SafBit → Bool
  | .demand f => bitN s.saf.dem.toNat f
  | .latch f => bitN s.saf.latch.toNat f
  | .input n => safeValue s n
  | .contactor j => soOn s j
  | .lease => leaseValid s

/-- STARTUP_OK (R59): the running Cord's checks, the lanes' self-test, the start-up tests of inputs, HOLDUP_OK, and no
force but acknowledged ones. -/
def startupOk (s : State) : Bool :=
  hasCord s && !s.crd.runBad && s.saf.selftest && ((List.range 8).all fun n => !startupOpen s n) && s.emb.holdupOk &&
    (s.emb.forceAcked || s.lgc.forces.all fun p => p.2.isNone)

/-- READY (R487). -/
def parReady (s : State) : Bool :=
  paired s && startupOk s && !safLatched s &&
    (match s.emb.mode with
      | .standby | .precharge | .connected | .drowse | .maintenance => true
      | _ => false)

/-- The engine of the pair link runs (R37). -/
def parRuns (s : State) : Bool := paired s && awake s && !s.kln.stopped.contains .pair

/-- The layout of WSC_P (R485): HOLDS, LEASE_REQ, READY, and the term held or claimed. -/
def witData (s : State) : List Byte :=
  let holds := decide (s.par.ctr > 0)
  let req := parRuns s && (holds || s.par.claimWit)
  BitVec.ofNat 8 (flag holds 0 + flag req 1 + flag (parReady s) 2) ::
    leB 4 (if s.par.claimWit && !holds then s.par.term + 1 else s.par.term).toNat

/-- PAR_CFG.WIT_EN of a paired module. -/
def witEn (s : State) : Bool := paired s && bitN (rd s parCfg []) 30

/-- The data a producing connection carries now. -/
def connData (s : State) (c : Nat) : List Byte :=
  let e := connOf s c
  if witEn s && rdf s parCfg [] 11 8 == c then padTo e.dlen (witData s)
  else leB e.dlen (bitsOf (8 * e.dlen) fun i => match e.bits[i]? with | some b => safBit s b | none => false)

/-- Send a frame with the data given (R349 to R351). -/
def sendSafe (s : State) (c : Nat) (d : List Byte) : State :=
  let x := sconn s c
  let q := if x.sent then (x.seq + 1) % 65536 else 0
  let b := leB 2 q ++ d
  send (modConn s c fun x =>
    { x with state := 5, seq := q, sent := true, acc := inc16 x.acc, data := d, last := s.now })
    (ifSafe c) (b ++ leB 4 (safeCrc s c b))

/-- SAFE_FRAME_SEND: a producing connection sends every P_PER (R351). -/
def execSafeFrameSend (c : Fin 16) (s : State) : Out :=
  .next (
    let e := connOf s c
    let x := sconn s c
    if e.dir ≠ 2 ∨ !awake s ∨ (x.sent ∧ s.now < x.last + 1000 * e.pPer) then s
    else sendSafe s c (connData s c))

/-- SAFE_FRAME_RECEIVE: a frame is accepted with a correct CRC and a newer SEQ, or discarded and counted; the
connection goes WAITING, CONFIRMING, RUNNING (R352). Its data is applied at the end of the cycle. No frame passes in EMBER
(R420). -/
def execSafeFrameReceive (c : Fin 16) (bytes : List Byte) (s : State) : Out :=
  .next (
    let e := connOf s c
    let x := sconn s c
    if e.dir ≠ 1 ∨ !awake s then s
    else
      let body := bytes.take (2 + e.dlen)
      let good := bytes.length == 6 + e.dlen && getLe bytes (2 + e.dlen) 4 == safeCrc s c body
      let q := getLe bytes 0 2
      let d := (q + 65536 - x.seq) % 65536
      let newer := decide (1 ≤ d) && decide (d ≤ 32767)
      modConn s c fun x =>
        if !good then { x with disc := inc16 x.disc }
        else match x.state with
          | 2 => if newer then { x with state := 3, seq := q, acc := inc16 x.acc, last := s.now
                                        arrived := some ((bytes.drop 2).take e.dlen) }
                 else { x with disc := inc16 x.disc }
          | 3 => if newer then { x with seq := q, acc := inc16 x.acc, last := s.now
                                        arrived := some ((bytes.drop 2).take e.dlen) }
                 else { x with disc := inc16 x.disc }
          | _ => { x with state := 2, seq := q, acc := inc16 x.acc, last := s.now })

/-- SAFE_CONNECTION_LOST: WD has elapsed since the last accepted frame while RUNNING (R352). -/
def execSafeConnectionLost (c : Fin 16) (s : State) : Out :=
  .next (
    let x := sconn s c
    if s.emb.power ≠ .on ∨ x.state ≠ 3 ∨ s.now < x.last + 1000 * (connOf s c).wd then s
    else modConn s c fun x => { x with state := 4, data := [], arrived := none })

/-- A consumed data bit; outside RUNNING every bit is 0 (R352). -/
def connBit (s : State) (c b : Nat) : Bool :=
  (sconn s c).state == 3 && bitN (byteAt (sconn s c).data (b / 8)) (b % 8)

/-! ### Demands (R326, R328, R333, R334, R343) -/

/-- The index of the first of a list of tests that holds. -/
def firstIx (n : Nat) (f : Nat → Bool) : Option Nat := (List.range n).find? f

/-- The demand of a cell function: the strings whose loops carry a unit that satisfies the test. -/
def cellDemand (s : State) (f : Nat) (pos : Nat → List Nat) : Option Demand :=
  let ks := (strs s).filter fun k => !(pos k).isEmpty
  match ks with
  | [] => none
  | k :: _ => some { f := f, strm := bitsOf 4 ks.contains, src := (pos k).headD 0 }

/-- A demand of a function with the string set of the Function table. -/
def tabDemand (s : State) (f : Nat) (src : Option Nat) : Option Demand :=
  src.map fun i => { f := f, strm := (funcOf s f).strings.toNat, src := i }

/-- The strings with an overcurrent in OC_N consecutive cycles (R333). -/
def ocStrings (s : State) : List Nat := (strs s).filter fun k => decide (tget 0 s.saf.ocRun k ≥ (safB s).ocN)

/-- The channel pair of string k whose comparators tripped: 3k for A and B, 3k + 1 for A and C, 3k + 2 for B and C. -/
def ocPair (s : State) (k : Nat) : Nat :=
  let t (j : Nat) : Bool := bitN s.saf.ocTrip.toNat (3 * k + j)
  3 * k + (if t 0 && t 1 then 0 else if t 0 then 1 else 2)

/-- A thermistor input has been at or above OT_TRIP for 1 s. -/
def thermTrip (s : State) (j : Nat) : Bool :=
  ((safB s).therms.getD j false) &&
    (match tget none s.saf.thSince j with | some t => decide (s.now ≥ t + 1000000) | none => false)

/-- A string that has a contactor output requested or on. -/
def ctrWanted (s : State) (k : Nat) : Bool :=
  (List.range 3).any fun i => (sout s (4 * k + i)).req || soOn s (4 * k + i)

/-- The strings in a contactor state. -/
def strDemand (s : State) (f : Nat) (t : Nat → Bool) : Option Demand :=
  let ks := (strs s).filter t
  match ks with
  | [] => none
  | k :: _ => some { f := f, strm := bitsOf 4 ks.contains, src := k }

/-- OVER_TEMP by summaries and by thermistor inputs, over the union of their string sets. -/
def overTemp (a b : Option Demand) : Option Demand :=
  match a, b with
  | some x, some y => some { x with strm := x.strm.lor y.strm }
  | some x, none => some x
  | none, y => y

/-- Every demand but TERM that is present, whether its function is enabled or not. DESIGN CHOICE (assumption 75): the triggering
value is that of SL+, of POINT 1 and of POINT 2 in mV where the lanes hold one, else 0 (R353). -/
def rawDemands (s : State) : List Demand :=
  let b := safB s
  let nIn := b.inputs.length
  let ot := cellDemand s 3 fun k => supPos s k (·.ot)
  [cellDemand s 1 fun k => supPos s k (·.ov),
   cellDemand s 2 fun k => supPos s k (·.uv),
   overTemp ot (tabDemand s 3 (firstIx 8 (thermTrip s))),
   cellDemand s 4 fun k => if ctrWanted s k then supPos s k (fun m => m.lost || m.sflt) else [],
   (match ocStrings s with
    | [] => none
    | k :: t => some { f := 5, strm := bitsOf 4 (k :: t).contains, src := ocPair s k }),
   tabDemand s 6 (firstIx nIn fun n => !safeValue s n && !startupOpen s n),
   tabDemand s 7 (firstIx nIn fun n => (sinp s n).discFlt || (sinp s n).tpFlt),
   tabDemand s 8 (firstIx 16 fun j => (sout s j).flt == 1 || (sout s j).flt == 2),
   (tabDemand s 9 (if s.saf.supLost then some 0 else none)).map fun d => { d with val := 10 * s.saf.slPlus },
   (strDemand s 10 fun k => (ctr s k).preFail).map fun d => { d with val := (ctr s d.src).v1 },
   (strDemand s 11 fun k => (ctr s k).weld).map fun d => { d with val := (ctr s d.src).v2 },
   tabDemand s 12 (firstIx 16 fun c => (connOf s c).dir == 1 && (connOf s c).required && (sconn s c).state != 3),
   tabDemand s 13 (firstIx 16 fun c => (connOf s c).dir == 1 && (connOf s c).demandBits.any fun b => !connBit s c b),
   tabDemand s 14 (if s.saf.laneFault then some 0 else none),
   tabDemand s 15 (if lanesLock s then some 0 else none)].filterMap id

/-- A condition of a combination term, over the demands of this cycle. -/
def safCond (s : State) (ds : List Demand) : SafCond → Bool
  | .input n => safeValue s n
  | .connBit c b => connBit s c b
  | .demand f => ds.any fun d => d.f == f
  | .contactor j => soOn s j
  | .loto p => if lanesLock s then p == .lock else p == s.saf.loto
  | .lease => leaseValid s

/-- The terms that are true (R326): each condition, inverted where marked. -/
def termsTrue (s : State) (ds : List Demand) : List Bool :=
  (safB s).terms.map fun t => t.conds.all fun (c, inv) => safCond s ds c != inv

/-- The demands present in this cycle, and the terms. -/
def demandsOf (s : State) : List Demand × Nat :=
  let ds := (rawDemands s).filter fun d => funcOn s d.f
  let ts := termsTrue s ds
  let term := firstIx ts.length fun i => ts.getD i false && (((safB s).terms[i]?).map (·.isTerm)).getD false
  let ds := match tabDemand s 16 term with
    | some d => if funcOn s 16 then ds ++ [d] else ds
    | none => ds
  (ds, bitsOf 32 fun i => ts.getD i false)

/-! ### The vote (R322, R323) -/

/-- The lanes in the vote that demand function f, whose inputs make it `sound` or not. -/
def demandLanes (i : LaneInputs) (s : State) (f : Nat) (sound : Bool) : Nat :=
  bitsOf 3 fun n => voting s n && bitN (flipOf i n).1.toNat f != sound

/-- The lanes that a demand needs: two, and one where a lane is excluded. -/
def needDemand (s : State) : Nat := if popcount 3 (voteMask s) ≥ 3 then 2 else 1

/-- The string set of a demand that no input makes: of the strings for the functions of strings, else that of the Function
table (DESIGN CHOICE, assumption 53). -/
def falseStrings (s : State) (f : Nat) : Nat :=
  if f ≤ 5 ∨ f = 10 ∨ f = 11 then bitsOf 4 (strOk s) else (funcOf s f).strings.toNat

/-- The demands that act in a cycle, from those that the inputs make; LANE_FAULT needs no vote of the lanes. -/
def votedDemands (i : LaneInputs) (s : State) (ds : List Demand) : List Demand :=
  (List.range 17).filterMap fun f =>
    if f = 0 ∨ !funcOn s f then none
    else
      let d := ds.find? fun d => d.f == f
      let m := demandLanes i s f d.isSome
      if popcount 3 m ≥ needDemand s ∨ (f = 14 ∧ d.isSome) then
        some { d.getD { f := f, strm := falseStrings s f } with lanes := m }
      else none

/-! ### Events, latches and outputs (R329, R330, R338, R344, R353) -/

/-- DATA of a safety event. -/
def safData (kind : Nat) (d : Demand) : List Byte :=
  [BitVec.ofNat 8 kind, BitVec.ofNat 8 d.strm, BitVec.ofNat 8 d.src, BitVec.ofNat 8 d.lanes] ++ leI 4 d.val

/-- A descriptor on ring 50 (R353). -/
def safEvent (s : State) (kind : Nat) (d : Demand) : State := ringPush s 50 (inlineDesc d.f 0 (safData kind d))

/-- Latch a function (R329, R330): SAF_FCAUSE keeps the first since the last accepted acknowledge, every latch is
recorded, SAFE_STOP is asked for with cause 0x05, or 0x06 for LOTO_LOCK (R57), and the display shows the first on HOME (R510). -/
def latchFunc (s : State) (d : Demand) : State :=
  let first := decide (s.saf.latch = 0)
  let s := modSaf s fun x =>
    { x with latch := x.latch ||| BitVec.ofNat 17 (2 ^ d.f)
             latchStr := tmod 0 x.latchStr d.f fun m => m.lor d.strm
             latchSrc := tset (0, 0) x.latchSrc d.f (d.src, d.lanes)
             fCode := if first then d.f else x.fCode, fStr := if first then BitVec.ofNat 4 d.strm else x.fStr
             fSrc := if first then d.src else x.fSrc
             fLanes := if first then BitVec.ofNat 3 d.lanes else x.fLanes }
  let s := raise (safEvent s 2 d) (.lane (32 + d.f))
  let s := stage s .safLatch bSAF sevSafety (BitVec.ofNat 8 d.f :: safData 2 d)
  let s := if first && awake s then showHome s else s
  reqMode s .safeStop (.fault (if d.f = 15 then 6 else 5))

/-- Whether a demand latches now: a class other than REPORT whose function or string set is not latched yet; LOTO_LOCK
only with a contactor output on as its demand begins (R329, R330). -/
def latches (s : State) (old : BitVec 17) (on : Bool) (d : Demand) : Bool :=
  let cls := (funcOf s d.f).cls
  decide (cls ≠ 0) &&
    (if d.f = 15 then !bitN old.toNat 15 && on && !bitN s.saf.latch.toNat 15
     else !bitN s.saf.latch.toNat d.f || decide ((tget 0 s.saf.latchStr d.f).lor d.strm ≠ tget 0 s.saf.latchStr d.f))

/-- Onset of each new demand, its latch, and the end of each that is gone. An onset stops the recovery timer (R61). The
lanes publish to the matrix (R30): source f the onset of demand f, 32 + f its latch, 64 + i lane i excluded; the numbers
are the model's (DESIGN CHOICE, assumption 70). -/
def noteDemands (s : State) (ds : List Demand) : State :=
  let old := s.saf.dem
  let was := s.saf.dems
  let on := !allOpen s
  let s := modSaf s fun x =>
    { x with dem := BitVec.ofNat 17 (bitsOf 17 fun f => ds.any fun d => d.f == f)
             dems := ds }
  let onset (s : State) (d : Demand) : State :=
    let o : Nat := ((was.find? fun x => x.f == d.f).map (·.strm)).getD 0
    if !bitN old.toNat d.f ∨ o.lor d.strm ≠ o then
      raise (safEvent { s with emb := { s.emb with recovAt := none } } 1 d) (.lane d.f)
    else s
  let lat (s : State) (d : Demand) : State := if latches s old on d then latchFunc s d else s
  let s := ds.foldl (fun s d => lat (onset s d) d) s
  was.foldl (fun s o => if ds.any fun d => d.f == o.f then s else safEvent s 0 o) s

/-- Output j is held off by a reaction: of a present demand or of a latched function (R344). -/
def heldOff (s : State) (ds : List Demand) (j : Nat) : Bool :=
  (ds.any fun d => reactionOff s (funcOf s d.f).cls d.strm j) ||
    (List.range 17).any fun f => bitN s.saf.latch.toNat f && reactionOff s (funcOf s f).cls (tget 0 s.saf.latchStr f) j

/-- The lanes permit output j (R338, R344, R345); a contactor that was opened stays off until the module starts its
sequence again. -/
def permits (s : State) (ds : List Demand) (j : Nat) : Bool :=
  let k := j / 4
  !heldOff s ds j &&
    (if isContactor s j then
       !lanesLock s && !(ctr s k).weld && inR (ctr s k).pstate 1 3 && (decide (j % 4 ≠ 0) || (ctr s k).met)
     else match (outOf s j).permit with
       | some t => bitN s.saf.terms.toNat t
       | none => true)

/-- The lanes in the vote that command output j on. -/
def commandLanes (i : LaneInputs) (s : State) (ds : List Demand) (j : Nat) : Nat :=
  bitsOf 3 fun n => voting s n && bitN (flipOf i n).2.toNat j != ((sout s j).req && permits s ds j)

/-- Output j is energised (R322): two lanes' commands, the group's return switch, the lease; never outside the on state, after
PFAIL, with a latched output fault, or in a group whose deferred self-test has not passed (R493). -/
def energised (i : LaneInputs) (s : State) (ds : List Demand) (j : Nat) : Bool :=
  let o := sout s j
  decide (popcount 3 (commandLanes i s ds j) ≥ 2) && s.saf.selftest && bitN s.saf.sgClosed.toNat (j / 4) && leaseValid s &&
    decide (o.flt ≠ 1) && decide (o.flt ≠ 2) && decide (s.emb.power = .on) && !s.emb.pfail &&
    !bitN s.par.untested.toNat (j / 4)

/-- Apply one output; one that goes on waits TP_PER for its first off-pulse. -/
def applyOut (i : LaneInputs) (ds : List Demand) (s : State) (j : Nat) : State :=
  let on := energised i s ds j
  modSo s j fun o => { o with laneOn := on, lastPulse := if on && !o.laneOn then s.now else o.lastPulse
                              highRun := if on then 0 else o.highRun }

/-- A string loses an output that its sequence needs while a contactor was on: K+, KP and K− open together and the weld
check starts (R346). -/
def lostOutputs (before : State) (s : State) (k : Nat) : State :=
  let was := !ctrOpen before k
  let need := match (ctr s k).pstate with
    | 1 => [4 * k + 1, 4 * k + 2]
    | 2 => [4 * k + 1]
    | 3 => [4 * k, 4 * k + 1]
    | _ => []
  if was && need.any (fun j => !soOn s j && soOn before j) then
    let s := [4 * k, 4 * k + 1, 4 * k + 2].foldl (fun s j => modSo s j fun o => { o with laneOn := false }) s
    modCtr s k fun c => { c with pstate := 4, openAt := some s.now, met := false, preSince := none, kplusAt := none }
  else s

/-- Readback of one output, HIGH_OFF and the 1 s of R342 (R341). An output that goes off leaves the search. -/
def readOut (i : LaneInputs) (s : State) (j : Nat) : State :=
  let hi := bitN i.readback.toNat j
  let o := sout s j
  let off := !o.laneOn && o.pulsing.isNone
  let run := if off && hi && !(outOf s j).parallel then satAdd 4 o.highRun 1 else 0
  let swOk := o.flt = 2 ∨ !bitN s.saf.sgClosed.toNat (j / 4)
  let o := { o with rb := hi, highRun := run
                    offSince := if off && !hi && decide swOk then some (o.offSince.getD s.now) else none }
  let s := modSo s j fun _ => o
  if run = 4 ∧ o.flt = 0 then
    highDone (modSo s j fun o => { o with flt := 3, highLeft := (outsOn s).filter fun m => !(outOf s m).parallel }) j
  else if o.flt = 3 ∧ off ∧ !hi ∧ (pulsed s).isNone then modSo s j fun o => { o with flt := 0, highLeft := [] }
  else if o.flt = 3 then highDone (modSo s j fun o => { o with highLeft := o.highLeft.filter (soOn s) }) j
  else s

/-! ### The cycle (R321) -/

/-- Step 1: inputs at safety ticks, comparators, thermistors, SL+, the key. -/
def laneRead (i : LaneInputs) (s : State) : State :=
  let s := modSaf s fun x => lanesLoto x s.now i.loto
  let tick := decide (s.saf.cycle % 4 = 0)
  let take (x : Saf) (n : Nat) : Tab SafIn := tmod {} x.sis n fun y =>
    let hold (last : Option Nat) : Bool := (inOf s n).tested && inPulse last s.now
    tickIn s (if hold x.tsA then y.a else bitN i.siA.toNat n) (if hold x.tsB then y.b else bitN i.siB.toNat n) n y
  let s := if tick then (List.range 8).foldl (fun s n => modSaf s fun x => { x with sis := take x n }) s else s
  let oc (t : Tab Nat) (k : Nat) : Tab Nat :=
    let n := ((List.range 3).filter fun j => bitN i.ocTrip.toNat (3 * k + j)).length
    tset 0 t k (if n ≥ 2 then satAdd 255 (tget 0 t k) 1 else 0)
  let th (t : Tab (Option Nat)) (j : Nat) : Tab (Option Nat) :=
    tset none t j (if bitN i.thTrip.toNat j then some ((tget none t j).getD s.now) else none)
  let lowNow := decide (i.slPlus < 1600)
  let okNow := decide (i.slPlus ≥ 1920)
  modSaf s fun x =>
    let okSince := if okNow then some (x.supOkSince.getD s.now) else none
    let back := match okSince with | some t => decide (s.now ≥ t + 100000) | none => false
    { x with ocTrip := i.ocTrip, ocSeen := x.ocSeen ||| i.ocTrip, ocRun := (List.range 4).foldl oc x.ocRun
             thSince := (List.range 8).foldl th x.thSince, slPlus := i.slPlus, supWarn := !okNow
             supLowSince := if lowNow then some (x.supLowSince.getD s.now) else none, supOkSince := okSince
             supLost := x.supLost && !back }

/-- SUPPLY_LOST: SL+ has been below 16.0 V for 2 ms (R343). -/
def execSupplyLost (s : State) : Out :=
  .next (
    match s.saf.supLowSince with
    | some t => if s.emb.power = .on ∧ s.now ≥ t + 2000 then modSaf s fun x => { x with supLost := true } else s
    | none => s)

/-- Data that arrived in the cycle is applied at its end; a LOST connection waits again (R352). -/
def applyConns (s : State) : State :=
  (List.range 16).foldl (fun s c =>
    let x := sconn s c
    match x.state, x.arrived with
    | 3, some d => modConn s c fun x => { x with data := d, arrived := none }
    | 4, _ => modConn s c fun x => { x with state := 1 }
    | 0, _ => if (connOf s c).dir = 1 then modConn s c fun x => { x with state := 1 } else s
    | _, _ => s) s

/-- A producing connection whose data has changed sends at the end of the cycle (R351). -/
def sendChanged (s : State) (c : Nat) : State :=
  if (connOf s c).dir = 2 ∧ (sconn s c).sent ∧ connData s c ≠ (sconn s c).data then sendSafe s c (connData s c) else s

/-- 250 µs have passed since the last cycle (R18, R321). -/
def cycleDue (s : State) : Bool := match s.saf.cycleAt with | some t => decide (s.now ≥ t + 250) | none => true

/-- One cycle of the lanes (R321): inputs, functions, exchange, vote, and the outputs at its end. -/
def safCycle (i : LaneInputs) (s : State) : State :=
  if s.emb.power ≠ .on ∨ ((List.range 3).any fun n => (lane s n).state == 0) ∨ !cycleDue s then s
  else
    let s := laneRead i (laneUpsets i.upsets s)
    let s := (List.range 3).foldl (crossLink i ((List.range 3).filter (laneDiffers i s))) s
    let before := s
    let (ds, ts) := demandsOf s
    let ds := votedDemands i s ds
    let s := modSaf s fun x => { x with terms := wd ts }
    let s := noteDemands s ds
    let s := modSaf s fun x => { x with watchdog := false, sgClosed := if allReaction s ds then 0 else ~~~ x.sgFlt }
    let s := (List.range 16).foldl (applyOut i ds) s
    let s := (strs s).foldl (lostOutputs before) s
    let s := (List.range 16).foldl (readOut i) s
    let s := (List.range 4).foldl (fun s k =>
      if (ctr s k).preFail && ctrOpen s k then modCtr s k fun c => { c with preFail := false } else s) s
    let s := applyConns s
    let s := (List.range 16).foldl sendChanged s
    modSaf s fun x => { x with cycle := wrap 16 x.cycle, lastCycle := s.now, cycleAt := some s.now }

/-! ### Status words -/

/-- SAF_STAT. -/
def safStat (s : State) : Nat :=
  let n := popcount 3 (voteMask s)
  let v := if (List.range 3).all (fun i => (lane s i).state == 0) then 0 else if n = 3 then 1 else if n = 2 then 2 else 3
  place (voteMask s) 31 29 + place v 28 27 + flag s.saf.selftest 26 + flag (decide (s.saf.dem ≠ 0)) 25 +
    flag (safLatched s) 24 + flag (lanesLock s) 23 + flag s.saf.supWarn 22 + flag s.saf.supLost 21 +
    flag (!leaseValid s) 20 + s.saf.cycle % 65536

/-- SAF_SIn. -/
def safSi (s : State) (n : Nat) : Nat :=
  let x := sinp s n
  flag (safeValue s n) 31 + flag x.a 30 + flag x.b 29 + flag x.discFlt 28 + flag x.tpFlt 27 +
    place (if (inOf s n).startup then x.stState else 0) 26 25 + flag (inOf s n).startup 24 + x.discCnt % 8192

/-- SAF_SOj. -/
def safSo (s : State) (j : Nat) : Nat :=
  let o := sout s j
  flag o.req 31 + flag (o.laneOn && o.pulsing.isNone) 30 + flag o.rb 29 + place o.flt 28 26 +
    flag (outOf s j).parallel 25 + flag o.pulsing.isSome 24 + place (if isContactor s j then j % 4 else 3) 23 20 +
    place o.peer 19 16 + o.pcnt % 65536

/-- SAF_CTk. -/
def safCt (s : State) (k : Nat) : Nat :=
  let c := ctr s k
  let on (i : Nat) : Bool := soOn s (4 * k + i) && (sout s (4 * k + i)).pulsing.isNone
  place c.pstate 31 28 + flag c.weld 27 + flag (on 2) 26 + flag (on 1) 25 + flag (on 0) 24

/-- SAF_FCAUSE. -/
def safFcause (s : State) : Nat :=
  place s.saf.fCode 31 24 + place s.saf.fStr.toNat 19 16 + place s.saf.fSrc 15 8 + s.saf.fLanes.toNat

/-- The start of the lanes at cold start and Kindling (R324, R331, R337, R352): the self-test runs, inputs marked
STARTUP_TEST wait, summaries and connections begin anew; latches and WELD are retained. At Kindling an excluded lane
stays excluded until the next cold start (R323). DEDUCED (assumption 52): SAF_OC.SEEN counts from the cold start on. -/
def safStart (s : State) (cold : Bool) : State :=
  let x := s.saf
  let b := safB s
  let sis : Tab SafIn := ((List.range 8).filter fun n => ((b.inputs[n]?).map (·.startup)).getD false).map fun n =>
    (n, { ({} : SafIn) with stState := 1 })
  let cts : Tab Ctr := x.cts.filterMap fun (k, c) => if c.weld then some (k, { ({} : Ctr) with weld := true }) else none
  let copy := if hasCord s then billetBytes s.crd.running.bytes 5 else []
  let lanes : Tab Lane := (List.range 3).foldl (fun t i =>
    let l := tget {} x.lanes i
    tset {} t i (if cold then { billet := copy } else if l.state = 2 then l else { billet := l.billet })) []
  let sums : Tab Summ := ((List.range 4).flatMap fun k => (List.range (loopOf s k).snum).map fun p =>
      (32 * k + p, { ({} : Summ) with last := s.now })).filter fun p => p.2 != {}
  { s with saf := { ({} : Saf) with
      latch := x.latch, latchStr := x.latchStr, latchSrc := x.latchSrc, fCode := x.fCode, fStr := x.fStr, fSrc := x.fSrc, fLanes := x.fLanes
      lanes := lanes, degrOph := if cold then none else x.degrOph, laneFault := !cold && x.laneFault
      ocSeen := if cold then 0 else x.ocSeen, sis := sis, cts := cts, summ := sums, lastCycle := s.now
      loto := .lock } }

end Sys2Proof.Machine
end

