-- ==== Sys2Proof/Machine/Est.lean ====
section
/-!
DEFINITION. The estimation engine (chapter 8): charge counting, anchors, capacity learning, cycles and retained
records.
-/

namespace Sys2Proof.Machine

/-- BLOCK code of EST. -/
def bEST : Byte := 0x08

/-- The estimator of a string. -/
def estr (s : State) (k : Nat) : EstStr := tget {} s.est.strs k
/-- Change the estimator of a string. -/
def modEstr (s : State) (k : Nat) (f : EstStr → EstStr) : State :=
  { s with est := { s.est with strs := tmod {} s.est.strs k f } }
/-- A cell context. -/
def cell (s : State) (n : Nat) : CellS := tget {} s.est.cells n
/-- Change a cell context. -/
def modCell (s : State) (n : Nat) (f : CellS → CellS) : State :=
  { s with est := { s.est with cells := tmod {} s.est.cells n f } }
/-- Change every cell context of a string that holds data, and keep the table's form. -/
def mapCells (s : State) (k : Nat) (f : Nat → CellS → CellS) : State :=
  { s with est := { s.est with cells :=
      (s.est.cells.map fun (n, c) => (n, if n / 512 = k then f n c else c)).filter fun p => p.2 != {} } }

/-- The Estimator billet of a string. -/
def estBillet (s : State) (k : Nat) : Option EstBillet :=
  match s.crd.content with
  | some c => c.est.find? fun b => b.str.val == k
  | none => none

/-- C_DEF of a string in mC; 0 where no billet gives one. -/
def cDef (s : State) (k : Nat) : Nat := match estBillet s k with | some b => b.cDef | none => 0

/-- An event on ring 48 (R238). -/
def estEvent (s : State) (k type n : Nat) (data : List Byte) : State :=
  ringPush s 48 (inlineDesc type k (leB 2 n ++ padTo 6 data))

/-- Whole string in an event. -/
def allCells : Nat := 0xFFFF

/-- Mark a learned record dirty: due within `us` (R232). -/
def CellS.soil (c : CellS) (now us : Nat) : CellS :=
  { c with dirty := some (match c.dirty with | some t => min t (now + us) | none => now + us) }

/-- Within 1 s. -/
def dueSoon : Nat := 1000000
/-- Within 10 s. -/
def dueLate : Nat := 10000000

/-! ### Counting charge (R214 to R218) -/

/-- Add energy in 10⁻⁷ mJ with the remainder carried (R215). -/
def addRem (base rem x : Nat) : Nat × Nat := (base + (rem + x) / 10000000, (rem + x) % 10000000)

/-- One instant of a valid string current (R214, R215): I in mA, VSk in mV, 100 µs. -/
def EstStr.count (e : EstStr) (i v : Int) : EstStr :=
  let e := { e with q := e.q + (e.qRem + i) / 10, qRem := (e.qRem + i) % 10, lastI := i }
  let x := (v * i.natAbs).toNat
  if i < 0 then
    let (d, r) := (e.d + (e.dRem + i.natAbs) / 10, (e.dRem + i.natAbs) % 10)
    let (ed, er) := addRem e.eDis e.disRem x
    { e with d := d, dRem := r, eDis := ed, disRem := er }
  else
    let (ec, cr) := addRem e.eChg e.cRem x
    { e with eChg := ec, cRem := cr }

/-- Set COUNT_GAP on every cell of a string and end their traverses (R217, R227). -/
def gapCells (s : State) (k : Nat) : State :=
  mapCells s k fun _ c =>
    if c.lr.countGap ∧ ¬ c.lr.traverse then c
    else ({ c with lr := { c.lr with countGap := true, traverse := false } } : CellS).soil s.now dueSoon

/-- A gap begins (R217). -/
def gapStart (s : State) (k : Nat) : State :=
  let e := estr s k
  let s := modEstr s k fun e => { e with gapCnt := inc16 e.gapCnt, gapSince := some s.now }
  let s := estEvent (gapCells s k) k 4 allCells (leI 4 e.lastI)
  stage s .estGap bEST sevWarning (BitVec.ofNat 8 k :: leI 4 e.lastI)

/-- A gap ends: GAP_END with its duration (R217). -/
def gapEnd (s : State) (k t : Nat) : State :=
  let ms := min 0xFFFFFFFF ((s.now - t) / 1000)
  estEvent (modEstr s k fun e => { e with gapSince := none, gapDur := ms }) k 5 allCells (leB 4 ms)

/-- The 2 ms after PFAIL at whose end the flush takes Q_string (R232). -/
def flushCounts (s : State) : Bool :=
  s.emb.power == .flushing && s.emb.mode != .ember && decide (s.now ≤ s.emb.pfailAt + 2000)

/-- True while the estimator integrates the voted current of a string: with a Cord, out of DROWSE, and after the
handover of R70. -/
def integrates (s : State) (k : Nat) : Bool :=
  hasCord s && (awake s || flushCounts s) && s.emb.mode != .drowse && !(tget {} s.emb.qdrw k).counting

/-- One precision-path instant of a string's count (R214, R217). -/
def estSample (s : State) (k : Nat) : State :=
  if !integrates s k then s
  else
    let s := xbarTaken (fun q => match q with | .estimator j => j.val == k | _ => false) s
    let m := mstr s k
    match m.invalid, (estr s k).gapSince with
    | true, none => gapStart s k
    | true, some _ => s
    | false, g =>
      let s := match g with | some t => gapEnd s k t | none => s
      modEstr s k fun e => e.count m.voted (chan s (12 + k)).word

/-- The handover of a DROWSE count (R70, R218): charge, throughput when negative, energy at the mean voltage. -/
def estHandover (s : State) (k : Nat) : State :=
  let d := tget {} s.emb.qdrw k
  let vbar : Int := if d.vsN = 0 then (chan s (12 + k)).word else rdiv d.vsSum d.vsN
  let x := (vbar * d.q.natAbs * 10).toNat
  modEstr s k fun e =>
    let e := { e with q := e.q + d.q }
    if d.q < 0 then
      let (ed, er) := addRem e.eDis e.disRem x
      { e with d := e.d + d.q.natAbs, eDis := ed, disRem := er }
    else
      let (ec, cr) := addRem e.eChg e.cRem x
      { e with eChg := ec, cRem := cr }

/-! ### State of charge and anchors (R220 to R226) -/

/-- SOC_raw (R220); a cell without a capacity reads 0. -/
def socOf (q qE : Int) (cl : Nat) : Int :=
  if cl = 0 then 0 else clampI (-16384) 81920 (rdiv ((q - qE) * 65536) (1000 * cl))

/-- Recompute SOC_raw and EST_SOC of a cell. -/
def CellS.resoc (c : CellS) : CellS :=
  let r := socOf c.qCell c.lr.qE c.lr.cl
  { c with socRaw := r, soc := (clampI 0 65536 r).toNat, socSat := r == -16384 || r == 81920 }

/-- V_full, V_empty, and V_margin in 100 µV. -/
def vFull (s : State) (k : Nat) : Nat := rdf s estVanc [k] 31 16
/-- V_empty. -/
def vEmpty (s : State) (k : Nat) : Nat := rdf s estVanc [k] 15 0
/-- V_margin. -/
def vMargin (s : State) (k : Nat) : Nat := 10 * rdf s estIanc [k] 15 0

/-- |I_STR| is at or below C / div (R221). -/
def belowC (i : Int) (cl div : Nat) : Bool := decide (i.natAbs * 3600 * div ≤ cl)

/-- The voltage loop of string k's converter is the selected loop (CTL_CVSTATk.SEL = CV). -/
def cvSelected (s : State) (k : Nat) : Bool := (tget {} s.ctl.convs k).sel == 1

/-- SOC_FLOOR and SOC_CEIL of a cell after an evaluation (R225, R226): what is written to ring 48 is told. -/
def CellS.limits (s : State) (k : Nat) (c : CellS) : CellS × Bool × Bool :=
  let low := decide (c.socRaw ≤ 0) && decide (c.vCell > vEmpty s k + vMargin s k)
  let high := c.vSeen && decide (c.socRaw ≥ 65536) && decide (c.vCell + vMargin s k < vFull s k)
  let nf := low && !c.socFloor && !c.floorNoted
  let nc := high && !c.socCeil && !c.ceilNoted
  ({ c with socFloor := low, socCeil := high, floorNoted := c.floorNoted || nf, ceilNoted := c.ceilNoted || nc }, nf, nc)

/-- True for a cell whose temperature keeps its traverse valid (R227); an invalid temperature is none. -/
def tempOk (s : State) (k : Nat) (t : Int) : Bool :=
  let r := rd s estLtmp [k]
  t == -32768 || (decide (sgn 16 (fld r 15 0) ≤ t) && decide (t ≤ sgn 16 (fld r 31 16)))

/-- Evaluate one cell at the close of a normal sweep (R216, R220, R222, R223, R227). `flags` is its CFLAG byte, `t0`
the sweep's instant. -/
def evalCell (s : State) (k n v : Nat) (flags : Byte) (i : Int) (iValid : Bool) (q : Int) (ts : Word64) (t0 : Nat)
    (c : CellS) : CellS :=
  let usable := decide (flags.toNat / 16 = 0)
  let tc := tget (-32768) s.thm.tCell n
  let c := { c with qCell := q - c.lr.bCell, ts := ts, tCell := tc, unusable := !usable, invalid := bitN flags.toNat 7
                    vCell := if usable then v else c.vCell, vSeen := c.vSeen || usable, evalT0 := t0 }
  let c := c.resoc
  let r := rd s estIanc [k]
  let full := usable && decide (v ≥ vFull s k) && cvSelected s k && iValid && belowC i c.lr.cl (fld r 31 24)
  let empty := usable && decide (v ≤ vEmpty s k) && iValid && belowC i c.lr.cl (fld r 23 16)
  let arm0 := bitN c.lr.arm.toNat 0 || (usable && decide (v + vMargin s k < vFull s k))
  let arm1 := bitN c.lr.arm.toNat 1 || (usable && decide (v > vEmpty s k + vMargin s k))
  let arm := BitVec.ofNat 2 (flag arm0 0 + flag arm1 1)
  let trav := c.lr.traverse && tempOk s k tc
  let soil := decide (arm ≠ c.lr.arm) || trav != c.lr.traverse
  let c := { c with fullSince := if full then some (c.fullSince.getD t0) else none
                    emptySince := if empty then some (c.emptySince.getD t0) else none
                    lr := { c.lr with arm := arm, traverse := trav } }
  if soil then c.soil s.now dueSoon else c

/-- Evaluate a cell and write its events. -/
def evalAt (s : State) (k n v : Nat) (flags : Byte) (t0 : Nat) : State :=
  let l := lp s k
  let c := evalCell s k n v flags l.istr (!l.istrInvalid) l.qTs l.ts t0 (cell s n)
  let (c, nf, nc) := c.limits s k
  let s := modCell s n fun _ => c
  let s := if nf then estEvent s k 7 n [] else s
  if nc then estEvent s k 8 n [] else s

/-- A cell at a sweep of another KIND: no reading is usable, so the anchor timers restart (R222), and the temperature
is judged as at any sweep (R227). -/
def otherSweep (s : State) (k n : Nat) (c : CellS) : CellS :=
  let tc := tget (-32768) s.thm.tCell n
  let trav := c.lr.traverse && tempOk s k tc
  let c' : CellS := { c with unusable := true, fullSince := none, emptySince := none, lr := { c.lr with traverse := trav } }
  if trav != c.lr.traverse then c'.soil s.now dueSoon else c'

/-- The cells of a loop at the close of a sweep (R216). -/
def estSweepClose (s : State) (k : Nat) : State :=
  let l := lp s k
  let cells := (List.range l.n).flatMap fun i => (List.range 16).map fun c => (i + 1, c)
  cells.foldl (fun s (p, c) =>
    let n := cellIdx k p c
    let u := unitAt (lp s k) p
    if !fitted s k p c then s
    else if l.kind = 0 then evalAt s k n (u.cells.getD c 0) (u.cflags.getD c 0) l.t0
    else modCell s n (otherSweep s k n)) s

/-- Update the cycle count of a cell (R229). -/
def Learned.cycles (lr : Learned) (d : Nat) : Learned :=
  if lr.cl = 0 then lr
  else
    let n := (d - lr.dRef) * 1024 / (1000 * lr.cl)
    { lr with cyc := lr.cyc + BitVec.ofNat 32 n, dRef := lr.dRef + n * 1000 * lr.cl / 1024 }

/-- Cycle update of one cell, and when it was. -/
def cycleCell (s : State) (k : Nat) (c : CellS) : CellS :=
  let lr := c.lr.cycles (estr s k).d
  let c' : CellS := { c with lastCyc := s.emb.oph.toNat, lr := lr }
  if lr = c.lr then c' else c'.soil s.now dueLate

/-- Update the cycle counts of every cell, on entry into EMBER and DROWSE (R229). -/
def cyclesAll (s : State) : State :=
  (strs s).foldl (fun s k => mapCells s k fun _ c => cycleCell s k c) s

/-- CYCLE_UPDATE: 86,400 operating seconds have passed since the cell's last update (R229). -/
def execCycleUpdate (n : Fin 2048) (s : State) : Out :=
  .next (
    if s.emb.oph.toNat < (cell s n).lastCyc + 86400 then s else modCell s n (cycleCell s (n / 512)))

/-- The largest capacity C_L holds. -/
def clMax : Nat := 0xFFFFFFFF

/-- learn(span) with span in mC (R228): the record, and the event: 0 none, 2 accepted, 3 rejected. -/
def learn (lr : Learned) (span : Int) (k tol cdef : Nat) : Learned × Nat :=
  let last := (clampI 0 clMax span).toNat
  if lr.learnStale then
    let hi := min (3 * cdef / 2) clMax
    ({ lr with cl := (clampI (cdef / 2 : Nat) hi span).toNat, learnStale := false, cLast := last
               accepted := inc16 lr.accepted }, 0)
  else if span > 0 ∧ (span - lr.cl).natAbs * 100 ≤ tol * lr.cl then
    ({ lr with cl := (clampI 0 clMax (lr.cl + rdiv (span - lr.cl) (max 1 k : Nat))).toNat, cLast := last
               accepted := inc16 lr.accepted }, 2)
  else ({ lr with cLast := last, rejected := inc16 lr.rejected }, 3)

/-- The anchor of a cell (R224): the record, SOC_raw before, and the learning event. -/
def anchorCell (s : State) (k : Nat) (full : Bool) (c : CellS) : CellS × Nat :=
  let q := c.qCell
  let t := if full then 1 else 2
  let before := c.socRaw
  let lr := c.lr.cycles (estr s k).d
  let r := rd s estLrn [k]
  let span : Int := rdiv (if full then q - lr.qA else lr.qA - q) 1000
  let (lr, ev) := if lr.aType = 3 - t ∧ lr.traverse then learn lr span (fld r 31 24) (fld r 23 16) (cDef s k) else (lr, 0)
  let lr := { lr with qE := if full then q - 1000 * (lr.cl : Int) else q }
  let c := ({ c with lr := lr, lastCyc := s.emb.oph.toNat } : CellS).resoc
  let own := if full then (1 : BitVec 2) else 2
  let lr := { c.lr with qA := q, aType := t, ntA := c.ts, step := c.socRaw - before, traverse := true, countGap := false
                        defaults := false, arm := ~~~ own }
  (({ c with lr := lr, socFloor := false, socCeil := false, floorNoted := false, ceilNoted := false
             fullSince := if full then none else c.fullSince
             emptySince := if full then c.emptySince else none } : CellS).soil s.now dueSoon, ev)

/-- The timer of an anchor type has reached its limit at the last sweep that closed, and the type is armed (R222, R223). -/
def anchorDue (s : State) (k : Nat) (full : Bool) (c : CellS) : Bool :=
  let r := rd s estTanc [k]
  let since := if full then c.fullSince else c.emptySince
  let lim := 1000000 * (if full then fld r 31 20 else fld r 19 8)
  match since with
  | some t => bitN c.lr.arm.toNat (if full then 0 else 1) && decide (c.evalT0 ≥ t + lim)
  | none => false

/-- ANCHOR: a FULL or EMPTY anchor of a cell: cycles, learning, Q_E, STEP, flags, events (R224 to R229, R238). -/
def execAnchor (n : Fin 2048) (full : Bool) (s : State) : Out :=
  .next (
    let k := n.val / 512
    let c := cell s n
    if !anchorDue s k full c then s
    else
      let (c', ev) := anchorCell s k full c
      let s := modCell s n fun _ => c'
      let span := leB 4 c'.lr.cLast
      let s := if ev = 0 then s else estEvent s k ev n span
      let s := if ev = 3 then stage s .estLearnReject bEST sevNotice (leB 2 n.val ++ span) else s
      estEvent s k 1 n (BitVec.ofNat 8 (if full then 1 else 2) :: leI 4 c'.lr.step))

/-- One cell's EST_SOC_DISP moves towards EST_SOC by at most 2796 units of 2⁻²⁴ (R220). -/
def CellS.display (c : CellS) : CellS :=
  let t := c.soc * 256
  { c with disp := if c.disp < t then min t (c.disp + 2796) else max t (c.disp - 2796) }

/-- SOC_DISPLAY_UPDATE: once per second (R220). -/
def execSocDisplayUpdate (s : State) : Out :=
  .next (
    if !awake s ∨ s.now < s.est.lastDisp + 1000000 then s
    else
      let s := (List.range 4).foldl (fun s k => mapCells s k fun _ c => c.display) s
      { s with est := { s.est with lastDisp := s.now } })

/-- EST_SOC_DISP as published, rounded to 1/65536. -/
def dispWord (c : CellS) : Nat := (rdiv c.disp 256).toNat

/-! ### Excess charge (R230) -/

/-- Cells that carry neither LEARN_STALE nor COUNT_GAP. -/
def trusted (c : CellS) : Bool := !c.lr.learnStale && !c.lr.countGap

/-- SOC_ref: the lowest SOC_raw among eligible trusted cells of a string. -/
def socRef (s : State) (k : Nat) : Option Int :=
  (((List.range (lp s k).n).flatMap fun i =>
    ((List.range 16).filter fun c => eligible s k (i + 1) c).map fun c => cellIdx k (i + 1) c).filterMap fun n =>
      if trusted (cell s n) then some (cell s n).socRaw else none).min?

/-- Supply E_c of every cell of a string; without a reference cell it is 0. -/
def supplyEc (s : State) (k : Nat) : State :=
  let ref := socRef s k
  mapCells s k fun _ c =>
    let e := match ref with
      | some r => if trusted c then ((c.socRaw - r) * c.lr.cl / 65536).toNat else 0
      | none => 0
    { c with eC := min 0xFFFFFFFF e }

/-- Add a bleed increment to a cell's B_cell (R161). -/
def addBleed (s : State) (n inc : Nat) : State :=
  if inc = 0 then s
  else modCell s n fun c =>
    ({ c with lr := { c.lr with bCell := c.lr.bCell + inc } } : CellS).soil s.now dueLate

/-! ### Retained records (R231 to R235) -/

/-- The string record as it stands. -/
def strRecord (e : EstStr) (clean : Bool) : StrRec :=
  let a := match e.copyA with | some r => r.seq | none => 0
  let b := match e.copyB with | some r => r.seq | none => 0
  { seq := max a b + 1, q := e.q, d := e.d, eChg := e.eChg, eDis := e.eDis, qRem := e.qRem, dRem := e.dRem
    cRem := e.cRem, disRem := e.disRem, seed := e.seed, clean := clean }

/-- Write a string record to the copy with the lower SEQ, or B (R232). -/
def writeStr (s : State) (k : Nat) (clean : Bool) : State :=
  modEstr s k fun e =>
    let a := match e.copyA with | some r => r.seq | none => 0
    let b := match e.copyB with | some r => r.seq | none => 0
    let r := strRecord e clean
    if a < b then { e with copyA := some r, lastWrite := s.now } else { e with copyB := some r, lastWrite := s.now }

/-- Write a learned record to the copy with the lower SEQ, or B (R232). -/
def CellS.write (c : CellS) : CellS :=
  let a := match c.copyA with | some r => r.seq | none => 0
  let b := match c.copyB with | some r => r.seq | none => 0
  let lr := { c.lr with seq := max a b + 1 }
  if a < b then { c with lr := lr, copyA := some lr, dirty := none } else { c with lr := lr, copyB := some lr, dirty := none }

/-- The board temperature allows a write: −25 °C to +85 °C (R233). -/
def boardOk (s : State) : Bool := decide (-400 ≤ s.thm.board) && decide (s.thm.board ≤ 1360)

/-- Writes are open: HOLDUP_OK, the board temperature, no deferral. -/
def nvOpen (s : State) : Bool := s.emb.holdupOk && boardOk s && !s.est.nvDefer

/-- Note a deferral when the board temperature is outside its range. -/
def nvNote (s : State) : State := if boardOk s then s else { s with est := { s.est with nvDefer := true } }

/-- A deferral of the logic engine begins while HOLDUP_OK is clear or the board is outside its range; its onset counts (R369). -/
def lgcDeferNote (s : State) : State :=
  if s.emb.mode = .ember ∨ s.lgc.nvDefer ∨ (s.emb.holdupOk ∧ boardOk s) then s
  else { s with lgc := { s.lgc with nvDefer := true, deferCnt := inc16 s.lgc.deferCnt } }

/-- EST_STRING_WRITE: a string record every 1 s (R232, R233). -/
def execEstStringWrite (k : Str) (s : State) : Out :=
  .next (
    if !awake s ∨ s.now < (estr s k).lastWrite + 1000000 then s
    else if nvOpen s then writeStr s k false
    else nvNote s)

/-- EST_LEARNED_WRITE: a dirty learned record whose time has come (R232, R233). -/
def execEstLearnedWrite (n : Fin 2048) (s : State) : Out :=
  .next (
    match (cell s n).dirty with
    | some t =>
      if !awake s ∨ s.now + 1000000 < t then s
      else if nvOpen s then modCell s n CellS.write
      else nvNote s
    | none => s)

/-- EST_NV_RESUME: back within −23 °C to +83 °C (R233). -/
def execEstNvResume (s : State) : Out :=
  .next (
    if s.est.nvDefer && decide (-368 ≤ s.thm.board) && decide (s.thm.board ≤ 1328) then
      { s with est := { s.est with nvDefer := false } }
    else s)

/-- Write every dirty record and every string record: FLUSH, entry into EMBER, the power-fail flush (R232). -/
def estFlushAll (s : State) (clean : Bool) : State :=
  let s := (strs s).foldl (fun s k => writeStr s k clean) s
  (List.range 4).foldl (fun s k => mapCells s k fun _ c => if c.dirty.isSome then c.write else c) s

/-- The power-fail flush; where writes were deferred as it began, it writes nothing and DEFER counts (R72, R233). -/
def estPowerFlush (shut : Bool) (s : State) : State :=
  if shut then { s with est := { s.est with deferCnt := inc16 s.est.deferCnt } }
  else estFlushAll s true

/-- The writes of an entry into EMBER, deferred like any other (R232, R233). -/
def estEmberFlush (s : State) : State := if nvOpen s then estFlushAll s true else nvNote s

/-- Key of an impedance table entry. -/
def tabKey (n e : Nat) : Nat := 1024 * n + e

/-- Replace a cell's impedance table, which is to be written within 60 s (R259). -/
def setTable (s : State) (n : Nat) (t : Tab ImpEntry) : State :=
  let lo := s.imp.tab.filter fun p => decide (p.1 / 1024 < n)
  let hi := s.imp.tab.filter fun p => decide (p.1 / 1024 > n)
  { s with imp := { s.imp with tab := lo ++ t.map (fun p => (tabKey n p.1, p.2)) ++ hi } }

/-- A cell's changed table waits to be written (R259). -/
def impDirty (s : State) (n : Nat) : State :=
  { s with imp := { s.imp with dirty := tset 0 s.imp.dirty n (s.now + 60000000) } }

/-- Reload a cell's impedance defaults with DEFAULT set and COUNT 0: an unlisted entry reads so (R235, R258). -/
def impSeed (s : State) (n : Nat) : State := impDirty (setTable s n []) n

/-- Seed a cell (R235). `clear` sets B_cell to 0 as well. -/
def seedCell (s : State) (k : Nat) (clear : Bool) (c : CellS) : CellS :=
  match estBillet s k with
  | none => c
  | some b =>
    let bc := if clear then 0 else c.lr.bCell
    let q := (estr s k).q - bc
    let lr : Learned :=
      { c.lr with cl := b.cDef, qE := q - rdiv ((b.soc0 : Int) * 1000 * b.cDef) 65536, cyc := 0, dRef := (estr s k).d
                  qA := 0, aType := 0, defaults := true, learnStale := false, bCell := bc, seed := b.seed
                  traverse := false, arm := 3 }
    ({ c with lr := lr, qCell := q } : CellS).resoc.soil s.now dueSoon

/-- Seed cell n, its impedance table with it (R235). -/
def seedAt (s : State) (n : Nat) (clear : Bool) : State :=
  let t := modCell s n (seedCell s (n / 512) clear)
  if (estBillet s (n / 512)).isSome then impSeed t n else t

/-- The cells of a string that a unit can carry and that are fitted. -/
def fittedCells (s : State) (k : Nat) : List Nat :=
  (List.range 32).flatMap fun i => ((List.range 16).filter fun c => fitted s k (i + 1) c).map fun c => cellIdx k (i + 1) c

/-- A new SEED: counts and B_cell 0, every cell seeded, EST_RESEEDED (R235). -/
def reseed (s : State) (k : Nat) (b : EstBillet) : State :=
  let s := modEstr s k fun e => { e with q := 0, qRem := 0, d := 0, dRem := 0, seed := b.seed }
  let s := (fittedCells s k).foldl (fun s n => seedAt s n true) s
  let s := estEvent s k 0x0A allCells [3]
  stage s .estReseeded bEST sevNotice (BitVec.ofNat 8 k :: leB 4 b.seed.toNat)

/-- The better of two copies: the higher SEQ (R234). -/
def bestLearned (c : CellS) : Option Learned :=
  match c.copyA, c.copyB with
  | some a, some b => some (if a.seq > b.seq then a else b)
  | some a, none => some a
  | none, b => b

/-- The better string record. -/
def bestStr (e : EstStr) : Option StrRec :=
  match e.copyA, e.copyB with
  | some a, some b => some (if a.seq > b.seq then a else b)
  | some a, none => some a
  | none, b => b

/-- A cell at cold start or Kindling: its record in use, its charge from the string's count q, both anchor types armed at
cold start (R216, R223, R234). -/
def startCell (cold : Bool) (q : Int) (c : CellS) : CellS :=
  match bestLearned c with
  | none => { ({} : CellS) with copyA := c.copyA, copyB := c.copyB, tz := c.tz, tzAt := c.tzAt }
  | some lr =>
    let lr := { lr with arm := if cold then 3 else lr.arm }
    let c : CellS := { ({} : CellS) with lr := lr, copyA := c.copyA, copyB := c.copyB, tz := c.tz, tzAt := c.tzAt
                                         lastCyc := c.lastCyc, qCell := q - lr.bCell, disp := c.disp }
    c.resoc

/-- A cell of which no copy passes: seeded, REC_LOST and LEARN_STALE (R234). -/
def lostCell (s : State) (n : Nat) : State :=
  let s := seedAt s n false
  let s := modCell s n fun c => { c with lr := { c.lr with recLost := true, learnStale := true } }
  let s := estEvent s (n / 512) 9 n []
  stage s .estRecordLost bEST sevFault (leB 2 n)

/-- A string's records at cold start and Kindling, and at cold start the display at EST_SOC (R220, R234, R235). -/
def estStartStr (cold : Bool) (s : State) (k : Nat) : State :=
  let e := estr s k
  let rec_ := bestStr e
  let s := match rec_ with
    | some r => modEstr s k fun e =>
        { ({} : EstStr) with q := r.q, d := r.d, eChg := r.eChg, eDis := r.eDis, qRem := r.qRem, dRem := r.dRem
                             cRem := r.cRem, disRem := r.disRem, seed := r.seed, copyA := e.copyA, copyB := e.copyB
                             gapCnt := e.gapCnt, gapDur := e.gapDur, lastWrite := s.now }
    | none => modEstr s k fun e => { ({} : EstStr) with gapCnt := e.gapCnt, gapDur := e.gapDur, lastWrite := s.now }
  let s := mapCells s k fun _ c => startCell cold (estr s k).q c
  let s := match rec_ with
    | some r =>
      if r.clean then s
      else
        let s := modEstr (gapCells s k) k fun e => { e with gapCnt := inc16 e.gapCnt, gapDur := 0xFFFFFFFF }
        estEvent (estEvent s k 4 allCells (leI 4 0)) k 5 allCells (leB 4 0xFFFFFFFF)
    | none => s
  let s := match estBillet s k with
    | none => s
    | some b =>
      if cold ∧ (estr s k).seed ≠ b.seed then reseed s k b
      else
        ((fittedCells s k).filter fun n => (bestLearned (cell s n)).isNone && (cell s n).lr.cl == 0).foldl lostCell s
  if cold then mapCells s k fun _ c => { c with disp := c.soc * 256 } else s

/-- The copies of a learned record that pass their CRC. -/
def CellS.passing (bad : List (Nat × Bool)) (n : Nat) (c : CellS) : CellS :=
  { c with copyA := if bad.contains (n, false) then none else c.copyA
           copyB := if bad.contains (n, true) then none else c.copyB }

/-- The copies of a string record that pass their CRC. -/
def EstStr.passing (bad : List (Nat × Bool)) (k : Nat) (e : EstStr) : EstStr :=
  { e with copyA := if bad.contains (k, false) then none else e.copyA
           copyB := if bad.contains (k, true) then none else e.copyB }

/-- The copies that fail go out of use, each counted in TORN (R234). -/
def estTorn (b : BootFacts) (s : State) : State :=
  let kept (l : List (Nat × Bool)) (has : Nat → Bool → Bool) : Nat := (l.eraseDups.filter fun p => has p.1 p.2).length
  let n := kept b.lrBad (fun n c => if c then (cell s n).copyB.isSome else (cell s n).copyA.isSome) +
    kept b.strBad (fun k c => if c then (estr s k).copyB.isSome else (estr s k).copyA.isSome)
  let s := { s with est := { s.est with torn := satAdd 0xFFFF s.est.torn n } }
  (List.range 4).foldl (fun s k => mapCells (modEstr s k fun e => e.passing b.strBad k) k fun n c => c.passing b.lrBad n) s

/-- The estimator at cold start and Kindling. -/
def estStart (s : State) (cold : Bool) (b : BootFacts) : State :=
  let s := (strs s).foldl (estStartStr cold) (estTorn b s)
  { s with est := { s.est with res := .ok, nvDefer := false, flushing := false, lastDisp := s.now } }

/-! ### Changed units (R236) -/

/-- Compare a unit's ID with the UID of its cells: a changed one makes its 16 cells LEARN_STALE. A stored UID of 0 is
the first comparison and no change. -/
def compareId (s : State) (k p : Nat) (uid : Word64) : State :=
  let n0 := cellIdx k p 0
  let old := (cell s n0).lr.uid
  if old = uid then s
  else
    let store (stale : Bool) (s : State) (c : Nat) : State :=
      modCell s (n0 + c) fun x => ({ x with lr := { x.lr with
        uid := uid, learnStale := x.lr.learnStale || stale, traverse := x.lr.traverse && !stale } } : CellS).soil s.now dueSoon
    let s := (List.range 16).foldl (store (decide (old ≠ 0))) s
    if old = 0 then s
    else stage (estEvent s k 6 n0 [BitVec.ofNat 8 p]) .estStale bEST sevNotice [BitVec.ofNat 8 k, BitVec.ofNat 8 p]

/-! ### EST_CMD (R237) -/

/-- EST_RES. -/
def estRes (c : Code) (s : State) : State := { s with est := { s.est with res := c } }

/-- The checks of RESET_CELLS and ACCEPT_UID: a string that is not fitted, the mode, the range. -/
def cellsCheck (first count : Nat) (s : State) : Code :=
  let ok := decide (1 ≤ count) && decide (first + count ≤ 2048)
  let last := if ok then (first + count - 1) / 512 else first / 512
  let m := s.emb.mode
  firstCode [when_ (!((List.range 4).all fun k => decide (k < first / 512) || decide (k > last) || strOk s k)) .notPresent,
    when_ (m == .precharge || m == .connected || m == .drowse) .refusedMode, rng ok]

/-- The RESET event and record of a command, one per string concerned; with one cell its index (R237, R238). -/
def noteReset (s : State) (first count kind : Nat) : State :=
  let ks := (List.range 4).filter fun k => decide (first / 512 ≤ k) && decide (k ≤ (first + count - 1) / 512)
  ks.foldl (fun s k =>
    stage (estEvent s k 0x0A (if count = 1 then first else allCells) [BitVec.ofNat 8 kind]) .estReset bEST sevNotice
      (BitVec.ofNat 8 kind :: (leB 2 first ++ leB 2 count))) s

/-- RESET_CELLS: the cells are seeded; LEARN_STALE and the traverse end (R227, R235, R237). -/
def opResetCells (first count : Nat) (s : State) : Code × State :=
  ifOk (cellsCheck first count s) s fun s =>
    let s := (List.range count).foldl (fun s i => seedAt s (first + i) false) s
    (.ok, noteReset s first count 1)

/-- ACCEPT_UID: LEARN_STALE clears and the learned data stays (R237). -/
def opAcceptUid (first count : Nat) (s : State) : Code × State :=
  ifOk (cellsCheck first count s) s fun s =>
    let s := (List.range count).foldl (fun s i => modCell s (first + i) fun c =>
      if c.lr.learnStale then ({ c with lr := { c.lr with learnStale := false } } : CellS).soil s.now dueSoon else c) s
    (.ok, noteReset s first count 2)

/-- FLUSH: write every dirty record now; BUSY is not held, the write is at once. -/
def opEstFlush (s : State) : Code × State := (.ok, if nvOpen s then estFlushAll s false else nvNote s)

/-! ### Status -/

/-- Retained and live cell flags (*Table: Estimator cell flags*). -/
def retainedFlags (lr : Learned) : Nat :=
  flag lr.defaults 9 + flag lr.recLost 8 + flag lr.traverse 7 + flag lr.countGap 4 + flag lr.learnStale 3

/-- CFLAGS of a cell. -/
def cellFlags (c : CellS) : Nat :=
  retainedFlags c.lr + flag c.unusable 6 + flag c.invalid 5 + flag c.socSat 2 + flag c.socCeil 1 + flag c.socFloor 0

/-- The live block (R239). -/
def liveBlock (c : CellS) : List Byte :=
  leI 4 c.socRaw ++ leB 4 c.soc ++ leB 4 (dispWord c) ++ leB 2 (cellFlags c) ++ leB 2 c.vCell ++ leI 8 c.qCell ++
    leI 8 c.lr.bCell ++ leB 4 c.eC ++ leI 2 c.tCell ++ [0, 0] ++ leB 8 c.ts.toNat ++ List.replicate 16 0

/-- The learned record's 128 bytes (R231). -/
def Learned.bytes (n : Nat) (lr : Learned) : List Byte :=
  let b := leB 4 lr.seq ++ leB 2 n ++ leB 2 (retainedFlags lr) ++ leB 4 lr.cl ++ leB 4 lr.cyc.toNat ++ leI 8 lr.qE ++
    leI 8 lr.qA ++ [BitVec.ofNat 8 lr.aType, BitVec.ofNat 8 lr.arm.toNat, 0, 0] ++
    leB 4 (lr.accepted * 65536 + lr.rejected) ++ leB 4 lr.cLast ++ leI 4 lr.step ++ leB 8 lr.uid.toNat ++ leB 8 lr.dRef ++
    leB 8 lr.ntA.toNat ++ leI 8 lr.bCell ++ leB 4 lr.seed.toNat ++ List.replicate 40 0
  b ++ leB 4 (crc32c b)

/-- Dirty data in KB: 128 bytes a record. -/
def dirtyKb (s : State) : Nat := ((s.est.cells.filter fun p => p.2.dirty.isSome).length * 128 + 1023) / 1024

end Sys2Proof.Machine
end

