-- ==== Sys2Proof/Machine/Trig.lean ====
section
/-!
DEFINITION. Sine, cosine and arc tangent in integers, for the oscillators of R240, R249 and R294 and the phase of R261.
A phase is a fraction of a turn in units of 2⁻³². The spec rounds only the results; the series below are exact to far
below one unit of every result it names.
-/

namespace Sys2Proof.Machine

/-- π/2 in units of 2⁻⁴⁰. -/
def halfPi : Nat := 1727108826179

/-- Partial sums of an alternating series: the term t, divided each step by (2i + a)(2i + a + 1), times x². -/
def trigSeries : Nat → Nat → Nat → Int → Int → Int
  | 0, _, _, _, acc => acc
  | n + 1, a, x2, t, acc =>
    let t := -(t * x2 / 2 ^ 40 / ((a + 1) * (a + 2) : Nat))
    trigSeries n (a + 2) x2 t (acc + t)

/-- Sine of r × 2⁻³⁰ quarter turns, in 2⁻⁴⁰. -/
def sinQuarter (r : Nat) : Int :=
  let x := r * halfPi / 2 ^ 30
  trigSeries 9 1 (x * x / 2 ^ 40) x x

/-- Cosine of r × 2⁻³⁰ quarter turns, in 2⁻⁴⁰. -/
def cosQuarter (r : Nat) : Int :=
  let x := r * halfPi / 2 ^ 30
  trigSeries 10 0 (x * x / 2 ^ 40) (2 ^ 40) (2 ^ 40)

/-- Sine of a phase, in 2⁻⁴⁰. -/
def sinQ (ph : Nat) : Int :=
  let r := ph % 2 ^ 30
  match ph / 2 ^ 30 % 4 with
  | 0 => sinQuarter r
  | 1 => cosQuarter r
  | 2 => -sinQuarter r
  | _ => -cosQuarter r

/-- Cosine of a phase, in 2⁻⁴⁰. -/
def cosQ (ph : Nat) : Int := sinQ (ph + 2 ^ 30)

/-- Half an hundredth of a degree, counted: the phase of (2n + 1) × 0.005°. -/
def midDeg (n : Nat) : Nat := (2 * n + 1) * 2 ^ 32 / 72000

/-- The number of 0.01° in the arc tangent of y / x for 0 ≤ y, 0 ≤ x, rounded to nearest, by bisection over [lo, hi). -/
def atanStep : Nat → Nat → Nat → Nat → Nat → Nat
  | 0, lo, _, _, _ => lo
  | f + 1, lo, hi, y, x =>
    if hi ≤ lo then lo
    else
      let m := (lo + hi) / 2
      if sinQ (midDeg m) * x ≤ cosQ (midDeg m) * y then atanStep f (m + 1) hi y x else atanStep f lo m y x

/-- atan2(y, x) in 0.01° (R261). -/
def atan2 (y x : Int) : Int :=
  if y = 0 ∧ x = 0 then 0
  else
    let a : Int := atanStep 15 0 9000 y.natAbs x.natAbs
    let b := if x < 0 then 18000 - a else a
    if y < 0 then -b else b

end Sys2Proof.Machine
end

