-- ==== Sys2Proof/Machine/Imp.lean ====
section
/-!
DEFINITION. In-service impedance sweeps (chapter 9): points, excitation, demodulation, tables and the impedance
temperature. Points are carried by the chain's NCO_SET, SYNC of KIND 0x02 and READ_IQ (see `Chain.lean`).
-/

namespace Sys2Proof.Machine

/-- BLOCK code of IMP. -/
def bIMP : Byte := 0x09

/-- A loop's impedance sweep. -/
def imps (s : State) (k : Nat) : ImpS := tget {} s.imp.loops k
/-- Change a loop's impedance sweep. -/
def modImp (s : State) (k : Nat) (f : ImpS → ImpS) : State :=
  { s with imp := { s.imp with loops := tmod {} s.imp.loops k f } }

/-! ### Conditions (R241, R243, R253) -/

/-- R241: CONNECTED or MAINTENANCE, and the lease in a paired module. -/
def impMay (s : State) : Bool := (s.emb.mode == .connected || s.emb.mode == .maintenance) && leaseValid s

/-- True while a sweep or temperature point runs, is paused or holds. -/
def impActive (s : State) (k : Nat) : Bool := (imps s k).state != 0

/-- The contexts of converter k (R279). -/
def convCtxs (s : State) (k : Nat) : List Nat :=
  let c := rd s ctlCvcfg [k]
  [fld c 29 24, fld c 21 16, fld c 13 8, fld c 5 0]

/-- A test-signal generator runs on a context of converter k (R243). -/
def genOnConv (s : State) (k : Nat) : Bool :=
  (List.range 4).any fun g =>
    (tget {} s.ctl.gens g).state == 1 && (convCtxs s k).contains (rdf s ctlGcfg [g] 21 16)

/-- The thermal supervisor throttles or derates string k. -/
def derated (s : State) (k : Nat) : Bool :=
  let t := tget {} s.thm.strs k
  t.throttle || t.derC != 32768 || t.derD != 32768

/-- An open-wire test runs or waits on the loop. -/
def owWaiting (s : State) (k : Nat) : Bool := (lp s k).owState != 0 || !(lp s k).owWait.isEmpty

/-- The WHY of the first condition that keeps a sweep of loop k from running (R241, R253, R254). DEDUCED (assumption 44): a
START under a condition that pauses a running sweep begins the sweep PAUSED. -/
def impWhy (s : State) (k : Nat) : Option Nat :=
  if !(s.emb.mode == .connected || s.emb.mode == .maintenance) then some 1
  else if (lp s k).state ≠ .closed then some 2
  else if derated s k then some 3
  else if (mstr s k).invalid then some 4
  else if !leaseValid s then some 5
  else if (imps s k).hostPause then some 7
  else none

/-- Every condition under which a paused sweep may resume (R254). -/
def impClear (s : State) (k : Nat) : Bool := (impWhy s k).isNone

/-! ### Points (R244, R245) -/

/-- POINT of the temperature point. -/
def tzPoint : Nat := 0x80

/-- The frequency word of a point of loop k. -/
def pointFw (s : State) (k p : Nat) : Nat := if p = tzPoint then rd s impTzf [k] else rd s impFpt [k, p]

/-- Cycles integrated: max(N_CYC, ceil(f × T)) with T in ms. -/
def cyclesM (fw nCyc tMs : Nat) : Nat := max nCyc ((fw * tMs + 1000 * 2 ^ 20 - 1) / (1000 * 2 ^ 20))

/-- The enabled point at or after i, if any. -/
def nextPoint (s : State) (k i : Nat) : Option Nat :=
  (List.range 12).find? fun p => decide (p ≥ i) && decide (rd s impFpt [k, p] ≠ 0)

/-- win_hi and win_lo in 100 µV (R245). -/
def window (s : State) (k : Nat) : Int × Int :=
  let v := rd s swpVlim [k]
  let m : Int := 10 * rdf s impLim [k] 31 22
  ((fld v 31 16 : Int) - m, (fld v 15 0 : Int) + m)

/-- The readings of the loop's eligible cells in the last normal sweep, with cell numbers. -/
def eligibleCells (s : State) (k : Nat) : List (Nat × Nat) :=
  let l := lp s k
  (List.range l.n).flatMap fun i => ((List.range 16).filter fun c => eligible s k (i + 1) c).map fun c =>
    (cellIdx k (i + 1) c, (unitAt l (i + 1)).cells.getD c 0)

/-- h of R245. DESIGN CHOICE (assumption 74): with no eligible cell it is the width of the window. -/
def headroom (s : State) (k : Nat) : Int :=
  let (hi, lo) := window s k
  (((eligibleCells s k).map fun p => min (hi - (p.2 : Int)) ((p.2 : Int) - lo)).min?).getD (hi - lo)

/-- The default of an entry, from the Estimator billet (R235, R256). -/
def impDefault (s : State) (n e : Nat) : ImpEntry :=
  match estBillet s (n / 512) with
  | some b => match b.imp.find? fun x => x.1 == e with
    | some (_, re, im) => { re := re, im := im, dflt := true }
    | none => { dflt := true }
  | none => { dflt := true }

/-- A table entry; an unlisted one holds its default. -/
def impEntry (s : State) (n e : Nat) : ImpEntry :=
  let x := tget {} s.imp.tab (tabKey n e)
  if x = {} then impDefault s n e else x

/-- |Z| of an entry. -/
def zAbs (e : ImpEntry) : Nat := isqrt (e.re.natAbs ^ 2 + e.im.natAbs ^ 2)

/-- T_UNIT of the cell's unit in 1/16 °C, −32768 when none. -/
def tUnit (s : State) (k p : Nat) : Int := tget (-32768) s.thm.unitT (32 * k + p - 1)

/-- Bands of a cell (R257): NO_BAND at bit 5, tb in bits 4:3, sb in bits 2:0. -/
def bandOf (s : State) (n : Nat) : Nat :=
  let (k, p, _) := cellPos n
  let t := tUnit s k p
  let tb := rd s impTb [k]
  let lim (i : Nat) : Int := 16 * sgn 8 (fld tb (8 * i + 7) (8 * i))
  let b := if t < lim 0 then 0 else if t < lim 1 then 1 else if t < lim 2 then 2 else 3
  let sb := min 7 ((cell s n).soc * 8 / 65536)
  if t = -32768 then 32 + sb else 8 * b + sb

/-- Entry of a frequency point in a cell's present bands. -/
def bandEntry (band p : Nat) : Nat := 96 * (band / 8 % 4) + 12 * (band % 8) + p

/-- z_max of R245: the highest |z| in the string's tables at this point, each cell in its own bands; free at the temperature
point, which has no table entry. DESIGN CHOICE (assumption 74): a cell without a temperature counts in tb 0. -/
def zMax (s : State) (k p : Nat) : Nat :=
  if p = tzPoint then Config.tzZmax k s.now
  else (((fittedCells s k).map fun n => zAbs (impEntry s n (bandEntry (bandOf s n) p))).max?).getD 0

/-- The amplitude of a point in 10 mA, before halving; none when the headroom does not reach A_MIN (R245). DESIGN CHOICE
(assumption 74): A is a whole number of 10 mA, rounded down, and a z_max of 0 bounds nothing. -/
def amplitude (s : State) (k p : Nat) : Option Nat :=
  let h := headroom s k
  let z := zMax s k p
  let rated : Int := if s.emb.mode = .maintenance then 4000 else 40000
  let byDsp : Int := (10 * rated - (tget {} s.ctl.convs k).iSel.natAbs) / 10
  let a : Int := min (rdf s impCfg [k] 31 20) byDsp
  let a := if z = 0 then a else min a (h * 100000 / z)
  if h ≤ 0 ∨ a < rdf s impLim [k] 21 12 then none else some a.toNat

/-! ### Events and results (R263) -/

/-- An inline descriptor of TYPE 0x03 on ring 36 + k. -/
def impEvent (s : State) (k ev point reason extra : Nat) : State :=
  ringPush s (36 + k) (inlineDesc 3 k [BitVec.ofNat 8 ev, BitVec.ofNat 8 point, BitVec.ofNat 8 reason,
    BitVec.ofNat 8 extra, 0, 0, 0, 0])

/-- The point under way, as the events name it. -/
def pointNow (i : ImpS) : Nat := if i.tz then tzPoint else i.point

/-- Abandon the point under way: the ABANDON event and the excitation off (R246, R253). DESIGN CHOICE (assumption 74): the
excitation ends at once, within the 20 ms that the rule leaves it. -/
def impAbandon (s : State) (k reason : Nat) : State :=
  let i := imps s k
  let s := if i.epoch.isSome || i.armed then impEvent s k 3 (pointNow i) reason 0 else s
  modImp s k fun i => { i with due := false, armed := false, epoch := none, iqSent := false }

/-- Pause a sweep (R253): the point is abandoned and the excitation off; a temperature point simply ends. -/
def impPause (s : State) (k why : Nat) : State :=
  let i := imps s k
  if i.state = 0 ∨ i.state = 2 then s
  else
    let s := modImp (impAbandon s k why) k fun i =>
      { i with state := if i.inSweep then 2 else 0, tz := false, why := why, pausedAt := s.now }
    if i.inSweep then impEvent s k 5 (pointNow i) why 0 else s

/-- End a sweep: LAST, the END or ABORTED event, balancing resumes (R254, R263). -/
def impFinish (s : State) (k last : Nat) : State :=
  let i := imps s k
  let s := if last = 3 then impEvent s k 8 i.point i.why 0 else impEvent s k 7 i.point 0 i.skips
  let s := modImp s k fun i =>
    { i with state := 0, inSweep := false, tz := false, due := false, armed := false, epoch := none, iqSent := false
             last := last, lastEnd := s.now, tzDue := false
             swCnt := if last ≤ 2 then wrap 16 i.swCnt else i.swCnt }
  modLp s k fun l => { l with balImp := false }

/-- Start a sweep on a loop: balancing stops (R160, R254). A temperature point under way goes on first (R260), and a
condition of *Table: Sweep reactions* that already holds pauses the sweep. A loop without an enabled point has its sweep
complete at once. -/
def impBegin (s : State) (k : Nat) : State :=
  let p := (nextPoint s k 0).getD 0
  let s := sendBalZero (modLp s k fun l => { l with balImp := true }) k
  let s := modImp s k fun i =>
    if i.tz then { i with inSweep := true, point := p, skips := 0, hostPause := false }
    else { i with state := 1, inSweep := true, point := p, skips := 0, due := true, armed := false
                  epoch := none, repeated := false, halved := false, why := 0, hostPause := false }
  let s := impEvent s k 1 p 0 0
  if nextPoint s k 0 = none then impFinish s k 1
  else match impWhy s k with
    | some w => impPause s k w
    | none => s

/-- Go on after a point: back to the sweep after a temperature point, to the next enabled point, or to the end. A
waiting open-wire test holds the sweep (R253). -/
def impAdvance (s : State) (k : Nat) : State :=
  let i := imps s k
  if i.tz then
    modImp s k fun i => { i with tz := false, state := if i.inSweep then 1 else 0, due := i.inSweep, epoch := none
                                 armed := false, iqSent := false, repeated := false, halved := false }
  else match nextPoint s k (i.point + 1) with
    | none => impFinish s k (if i.skips = 0 then 1 else 2)
    | some p =>
      let hold := owWaiting s k
      modImp s k fun i => { i with point := p, due := true, epoch := none, armed := false, iqSent := false
                                   repeated := false, halved := false, state := if hold then 3 else 1
                                   why := if hold then 6 else i.why }

/-- Skip the current point with a reason (R245, R246, R248, R251). -/
def impSkip (s : State) (k reason : Nat) : State :=
  let i := imps s k
  let s := impEvent s k 2 (pointNow i) reason 0
  impAdvance (modImp s k fun i => { i with skipCnt := inc16 i.skipCnt, skips := if i.tz then i.skips else i.skips + 1 }) k

/-- Pause every loop's sweep: a mode change, the lease. -/
def impPauseAll (s : State) (why : Nat) : State := (List.range 4).foldl (fun s k => impPause s k why) s

/-- Repeat the current point once, or skip it (R246, R251, R254). A temperature point is never repeated. -/
def impRepeat (s : State) (k reason : Nat) (half : Bool) : State :=
  let i := imps s k
  if i.repeated ∨ i.halved then impSkip s k reason
  else
    let s := impAbandon s k reason
    if i.tz ∨ (half ∧ i.ampl / 2 < rdf s impLim [k] 21 12) then impSkip s k reason
    else
      impEvent (modImp s k fun i => { i with due := true, repeated := !half, halved := half, halfAmp := i.ampl / 2 }) k 4
        (pointNow i) reason 0

/-- A temperature point that is due goes before the next point; a repeat of a point is not a next point (R253, R260). -/
def tzNext (i : ImpS) : Bool :=
  i.tzDue && !i.tz && (i.state == 0 || (i.state == 1 && i.due && !i.repeated && !i.halved))

/-- A point waits for its NCO_SET, and no open-wire test of the loop is before it (R253, R260). -/
def impWants (s : State) (k : Nat) : Bool :=
  let i := imps s k
  (tzNext i || ((i.state == 1 || i.state == 4) && i.due)) && impClear s k && !owWaiting s k

/-- A sweep whose next point an open-wire test keeps waiting is HOLDING (R253). -/
def impHold (s : State) (k : Nat) : State :=
  let i := imps s k
  if i.state = 1 ∧ i.due ∧ owWaiting s k then modImp s k fun i => { i with state := 3, why := 6 } else s

/-- Prepare the next point: the shadowed IMP fields commit, what cannot run is skipped, else amplitude, word, cycles and
period are set (R95, R245, R247, R248). -/
def impPrepare : Nat → State → Nat → State
  | 0, s, _ => s
  | f + 1, s, k =>
    if !impWants s k then impHold s k
    else
      let s := if tzNext (imps s k) then
        modImp s k fun i => { i with tz := true, tzDue := false, state := 4, due := true, repeated := false, halved := false }
        else s
      let s := commitFree s 9 k
      let i := imps s k
      let p := pointNow i
      let fw := pointFw s k p
      let c := rd s impCfg [k]
      let m := cyclesM fw (fld c 15 8) (if i.tz then rdf s impTz [k] 11 0 else rdf s impTim [k] 31 16)
      if fw = 0 then impAdvance s k
      else if fw * sweepPer s k > 50 * 1000000 * 2 ^ 20 then impPrepare f (impSkip s k 0x12) k
      else
        match amplitude s k p with
        | none => impPrepare f (impSkip s k 0x10) k
        | some a =>
          let a := if i.halved then min a i.halfAmp else a
          modImp s k fun i =>
            { i with due := false, armed := false, fw := fw, m := m, ampl := a, epoch := none, iqSent := false
                     settle := fld c 19 16, per := sweepPer s k / 10 }

/-- The NCO_SET command of the prepared point (*Table: Impedance command payloads*). -/
def ncoSet (s : State) (k : Nat) : ChainCmd :=
  let i := imps s k
  bcast true 0x0B ([limAll, BitVec.ofNat 8 (pointNow i)] ++ leB 4 i.fw ++
    [BitVec.ofNat 8 i.settle, 0] ++ leB 2 i.m ++ leB 2 i.per)

/-- A point is prepared and waits for its NCO_SET to be sent. -/
def ncoReady (i : ImpS) : Bool := (i.state == 1 || i.state == 4) && !i.due && !i.armed && i.epoch.isNone && i.fw != 0

/-- LEAD of a loop's SYNC in ns: the sample instant comes so long after the SYNC is sent (R126). -/
def sweepLead (s : State) (k : Nat) : Nat := 25 * rdf s chnLtim [k] 15 0

/-- The epoch: t_s of the SYNC of KIND 0x02 (R247, R249). -/
def impEpoch (s : State) (k t0 : Nat) (ts : Word64) (syncId : Byte) : State :=
  modImp s k fun i =>
    let te := 1000 * t0 + sweepLead s k
    let per (n : Nat) : Nat := n * 1000000000 * 2 ^ 20 / max 1 i.fw
    { i with armed := false, epoch := some te, epochTs := ts, epochId := syncId, winStart := te + per i.settle
             winEnd := te + per (i.settle + i.m), accN := 0, accRe := 0, accIm := 0, porUnits := [], badCells := []
             bandA := [], bandB := [], bandBDone := false, iq := [], iqSent := false
             iDsp := (tget {} s.ctl.convs k).iSel }

/-- Phase θ of a time after the epoch, in turns × 2^32 (R240). -/
def theta (fw dtNs : Nat) : Nat := (fw * dtNs * 4096 / 1000000000 + 3 * 2 ^ 30) % 2 ^ 32

/-- The excitation i_exc in mA at an instant of uptime (R240, R242). -/
def excNow (s : State) (k : Nat) : Int :=
  let i := imps s k
  match i.epoch with
  | none => 0
  | some te =>
    let t := 1000 * s.now
    if t < te ∨ t > i.winEnd then 0 else rdiv (10 * i.ampl * cosQ (theta i.fw (t - te))) (2 ^ 40)

/-- One precision instant of a loop's demodulation and its checks (R251, R253). DEDUCED (assumption 44): the voted word is that
of the instant itself, corrected for the path's group delay and gain, and i_dsp is held against its value at the start of the
window. -/
def impSample (s : State) (k : Nat) : State :=
  let i := imps s k
  if !(i.state == 1 || i.state == 4 || i.state == 3) then s
  else if (mstr s k).invalid then impPause s k 4
  else match i.epoch with
    | none => s
    | some te =>
      let t := 1000 * s.now
      let moved := (((tget {} s.ctl.convs k).iSel - i.iDsp).natAbs > 100 * rdf s impDsp [k] 15 0 : Bool)
      if t < i.winStart then modImp s k fun i => { i with iDsp := (tget {} s.ctl.convs k).iSel }
      else if t > i.winEnd ∨ i.iqSent then s
      else if moved then impRepeat s k 0x14 false
      else
        let ph := theta i.fw (t - te)
        let w := (mstr s k).voted
        modImp s k fun i => { i with accN := i.accN + 1, accRe := i.accRe + w * cosQ ph, accIm := i.accIm - w * sinQ ph }

/-- The current phasor in 0.1 mA (R251). -/
def phasor (i : ImpS) : Int × Int :=
  let f (x : Int) : Int := if i.accN = 0 then 0 else rdiv (20 * x) (i.accN * 2 ^ 40)
  (f i.accRe, f i.accIm)

/-! ### Sweeps during a point (R246, R252, R257) -/

/-- Note a sweep's close for the point under way: bands at the epoch sweep and at the first sweep after the window,
cells that carried a disqualifying flag, and the cell window. -/
def impSweep (s : State) (k : Nat) : State :=
  let i := imps s k
  match i.epoch with
  | none => s
  | some _ =>
    let l := lp s k
    let cells := (List.range l.n).flatMap fun p => (List.range 16).map fun c => (p + 1, c)
    let bands : Tab Nat := (cells.map fun (p, c) => (cellIdx k p c, bandOf s (cellIdx k p c) + 1))
    let t := 1000 * l.t0 + sweepLead s k
    let por := ((List.range l.n).map (· + 1)).filter fun p => bitN (unitAt l p).uflags.toNat 12
    let s := modImp s k fun i => { i with porUnits := i.porUnits ++ por.filter fun p => !i.porUnits.contains p }
    let s := if l.syncId = i.epochId ∧ i.bandA = [] then modImp s k fun i => { i with bandA := bands } else s
    let after := decide (t ≥ i.winEnd)
    let s := if after && !i.bandBDone then modImp s k fun i => { i with bandB := bands, bandBDone := true } else s
    if after then s
    else
      let bad := (cells.filter fun (p, c) =>
        let u := unitAt l p
        decide ((u.cflags.getD c 0).toNat / 16 ≠ 0)).map fun (p, c) => cellIdx k p c
      let s := modImp s k fun i => { i with badCells := i.badCells ++ bad.filter fun n => !i.badCells.contains n }
      let (hi, lo) := window s k
      if (eligibleCells s k).any fun x => decide ((x.2 : Int) > hi) || decide ((x.2 : Int) < lo) then
        impRepeat s k 0x11 true
      else s

/-! ### Results (R250 to R252, R256 to R258, R261 to R263) -/

/-- CST codes. -/
def cstUpdated : Nat := 0

/-- A 12-bit mantissa pair at cell c of a READ_IQ payload. -/
def iqCell (b : List Byte) (c : Nat) : Int × Int :=
  let b0 := byteAt b (5 + 3 * c)
  let b1 := byteAt b (6 + 3 * c)
  let b2 := byteAt b (7 + 3 * c)
  (sgn 12 (b0 + 256 * (b1 % 16)), sgn 12 (b1 / 16 + 16 * b2))

/-- A unit reported POR in the USTAT of a response; a result of it is not taken (R118, R250). -/
def noteIqPor (s : State) (k p : Nat) (b : List Byte) : State :=
  if bitN (byteAt b 0) 7 ∧ (imps s k).epoch.isSome then
    modImp s k fun i => { i with porUnits := if i.porUnits.contains p then i.porUnits else i.porUnits ++ [p] }
  else s

/-- Keep a unit's READ_IQ response when R250 accepts it. -/
def takeIq (s : State) (k pos : Nat) (b : List Byte) : State :=
  let i := imps s k
  let st := byteAt b 3
  let ok := byteAt b 1 == pointNow i && byteAt b 2 == i.epochId.toNat && bitN st 7 && !bitN st 6 && !bitN st 5 &&
    !i.porUnits.contains pos
  if ok then modImp s k fun i =>
    { i with iq := i.iq ++ [{ pos := pos, exp := byteAt b 4, iq := (List.range 16).map (iqCell b) }] }
  else s

/-- Z = V / I in 0.1 µΩ from V in nV and I in 0.1 mA, saturated to 24 bits (R252). -/
def zOf (v i : Int × Int) : Int × Int :=
  let d := i.1 * i.1 + i.2 * i.2
  if d = 0 then (0, 0)
  else (satS 24 (rdiv ((v.1 * i.1 + v.2 * i.2) * 100) d), satS 24 (rdiv ((v.2 * i.1 - v.1 * i.2) * 100) d))

/-- The measured Z of a cell, none when the unit's result was not accepted or a sweep disqualified the cell. -/
def cellZ (i : ImpS) (p n c : Nat) (cur : Int × Int) : Option (Int × Int) :=
  match i.iq.find? fun r => r.pos == p with
  | some r =>
    if i.badCells.contains n then none
    else
      let (a, b) := r.iq.getD c (0, 0)
      some (zOf (a * 2 ^ r.exp, b * 2 ^ r.exp) cur)
  | none => none

/-- Update an entry with Z (R258): the entry, or none when the result is rejected. DEDUCED (assumption 44): an entry that an
update sets counts as changed though its value stays. -/
def updateEntry (e : ImpEntry) (z : Int × Int) (kz tol : Nat) : Option ImpEntry :=
  let cnt := satAdd 255 e.count 1
  if e.dflt ∨ e.stale ∨ e.count = 0 then some { re := z.1, im := z.2, count := cnt }
  else
    let dz := (z.1 - e.re) ^ 2 + (z.2 - e.im) ^ 2
    let m := e.re ^ 2 + e.im ^ 2
    if e.count ≥ 3 ∧ dz * 10000 > tol ^ 2 * m then none
    else
      let k : Int := (max 1 kz : Nat)
      some { e with re := e.re + rdiv (z.1 - e.re) k, im := e.im + rdiv (z.2 - e.im) k, count := cnt }

/-- A cell's outcome: Z, BAND, CST, and the state with its table updated. DESIGN CHOICE (assumption 74): BAND of a cell with
BAND_CROSS is the band at the epoch sweep. -/
def cellResult (s : State) (k p c : Nat) (cur : Int × Int) : (Int × Int) × Nat × Nat × State :=
  let i := imps s k
  let n := cellIdx k p c
  if !fitted s k p c then ((0, 0), 0, 4, s)
  else match cellZ i p n c cur with
    | none => ((0, 0), 0, 3, s)
    | some z =>
      if i.tz then (z, 0, 0, s)
      else
        let a := tget 0 i.bandA n - 1
        let b := (if i.bandBDone then tget 0 i.bandB n else bandOf s n + 1) - 1
        if a ≥ 32 ∨ b ≥ 32 then (z, a % 8, 5, s)
        else if a ≠ b then (z, a, 2, s)
        else
          let e := bandEntry a i.point
          match updateEntry (impEntry s n e) z (rdf s impCfg [k] 7 0) (rdf s impLim [k] 11 0) with
          | none => (z, a, 1, modImp s k fun i => { i with rej := inc16 i.rej })
          | some x =>
            (z, a, 0, impDirty { s with imp := { s.imp with tab := tset {} s.imp.tab (tabKey n e) x } } n)

/-- Interpolate the string's curve (R261): T in 1/16 °C and the RANGE bit. -/
def curveAt : List (Int × Int) → Int → Option (Int × Bool)
  | [], _ => none
  | [(p, t)], φ => some (t, decide (φ ≠ p))
  | (p, t) :: (p', t') :: r, φ =>
    if φ < p then some (t, true)
    else if φ ≤ p' then some (t + rdiv ((t' - t) * (φ - p)) (max 1 (p' - p)), false)
    else curveAt ((p', t') :: r) φ

/-- The curve of a string. -/
def curveOf (s : State) (k : Nat) : List (Int × Int) := match estBillet s k with | some b => b.curve | none => []

/-- TZ of a cell as published: −32768 when older than 3 × TZ_PER or without a curve (R261). -/
def tzNow (s : State) (n : Nat) : Int :=
  let k := n / 512
  let c := cell s n
  if curveOf s k = [] ∨ s.now > c.tzAt + 3000000 * rdf s impTz [k] 31 20 then -32768 else c.tz

/-- Store a cell's TZ after a temperature point. -/
def setTz (s : State) (n : Nat) (z : Int × Int) : State :=
  match curveAt (curveOf s (n / 512)) (atan2 z.2 z.1) with
  | some (t, r) => modCell s n fun c => { c with tz := t, tzAt := s.now, tzRange := r }
  | none => s

/-- Compare a unit's mean TZ with its mean valid thermistor (R262). -/
def tzCheck (s : State) (k p : Nat) : State :=
  let u := unitAt (lp s k) p
  let th := u.therms.filter fun t => t != -32768
  let tz := ((List.range 16).map fun c => tzNow s (cellIdx k p c)).filter fun t => t != -32768
  if th.isEmpty ∨ tz.length < 8 then s
  else
    let d := (sumI tz * th.length - sumI th * tz.length).natAbs
    let off := decide (d > 16 * rdf s impTz [k] 19 12 * (tz.length * th.length))
    let i := imps s k
    let run := if off then satAdd 3 (tget 0 i.xRun p) 1 else 0
    let ok := if off then 0 else satAdd 3 (tget 0 i.xOk p) 1
    let was := bitN i.xmis.toNat (p - 1)
    let on := if off then was || run == 3 else was && ok != 3
    let s := modImp s k fun i =>
      { i with xRun := tset 0 i.xRun p run, xOk := tset 0 i.xOk p ok
               xmis := if on then i.xmis ||| wd (2 ^ (p - 1)) else i.xmis &&& ~~~ wd (2 ^ (p - 1)) }
    if on && !was then stage s .impTzMismatch bIMP sevNotice [BitVec.ofNat 8 k, BitVec.ofNat 8 p] else s

/-- Write a result block and its descriptor (R263). DESIGN CHOICE (assumption 74): without a partition for the loop's results
the block is stored nowhere, and BUF is 0. -/
def impWrite (s : State) (k : Nat) (cur : Int × Int) (cells : List Byte) (red : Bool) : State :=
  let i := imps s k
  let l := lp s k
  let r := 36 + k
  let n := 16 * l.n
  let len := 48 + 8 * n
  let part := partOf s (.result ⟨k % 4, Nat.mod_lt k (by decide)⟩)
  let off := match part with
    | some p => p.base + 4160 * ((ring s r).head.toNat % max 1 (ringDepth s r))
    | none => 0
  let head := leB 4 i.seq.toNat ++ [BitVec.ofNat 8 k, BitVec.ofNat 8 (pointNow i),
      BitVec.ofNat 8 (flag red 0 + flag i.repeated 1 + flag i.halved 2), i.epochId] ++ leB 4 i.fw ++ leB 2 i.ampl ++
    leB 2 i.m ++ leB 8 i.epochTs.toNat ++ leI 4 cur.1 ++ leI 4 cur.2 ++ leB 2 n ++ leB 2 len ++
    leB 4 (if i.tz then 0xFFFFFFFF else i.swCnt) ++ leB 4 0
  let crc := crc32c (head ++ leB 4 0 ++ cells)
  let (ok, t) := ringPut s r { type := if i.tz then 2 else 1, src := k, buf := off, len := len }
  let t := if ok && part.isSome then engStore t .impedance k off (head ++ leB 4 crc ++ cells) else t
  modImp t k fun i => { i with seq := i.seq + 1 }

/-- A point completes when READ_IQ closes (R251, R252, R257, R258, R261 to R263). -/
def impComplete (s : State) (k : Nat) : State :=
  let i := imps s k
  let cur := phasor i
  let s := modImp s k fun i => { i with ire := cur.1, iim := cur.2, accN := 0 }
  if 4 * (cur.1 ^ 2 + cur.2 ^ 2) < ((i.ampl : Int) * 100) ^ 2 then impSkip s k 0x13
  else
    let l := lp s k
    let cells := (List.range l.n).flatMap fun p => (List.range 16).map fun c => (p + 1, c)
    let (s, bytes) := cells.foldl (fun (s, bs) (p, c) =>
      let (z, band, cst, s) := cellResult s k p c cur
      let s := if i.tz && cst == 0 then setTz s (cellIdx k p c) z else s
      (s, bs ++ leI 3 z.1 ++ leI 3 z.2 ++ [BitVec.ofNat 8 band, BitVec.ofNat 8 cst])) (s, [])
    let s := impWrite s k cur bytes (decide (i.ampl < rdf s impCfg [k] 31 20))
    let s := if i.tz then (List.range l.n).foldl (fun s p => tzCheck s k (p + 1)) s else s
    impAdvance s k

/-! ### Commands and timed steps -/

/-- IMP_RES. -/
def impRes (c : Code) (s : State) : State := { s with imp := { s.imp with res := c } }

/-- Rights of IMP_CMD: the dispatch owner, or maintenance while in MAINTENANCE. -/
def impRight (w : Win) (s : State) : Bool :=
  isOwner s w || (hasRight s w rMaint && s.emb.mode == .maintenance)

/-- START: REFUSED_MODE outside R241, BUSY while a sweep runs or under R243. -/
def opImpStart (k : Nat) (s : State) : Code × State :=
  ifOk (firstCode [when_ (!strOk s k) .notPresent, when_ (!impMay s) .refusedMode,
    when_ ((imps s k).inSweep || genOnConv s k) .busy]) s fun s => (.ok, impBegin s k)

/-- STOP: the point is abandoned and the sweep STOPPED (R253); of a temperature point alone no sweep ends. -/
def impStop (s : State) (k : Nat) : State :=
  let t := impAbandon s k 0
  if (imps s k).inSweep then impFinish t k 4
  else modImp t k fun i => { i with state := 0, tz := false, tzDue := false, last := 4 }

/-- STOP (R253). -/
def opImpStop (k : Nat) (s : State) : Code × State :=
  ifOk (when_ (!strOk s k) .notPresent) s fun s => (.ok, if impActive s k then impStop s k else s)

/-- TZ_NOW: a temperature point, before the next point of a sweep (R260). DESIGN CHOICE (assumption 74): TZ_PER counts anew
from it, and BUSY is also given while a temperature point runs or waits. -/
def opTzNow (k : Nat) (s : State) : Code × State :=
  ifOk (firstCode [when_ (!strOk s k) .notPresent, when_ (!impMay s) .refusedMode,
    when_ ((imps s k).tz || (imps s k).tzDue || genOnConv s k) .busy]) s fun s =>
      (.ok, modImp s k fun i => { i with tzDue := true, lastTz := s.now })

/-- PAUSE (R253). -/
def opImpPause (k : Nat) (s : State) : Code × State :=
  ifOk (when_ (!strOk s k) .notPresent) s fun s =>
    (.ok, if impActive s k then modImp (impPause s k 7) k fun i => { i with hostPause := i.state == 2 } else s)

/-- A paused sweep goes on at the abandoned point when every condition has cleared (R254). -/
def impResume (s : State) (k : Nat) : State :=
  let i := imps s k
  if i.state = 2 ∧ impClear s k then
    impEvent (modImp s k fun i => { i with state := 1, due := true, why := 0 }) k 6 i.point i.why 0
  else s

/-- RESUME ends a host's PAUSE (R254). -/
def opImpResume (k : Nat) (s : State) : Code × State :=
  ifOk (when_ (!strOk s k) .notPresent) s fun s =>
    (.ok, impResume (modImp s k fun i => { i with hostPause := false }) k)

/-- START (R255). -/
def execImpStart (w : Win) (k : Str) (s : State) : Out :=
  .next (hostCmd w 0x90000 (cmdReq (impRight w) impRes (opImpStart k)) s)

/-- STOP (R253). -/
def execImpStop (w : Win) (k : Str) (s : State) : Out :=
  .next (hostCmd w 0x90000 (cmdReq (impRight w) impRes (opImpStop k)) s)

/-- TZ_NOW (R260). -/
def execTzNow (w : Win) (k : Str) (s : State) : Out :=
  .next (hostCmd w 0x90000 (cmdReq (impRight w) impRes (opTzNow k)) s)

/-- PAUSE (R253). -/
def execImpPause (w : Win) (k : Str) (s : State) : Out :=
  .next (hostCmd w 0x90000 (cmdReq (impRight w) impRes (opImpPause k)) s)

/-- RESUME (R254). -/
def execImpResume (w : Win) (k : Str) (s : State) : Out :=
  .next (hostCmd w 0x90000 (cmdReq (impRight w) impRes (opImpResume k)) s)

/-- IMP_PERIODIC: IMP_PER hours after the end of the previous sweep, as soon as R241 permits and the loop is CLOSED
(R255). -/
def execImpPeriodic (k : Str) (s : State) : Out :=
  .next (
    let per := rdf s impTim [k] 15 0
    if !awake s ∨ per = 0 ∨ (imps s k).inSweep ∨ !impMay s ∨ (lp s k).state ≠ .closed ∨ genOnConv s k ∨
        s.now < (imps s k).lastEnd + per * 3600000000 then s
    else impBegin s k)

/-- TZ_POINT_DUE: every TZ_PER seconds, while R241 permits, the loop is CLOSED and no open-wire test waits (R260). -/
def execTzPointDue (k : Str) (s : State) : Out :=
  .next (
    let per := rdf s impTz [k] 31 20
    if !awake s ∨ per = 0 ∨ !impMay s ∨ (lp s k).state ≠ .closed ∨ owWaiting s k ∨ genOnConv s k ∨ (imps s k).tz ∨ s.now < (imps s k).lastTz + per * 1000000 then s
    else modImp s k fun i => { i with tzDue := true, lastTz := s.now })

/-- IMP_AUTO_RESUME: a paused sweep resumes at the abandoned point when every condition has cleared; a holding one when
the open-wire tests are done (R253, R254). -/
def execImpAutoResume (k : Str) (s : State) : Out :=
  .next (
    if !awake s then s
    else if (imps s k).state = 3 ∧ !owWaiting s k then modImp s k fun i => { i with state := 1, why := 0 }
    else impResume s k)

/-- IMP_PAUSE_TIMEOUT: PAUSED for PAUSE_MAX; the sweep ends as ABORTED (R254). -/
def execImpPauseTimeout (k : Str) (s : State) : Out :=
  .next (
    let i := imps s k
    if !awake s ∨ i.state ≠ 2 ∨ s.now < i.pausedAt + 1000000 * rdf s impDsp [k] 31 16 then s
    else stage (impFinish s k 3) .impAborted bIMP sevNotice [BitVec.ofNat 8 k.val, BitVec.ofNat 8 i.point, BitVec.ofNat 8 i.why])

/-! ### Retained tables (R258, R259) -/

/-- A cell's table. -/
def tableOf (s : State) (n : Nat) : Tab ImpEntry :=
  (s.imp.tab.filter fun p => p.1 / 1024 == n).map fun p => (p.1 % 1024, p.2)

/-- Write a cell's changed table: to the copy with the lower SEQ, or B (R259). -/
def impWriteTable (s : State) (n : Nat) : State :=
  let c := tget {} s.imp.copies n
  let q := max c.seqA c.seqB + 1
  let t := tableOf s n
  let c := if c.seqA < c.seqB then { c with seqA := q, a := t } else { c with seqB := q, b := t }
  { s with imp := { s.imp with copies := tset {} s.imp.copies n c, dirty := tset 0 s.imp.dirty n 0 } }

/-- IMP_TABLE_WRITE: after the sweep's end a changed table is written; R233 governs deferral (R259). -/
def execImpTableWrite (n : Fin 2048) (s : State) : Out :=
  .next (
    if tget 0 s.imp.dirty n.val = 0 ∨ !awake s ∨ (imps s (n.val / 512)).inSweep then s
    else if !nvOpen s then nvNote s
    else impWriteTable s n.val)

/-- The tables that wait to be written, before the module's memory goes dark with the supply present. DEDUCED (assumption 44):
the 60 s of R259 end after the entry into EMBER or the cold start, so the write comes before it. -/
def impFlush (s : State) : State := if nvOpen s then s.imp.dirty.foldl (fun s p => impWriteTable s p.1) s else s

/-- Mark every entry of a cell STALE, or take the mark away (R258). -/
def impStale (s : State) (n : Nat) (on : Bool) : State :=
  impDirty
    (if on then setTable s n ((List.range 384).map fun e => (e, { impEntry s n e with stale := true }))
     else setTable s n (((tableOf s n).map fun p => (p.1, { p.2 with stale := false })).filter fun p => p.2 != {})) n

/-- Compare a unit's ID and make the tables of a changed unit STALE (R236, R258). -/
def compareUnit (s : State) (k p : Nat) (uid : Word64) : State :=
  let n0 := cellIdx k p 0
  let old := (cell s n0).lr.uid
  let s := compareId s k p uid
  if old ≠ 0 ∧ old ≠ uid then (List.range 16).foldl (fun s c => impStale s (n0 + c) true) s else s

/-- Rights of the EST_CMD operations on cells: maintenance. -/
def estRight (w : Win) : State → Bool := rightOne w rMaint

/-- ACCEPT_UID with the impedance tables (R237, R258). -/
def opAcceptAll (first count : Nat) (s : State) : Code × State :=
  let (c, t) := opAcceptUid first count s
  (c, if c = .ok then (List.range count).foldl (fun s i => impStale s (first + i) false) t else t)

/-- RESET_CELLS (R237). -/
def execResetCells (w : Win) (first : BitVec 11) (count : BitVec 12) (s : State) : Out :=
  .next (hostCmd w 0x80000 (cmdReq (estRight w) estRes (opResetCells first.toNat count.toNat)) s)

/-- ACCEPT_UID (R237). -/
def execAcceptUid (w : Win) (first : BitVec 11) (count : BitVec 12) (s : State) : Out :=
  .next (hostCmd w 0x80000 (cmdReq (estRight w) estRes (opAcceptAll first.toNat count.toNat)) s)

/-- FLUSH: write every dirty record now (R232). -/
def execEstFlush (w : Win) (s : State) : Out :=
  .next (hostCmd w 0x80000 (cmdReq (rightAny w rMaint rCfg) estRes opEstFlush) s)

/-- The better copy of a cell's table. -/
def bestTable (c : ImpCopies) : Option (Tab ImpEntry) :=
  if c.seqA = 0 ∧ c.seqB = 0 then none else if c.seqA > c.seqB then some c.a else some c.b

/-- A cell's table at the start: the better copy, or the defaults and IMP_TABLE_LOST where neither copy passes (R259). -/
def impStartCell (s : State) (n : Nat) : State :=
  match bestTable (tget {} s.imp.copies n) with
  | some t => setTable s n t
  | none => stage (setTable s n []) .impTableLost bIMP sevFault (leB 2 n)

/-- The copies of a table that pass their CRC (R259). -/
def ImpCopies.passing (bad : List (Nat × Bool)) (n : Nat) (c : ImpCopies) : ImpCopies :=
  let c := if bad.contains (n, false) then { c with seqA := 0, a := [] } else c
  if bad.contains (n, true) then { c with seqB := 0, b := [] } else c

/-- The sweeps of every loop as a start or a restart leaves them: their retained counters stay. -/
def impLoops (s : State) : State :=
  let keep : Tab ImpS := s.imp.loops.map fun (k, i) =>
    (k, { ({} : ImpS) with swCnt := i.swCnt, rej := i.rej, skipCnt := i.skipCnt, lastEnd := i.lastEnd, lastTz := s.now })
  { s with imp := { s.imp with loops := keep.filter fun p => p.2 != {} } }

/-- The unit at cold start and Kindling, before the estimator, which seeds cells with their tables (R235). -/
def impStart (s : State) (bad : List (Nat × Bool)) : State :=
  let copies : Tab ImpCopies := (s.imp.copies.map fun (n, c) => (n, c.passing bad n)).filter fun p => p.2 != {}
  let s := impLoops { s with imp := { s.imp with dirty := [], copies := copies, res := .ok } }
  (strs s).foldl (fun s k =>
    match estBillet s k with
    | some _ => (fittedCells s k).foldl impStartCell s
    | none => s) s

/-- The 8 bytes of an entry (*Table: Impedance entry*). -/
def ImpEntry.bytes (e : ImpEntry) : List Byte :=
  leI 3 e.re ++ leI 3 e.im ++ [BitVec.ofNat 8 e.count, BitVec.ofNat 8 (flag e.dflt 7 + flag e.stale 6)]

/-- IMP_STATk. -/
def impStat (s : State) (k : Nat) : Nat :=
  let i := imps s k
  place i.state 31 28 + place i.point 27 24 + place i.last 23 20 + place i.why 19 16 + i.swCnt % 65536

end Sys2Proof.Machine
end

