-- ==== Sys2Proof/Machine/Ctl.lean ====
section
/-!
DEFINITION. The control engine and the high-resolution PWM (chapter 10): loop contexts, converter selection, soft
start, ramp-down and handover, parking, coefficient banks and swaps, generators and capture channels.
-/

namespace Sys2Proof.Machine

/-- BLOCK code of CTL. -/
def bCTL : Byte := 0x0A

/-- A loop context. -/
def ctx (s : State) (n : Nat) : Ctx := tget {} s.ctl.ctxs n

/-- Change a loop context. -/
def modCtx (s : State) (n : Nat) (f : Ctx → Ctx) : State :=
  { s with ctl := { s.ctl with ctxs := tmod {} s.ctl.ctxs n f } }

/-- A converter. -/
def conv (s : State) (k : Nat) : Conv := tget {} s.ctl.convs k

/-- Change a converter. -/
def modConv (s : State) (k : Nat) (f : Conv → Conv) : State :=
  { s with ctl := { s.ctl with convs := tmod {} s.ctl.convs k f } }

/-- A generator. -/
def gen (s : State) (g : Nat) : Gen := tget {} s.ctl.gens g

/-- Change a generator. -/
def modGen (s : State) (g : Nat) (f : Gen → Gen) : State :=
  { s with ctl := { s.ctl with gens := tmod {} s.ctl.gens g f } }

/-- A capture channel. -/
def cap (s : State) (c : Nat) : Cap := tget {} s.ctl.caps c

/-- Change a capture channel. -/
def modCap (s : State) (c : Nat) (f : Cap → Cap) : State :=
  { s with ctl := { s.ctl with caps := tmod {} s.ctl.caps c f } }

/-- A PWM channel. -/
def pwm (s : State) (j : Nat) : Pwm := tget {} s.hrp j

/-- Change a PWM channel. -/
def modPwm (s : State) (j : Nat) (f : Pwm → Pwm) : State := { s with hrp := tmod {} s.hrp j f }

/-! ### Coefficients (R268, R290) -/

/-- A coefficient bank read for use. -/
structure Bank where
  c : Nat → Int
  sh : Nat → Nat
  oMin : Int
  oMax : Int
  iMin : Int
  iMax : Int

/-- Bank b of context n. -/
def bankOf (s : State) (n b : Nat) : Bank :=
  let w (i : Nat) : Int := sgn 32 (rd s ctlBank [n, b, i])
  { c := w, sh := fun i => rdf s ctlBank [n, b, 5] (5 * i + 4) (5 * i), oMin := w 6, oMax := w 7, iMin := w 8, iMax := w 9 }

/-- The active bank's number. -/
def activeBank (s : State) (n : Nat) : Nat := rdf s ctlLcfg [n] 28 28

/-- mul(c, x): the exact product divided by 2^s and rounded. -/
def Bank.mul (b : Bank) (i : Nat) (x : Int) : Int := satS 64 (rdiv (b.c i * x) (2 ^ b.sh i))

/-- mul_i(c, x): the integrator increment in 2^−32 of the output unit, saturated to 64 bits. -/
def Bank.mulI (b : Bank) (i : Nat) (x : Int) : Int := satS 64 (b.c i * x * 2 ^ (32 - b.sh i))

/-- Sum in 64 bits with saturation. -/
def sum64 (l : List Int) : Int := l.foldl (fun a x => satS 64 (a + x)) 0

/-- round(i / 2^32). -/
def intOut (i : Int) : Int := rdiv i (2 ^ 32)

/-- True for a 2P2Z context. -/
def isTwo (s : State) (n : Nat) : Bool := bitN (rd s ctlLcfg [n]) 30

/-- A bank that a swap refuses (R290); a 2P2Z bank has neither KF nor integrator limits. -/
def bankRefused (s : State) (n b : Nat) : Bool :=
  let k := bankOf s n b
  decide (k.oMin > k.oMax) ||
    (!isTwo s n && (decide (k.iMin > k.iMax) || decide (k.c 3 < 0) || decide (k.c 3 > 2 ^ k.sh 3)))

/-! ### Sources (R267, R271) -/

/-- The INVALID word. -/
def invWord : Int := -2147483648

/-- The word that crossbar route r last presented (R33), 0 before its first. -/
def routeWord (s : State) (r : Nat) : Int :=
  match (List.range 4).findSome? fun c => tget none s.kln.xhold (4 * r + c) with
  | some h => h.word.toInt
  | none => 0

/-- The control words of string k at the last grid instant: the voted current, VSk and VBk. -/
def curWord (s : State) (k : Nat) : Int := ctlCurrent s k
/-- VSk. -/
def vsWord (s : State) (k : Nat) : Int := (chan s (12 + k)).ctl
/-- VBk. -/
def vbWord (s : State) (k : Nat) : Int := (chan s (16 + k)).ctl

/-- Pk in W (R267). -/
def powerWord (s : State) (k : Nat) : Int :=
  let i := curWord s k
  if i = invWord then invWord else rdiv (vsWord s k * i) 1000000

/-- DRk: the duty word at which no current flows (R267). -/
def zeroDuty (s : State) (k : Nat) : Int :=
  let a := vsWord s k
  let b := vbWord s k
  let (n, d) := if bitN (rd s ctlCvmode [k]) 27 then (b, a) else (a, b)
  if d = 0 then 0 else clampI 0 (2 ^ 31 - 1) (rdiv (n * 2 ^ 31) d)

/-- The word of a source code (*Table: Source codes*). -/
def sourceWord (s : State) (n code : Nat) : Int :=
  if code = 0 then 0
  else if code = 1 then sgn 32 (rd s ctlLsp [n])
  else if code < 0x14 then curWord s (code - 0x10)
  else if code < 0x18 then vsWord s (code - 0x14)
  else if code < 0x1C then vbWord s (code - 0x18)
  else if code < 0x20 then powerWord s (code - 0x1C)
  else if code < 0x24 then zeroDuty s (code - 0x20)
  else if 0x40 ≤ code ∧ code < 0x80 then (ctx s (code - 0x40)).y
  else if code ≥ 0x100 then routeWord s (code - 0x100)
  else 0

/-- SP, FB and FF of a context. -/
def sources (s : State) (n : Nat) : Int × Int × Int :=
  let v := rd s ctlLsrc [n]
  (sourceWord s n (fld v 29 20), sourceWord s n (fld v 19 10), sourceWord s n (fld v 9 0))

/-! ### Generators (R294, R295) -/

/-- Stages whose sum feeds the PRBS register (*Table: PRBS polynomials*). -/
def prbsTaps (deg : Nat) : List Nat :=
  match deg with
  | 7 => [7, 6] | 8 => [8, 6, 5, 4] | 9 => [9, 5] | 10 => [10, 7] | 11 => [11, 9] | 12 => [12, 11, 10, 4]
  | 13 => [13, 12, 11, 8] | 14 => [14, 13, 12, 2] | _ => [15, 14]

/-- The bit shifted out and the register after it. -/
def prbsStep (deg r : Nat) : Bool × Nat :=
  let fb := (prbsTaps deg).foldl (fun a t => xor a (bitN r (t - 1))) false
  (bitN r (deg - 1), (2 * r + flag fb 0) % 2 ^ deg)

/-- A generator that runs gives its value at one execution of its context and goes on to the next sample. A chirp's
frequency word is rounded under R172, since R294 gives no rounding for it (DESIGN CHOICE, assumption 75). -/
def genSample (s : State) (g : Nat) : Int × State :=
  let x := gen s g
  let c := rd s ctlGcfg [g]
  let amp : Int := rdf s ctlGamp [g] 30 0
  let dur := rd s ctlGdur [g]
  if x.state ≠ 1 ∨ (dur ≠ 0 ∧ x.cnt ≥ dur) then (0, modGen s g fun x => { x with value := 0 })
  else
    let f0 := rd s ctlGf [g, 0]
    let f1 := rd s ctlGf [g, 1]
    let wave (ph : Nat) : Int := rdiv (amp * sinQ ph) (2 ^ 40)
    let (v, x) := match fld c 31 30 with
      | 0 => (wave x.phase.toNat, { x with phase := x.phase + wd f0 })
      | 1 =>
        let deg := fld c 11 8
        let (bit, reg, held) := if x.held = 0 then
            let (b, r) := prbsStep deg x.prbs.toNat
            (b, r, fld c 7 0 - 1)
          else (x.bit, x.prbs.toNat, x.held - 1)
        (if bit then amp else -amp, { x with prbs := wd reg, held := held, bit := bit })
      | 2 =>
        let inc : Int := (f0 : Int) + rdiv (((f1 : Int) - f0) * x.cnt) (max 1 dur : Nat)
        (wave x.phase.toNat, { x with phase := x.phase + wd (twos 32 inc) })
      | _ => (amp, x)
    (v, modGen s g fun _ => { x with cnt := x.cnt + 1, value := v })

/-- The sum that the generators of a context add at a point, and the state with them advanced. -/
def inject (s : State) (n point : Nat) : Int × State :=
  ((List.range 4).filter fun g => rdf s ctlGcfg [g] 21 16 == n && rdf s ctlGcfg [g] 29 28 == point).foldl
    (fun (a, s) g => let (v, s) := genSample s g; (a + v, s)) (0, s)

/-- Stop a generator that runs (R295). -/
def stopGen (s : State) (g : Nat) : State :=
  if (gen s g).state = 1 then modGen s g fun x => { x with state := 3, value := 0 } else s

/-- Stop every generator: any mode change, INTERNAL. -/
def stopGens (s : State) : State := (List.range 4).foldl stopGen s

/-- Stop the generators on a list of contexts. -/
def stopGensOn (s : State) (ns : List Nat) : State :=
  ((List.range 4).filter fun g => ns.contains (rdf s ctlGcfg [g] 21 16)).foldl stopGen s

/-! ### One execution (R269, R270) -/

/-- What an execution gives the capture channels. -/
structure ExecSig where
  sp : Int
  fb : Int
  e : Int
  y : Int
  i : Int
  u : Int
  gen : Int

/-- A PID execution on its inputs. -/
def pidStep (c : Ctx) (b : Bank) (sp fb ff injErr injOut : Int) : Ctx × ExecSig :=
  let e := sum64 [sp, -fb, injErr]
  let p := b.mul 0 e
  let df := sum64 [c.df, b.mul 3 (satS 64 (b.mul 2 (satS 64 (e - c.ePrev)) - c.df))]
  let ip0 := b.mulI 1 e
  let ip := if (c.aw = 1 ∧ ip0 > 0) ∨ (c.aw = 2 ∧ ip0 < 0) then 0 else ip0
  let i := clampI (b.iMin * 2 ^ 32) (b.iMax * 2 ^ 32) (satS 64 (c.i + ip))
  let base := sum64 [p, df, b.mul 4 ff]
  let u := satS 32 (sum64 [base, intOut i])
  let y := clampI b.oMin b.oMax (u + injOut)
  let aw :=
    if c.aw = 0 then
      if i = b.iMax * 2 ^ 32 ∨ u > b.oMax then 1 else if i = b.iMin * 2 ^ 32 ∨ u < b.oMin then 2 else 0
    else if (c.aw = 1 ∧ ip0 < 0) ∨ (c.aw = 2 ∧ ip0 > 0) then 0 else c.aw
  ({ c with i := i, y := y, df := df, ePrev := e, aw := aw, cand := u, base := base }
   , { sp := sp, fb := fb, e := e, y := y, i := intOut i, u := u, gen := 0 })

/-- A 2P2Z execution on its inputs. -/
def twoStep (c : Ctx) (b : Bank) (sp fb injErr injOut : Int) : Ctx × ExecSig :=
  let x := sum64 [sp, -fb, injErr]
  let u := satS 32 (sum64 [b.mul 0 x, b.mul 1 c.x1, b.mul 2 c.x2, -(b.mul 3 c.y1), -(b.mul 4 c.y2)])
  let y := clampI b.oMin b.oMax (u + injOut)
  ({ c with y := y, x1 := x, x2 := c.x1, y1 := y, y2 := c.y1, aw := 0, cand := u, base := 0 }
   , { sp := sp, fb := fb, e := x, y := y, i := 0, u := u, gen := 0 })

/-! ### Converters: roles, limits and targets (R279 to R281, R285) -/

/-- A converter is enabled. -/
def convOn (s : State) (k : Nat) : Bool := present s 10 k && bitN (rd s ctlCvcfg [k]) 31

/-- The contexts INNER, PWR, CV and CL of a converter. -/
def innerOf (s : State) (k : Nat) : Nat := rdf s ctlCvcfg [k] 29 24
/-- PWR. -/
def pwrOf (s : State) (k : Nat) : Nat := rdf s ctlCvcfg [k] 21 16
/-- CV. -/
def cvOf (s : State) (k : Nat) : Nat := rdf s ctlCvcfg [k] 13 8
/-- CL. -/
def clOf (s : State) (k : Nat) : Nat := rdf s ctlCvcfg [k] 5 0

/-- The converter that a context serves. -/
def convWith (s : State) (n : Nat) : Option Nat :=
  (List.range 4).find? fun k => convOn s k && (innerOf s k == n || pwrOf s k == n || cvOf s k == n || clOf s k == n)

/-- The outer context of a converter that the engine executes last of the three (R266). -/
def lastOuter (s : State) (k : Nat) : Nat :=
  let l := [pwrOf s k, cvOf s k, clOf s k]
  let plain := l.filter fun n => !bitN (rd s ctlLcfg [n]) 29
  ((if plain.isEmpty then l else plain).max?).getD 0

/-- The dispatch setpoint as PWR takes it (R280). -/
def dispatch (s : State) (k : Nat) : Int :=
  if bitN (rd s ctlCvmode [k]) 28 then routeWord s (rdf s ctlCvmode [k] 23 16) else sgn 32 (rd s ctlDsp [k])

/-- True with DSP_TYPE 1: the setpoint is a current in mA. -/
def dspCurrent (s : State) (k : Nat) : Bool := bitN (rd s ctlCvmode [k]) 29

/-- I_LIMC_E and I_LIMD_E in mA (R281). -/
def effLimits (s : State) (k : Nat) : Nat × Nat :=
  let v := rd s ctlIlim [k]
  let t := tget {} s.thm.strs k
  let c := 100 * fld v 31 16 * t.derC / 32768
  let d := 100 * fld v 15 0 * t.derD / 32768
  let c := if t.chgInh then 0 else c
  if s.emb.mode = .maintenance then (min c 40000, min d 40000) else (c, d)

/-- Limit a current to the effective limits. -/
def limitI (s : State) (k : Nat) (i : Int) : Int := let (c, d) := effLimits s k; clampI (-(d : Int)) c i

/-- The direction is charge. -/
def charging (s : State) (k : Nat) : Bool := decide (dispatch s k ≥ 0)

/-- i_tgt of the soft start (R285). -/
def softTarget (s : State) (k : Nat) : Int :=
  let p := dispatch s k
  let v := vsWord s k
  limitI s k (if dspCurrent s k then p else if v ≤ 10000 then 0 else rdiv (1000000 * p) v)

/-- Period of the INNER context in units of 125 ps. -/
def innerPeriod (s : State) (k : Nat) : Nat :=
  let c := rd s ctlLcfg [innerOf s k]
  fld c 7 0 * rdf s hrpPer [fld c 19 16] 22 0

/-- The most that r moves in one INNER sample, in quarters of a nA, at a rate in 10 mA/ms. -/
def rampStep (s : State) (k rate : Nat) : Int := 5 * rate * innerPeriod s k

/-- Move r towards a target by at most a step. -/
def moveR (c : Conv) (tgt step : Int) : Conv :=
  let q := 4000000 * tgt
  let rq := if q > c.rq then min q (c.rq + step) else max q (c.rq - step)
  { c with rq := rq, r := rdiv rq 4000000 }

/-- Set r. -/
def setR (c : Conv) (r : Int) : Conv := { c with r := r, rq := 4000000 * r }

/-! ### Parking (R278, R289) -/

/-- The four channels of a converter. -/
def chansOf (k : Nat) : List Nat := [4 * k, 4 * k + 1, 4 * k + 2, 4 * k + 3]

/-- Hold the outputs of a converter off (R278). -/
def holdConv (s : State) (k : Nat) : State :=
  (chansOf k).foldl (fun s j => modPwm s j fun p => { p with held := true }) s

/-- Park a converter with a cause: outputs held, integrators kept, r 0; its generators stop (R289, R295). -/
def park (s : State) (k cause : Nat) : State :=
  let c := conv s k
  let bit : BitVec 8 := BitVec.ofNat 8 (2 ^ (cause - 1))
  let new := decide (c.causes &&& bit = 0)
  let running := c.state != 0
  let s := holdConv s k
  let s := modConv s k fun c =>
    { setR c 0 with state := 0, causes := c.causes ||| bit, sel := 3, limited := false, mRun := false, started := false
                    forceNew := false, iSet := 0 }
  let s := if running then stopGensOn s [innerOf s k, pwrOf s k, cvOf s k, clOf s k] else s
  if new ∧ convOn s k ∧ (cause = 2 ∨ cause = 3 ∨ cause = 5) then
    stage s .convParked bCTL sevWarning [BitVec.ofNat 8 k, BitVec.ofNat 8 cause]
  else s

/-- Park every converter. -/
def parkAll (s : State) (cause : Nat) : State := (List.range 4).foldl (fun s k => park s k cause) s

/-- CAUSE as CTL_CVSTATk shows it: the lowest code that holds. -/
def causeOf (c : Conv) : Nat := match (List.range 8).find? fun i => bitN c.causes.toNat i with | some i => i + 1 | none => 0

/-- Clear park causes. -/
def clearCauses (s : State) (k : Nat) (m : BitVec 8) : State :=
  modConv s k fun c => { c with causes := c.causes &&& ~~~ m }

/-- Enter current control when no cause is left (R285); the rest happens at the first INNER sample. -/
def startConv (s : State) (k : Nat) : State :=
  let c := conv s k
  if !convOn s k ∨ c.causes ≠ 0 ∨ c.state ≠ 0 then s
  else modConv s k fun c => { c with state := 1, started := false, forceNew := false }

/-- The current of a string has been valid for 100 ms. -/
def validFor (s : State) (k us : Nat) : Bool :=
  match (mstr s k).validSince with
  | some t => !(mstr s k).invalid && decide (t + us ≤ s.now)
  | none => false

/-- The mode becomes CONNECTED: causes of the mode end, the others where their conditions have (R285, R289). -/
def convsConnect (s : State) : State :=
  (List.range 4).foldl (fun s k =>
    let m : BitVec 8 := 0x29 ||| (if validFor s k 100000 then 0x02 else 0) ||| (if leaseValid s then 0x04 else 0)
    startConv (clearCauses s k m) k) s

/-- Park the converters of strings whose current has become INVALID. -/
def parkInvalid (s : State) : State :=
  (strs s).foldl (fun s k => if (mstr s k).invalid && convOn s k && !bitN (conv s k).causes.toNat 1 then park s k 2 else s) s

/-! ### Outer samples (R282, R283, R286 to R288) -/

/-- Put an outer context into tracking of a value (R283). -/
def track (s : State) (n : Nat) (ySel : Int) : State :=
  let b := bankOf s n (activeBank s n)
  modCtx s n fun c =>
    let want := (ySel - c.base) * 2 ^ 32
    let i := clampI (b.iMin * 2 ^ 32) (b.iMax * 2 ^ 32) want
    { c with i := i, aw := 0, trk := true, trkLim := decide (i ≠ want) }

/-- Take a context out of tracking. -/
def untrack (s : State) (n : Nat) : State := modCtx s n fun c => { c with trk := false, trkLim := false }

/-- PWR's candidate: the setpoint itself with DSP_TYPE 1 (R280), but an INVALID one leaves the last candidate (R271). -/
def pwrCand (s : State) (k : Nat) : Int :=
  let p := dispatch s k
  if dspCurrent s k ∧ p ≠ invWord then p else (ctx s (pwrOf s k)).cand

/-- The selection from the present candidates: the loop (0 PWR, 1 CV, 2 CL) and its value before the limit. -/
def select (s : State) (k : Nat) : Nat × Int :=
  let force := rdf s ctlCvmode [k] 31 30
  let chg := charging s k
  let uP := pwrCand s k
  let uV := (ctx s (cvOf s k)).cand
  let uL := (ctx s (clOf s k)).cand
  let cvIn := rd s ctlVcv [k] != 0 && (if force = 2 then true else force = 0 && chg)
  let l := [(2, uL)] ++ (if cvIn then [(1, uV)] else []) ++ (if force = 2 then [] else [(0, uP)])
  (l.drop 1).foldl (fun a x => if (if chg then decide (x.2 < a.2) else decide (x.2 > a.2)) then x else a) (2, uL)

/-- The outputs of the outer loops by number. -/
def outerCtx (s : State) (k i : Nat) : Nat := match i with | 0 => pwrOf s k | 1 => cvOf s k | _ => clOf s k

/-- Track the outer loops to a value, but for the selected one; with DSP_TYPE 1 PWR only tracks. -/
def trackOthers (s : State) (k : Nat) (sel : Option Nat) (ySel : Int) : State :=
  (List.range 3).foldl (fun s i =>
    if sel = some i ∧ !(i = 0 ∧ dspCurrent s k) then untrack s (outerCtx s k i) else track s (outerCtx s k i) ySel) s

/-- Publish a selection: i_sel, SEL, DIR and LIMITED, r where it does not slew, and the tracking. -/
def publish (s : State) (k : Nat) (slew : Bool) : State :=
  let (sel, u) := select s k
  let i := limitI s k u
  let y := if sel = 0 ∧ dspCurrent s k then u else (ctx s (outerCtx s k sel)).y
  let s := modConv s k fun c =>
    let c := { c with iSel := i, sel := sel, limited := decide (i ≠ u), dir := !charging s k }
    if slew then c else setR c i
  if slew then trackOthers s k none (conv s k).r else trackOthers s k (some sel) y

/-- The candidate of the loop that FORCE newly prefers (R288). -/
def preferred (s : State) (k : Nat) : Int :=
  match rdf s ctlCvmode [k] 31 30 with
  | 1 => pwrCand s k
  | 2 => (ctx s (cvOf s k)).cand
  | _ => (select s k).2

/-- One sample of the outer contexts of a converter, once their candidates are computed (R282). -/
def outerSample (s : State) (k : Nat) : State :=
  let c := conv s k
  match c.state with
  | 1 =>
    if !c.started then s
    else
      let full := charging s k && rd s ctlVcv [k] != 0 &&
        decide ((sources s (cvOf s k)).2.1 ≥ (rd s ctlVcv [k] : Nat))
      if c.rq = 4000000 * c.iTgt ∨ full then publish (modConv s k fun c => { c with state := 2, forceNew := false }) k false
      else trackOthers (modConv s k fun c => { c with dir := !charging s k }) k none c.r
  | 2 | 3 =>
    let ho := rdf s ctlHomax [k] 15 0
    let ySel := if c.state = 3 ∨ c.sel > 2 ∨ (c.sel = 0 ∧ dspCurrent s k) then c.r else (ctx s (outerCtx s k c.sel)).y
    let big := decide ((preferred s k - ySel).natAbs > 100 * ho)
    if c.forceNew then
      let s := modConv s k fun c => { c with forceNew := false, state := if big ∨ c.state = 3 then 3 else 2 }
      publish s k (decide ((conv s k).state = 3))
    else if c.state = 3 then
      let s := publish s k true
      let x := conv s k
      if ((4000000 * x.iSel - x.rq).natAbs : Int) ≤ rampStep s k (rdf s ctlRamp [k] 15 0) then
        publish (modConv s k fun c => { c with state := 2 }) k false
      else s
    else publish s k false
  | 4 => trackOthers s k none c.r
  | _ => s

/-! ### INNER samples (R284, R285, R287) -/

/-- The first INNER sample of current control (R285). -/
def firstInner (s : State) (k : Nat) : State :=
  let n := innerOf s k
  let b := bankOf s n (activeBank s n)
  let dr := zeroDuty s k
  let ff := (sources s n).2.2
  let s := modCtx s n fun c =>
    if isTwo s n then { c with y1 := dr, y2 := dr, x1 := 0, x2 := 0, aw := 0 }
    else { c with df := 0, aw := 0
                  i := clampI (b.iMin * 2 ^ 32) (b.iMax * 2 ^ 32) ((dr - b.mul 4 ff) * 2 ^ 32) }
  let s := modConv s k fun c => { setR c (curWord s k) with started := true, iTgt := softTarget s k }
  trackOthers s k none (conv s k).r

/-- r moves as the state of the converter says. -/
def slewInner (s : State) (k : Nat) : State :=
  let c := conv s k
  let ramp := rampStep s k (rdf s ctlRamp [k] 31 16)
  match c.state with
  | 1 =>
    let t := softTarget s k
    modConv s k fun c => moveR { c with iTgt := t } t ramp
  | 3 => modConv s k fun c => moveR c c.iSel (rampStep s k (rdf s ctlRamp [k] 15 0))
  | 4 => modConv s k fun c => moveR c 0 ramp
  | _ => s

/-- i_set (R284). -/
def innerSet (s : State) (k : Nat) (injSp : Int) : Int :=
  let lim : Int := if s.emb.mode = .maintenance then 40000 else 600000
  clampI (-lim) lim ((conv s k).r + excNow s k + injSp)

/-! ### Swaps (R290 to R293) -/

/-- Change the active bank of a context from `o` to `b`: the integrator follows R292 and R293. -/
def swapBank (s : State) (n o b : Nat) : State :=
  let old := bankOf s n o
  let new := bankOf s n b
  let s := modCtx s n fun c => { c with bankBad := false, swapPend := false }
  if isTwo s n then s
  else modCtx s n fun c =>
    let hi := new.iMax * 2 ^ 32
    let lo := new.iMin * 2 ^ 32
    if c.aw = 0 then
      let dp := old.mul 0 c.ePrev - new.mul 0 c.ePrev
      let dd := (c.df + old.mul 3 (-c.df)) - (c.df + new.mul 3 (-c.df))
      if bitN (rd s ctlLcfg [n]) 27 then
        let w := satS 64 (c.i + (dp + dd) * 2 ^ 32)
        { c with i := clampI lo hi w, aw := if w > hi then 1 else if w < lo then 2 else 0 }
      else c
    else if c.aw = 1 ∧ c.i = old.iMax * 2 ^ 32 then { c with i := hi }
    else if c.aw = 2 ∧ c.i = old.iMin * 2 ^ 32 then { c with i := lo }
    else { c with i := clampI lo hi c.i }

/-- The commit of a context's shadowed fields: BL, and BANK, whose commit is the swap; a refused bank drops the commit
of BANK and sets BANK_BAD (R290). `onlyBank` commits BANK alone, as CTL_SWAP does. -/
def commitCtx (s : State) (n : Nat) (onlyBank : Bool) : State :=
  match tget none s.shadow (ctlLcfg.addr [n]) with
  | none => modCtx s n fun c => { c with swapPend := false }
  | some v =>
    let cur := rd s ctlLcfg [n]
    let o := fld cur 28 28
    let b := fld v.toNat 28 28
    let bad := b != o && bankRefused s n b
    let bl := if onlyBank then fld cur 27 27 else fld v.toNat 27 27
    let bank := if bad then o else b
    let left := onlyBank && fld v.toNat 27 27 != bl
    let s := wr s ctlLcfg 0 [n] (putBits cur (mask 28 27) (place bank 28 28 + place bl 27 27))
    let s := { s with shadow := tset none s.shadow (ctlLcfg.addr [n])
                        (if left then some (wd (putBits v.toNat (mask 28 28) (place bank 28 28))) else none) }
    if bad then modCtx s n fun c => { c with bankBad := true, swapPend := false }
    else if b = o then modCtx s n fun c => { c with swapPend := false }
    else swapBank s n o b

/-! ### Commit groups (R95) -/

/-- Commit the shadowed fields of a group together (R95); those of a context follow R290. -/
def commitGroup (s : State) (b n : Nat) : State := commitRegs (if b = 10 then commitCtx s n false else s) b n

/-- A group's boundary comes with the command that runs its instance: the next sample of a context, the next period of a
PWM channel (R95, R282). -/
def boundary (b n : Nat) (s : State) : State := if s.shadow.isEmpty || held s b n then s else commitGroup s b n

/-! ### Time base and sample timers (R265, R274) -/

/-- The HRP time base in units of 125 ps, from cold start or Kindling. -/
def hrpTime (s : State) : Nat := 8000 * (s.now - s.ctl.base)

/-- The master of a channel, itself for a PRIMARY one. -/
def masterOf (s : State) (j : Nat) : Nat :=
  let c := rd s hrpCfg [j]
  if fld c 29 28 = 0 then j else fld c 19 16

/-- The period of a channel: its own, or that of the PRIMARY channel it works with (R273). -/
def perOf (s : State) (j : Nat) : Nat := rdf s hrpPer [masterOf s (masterOf s j)] 22 0

/-- The phase of a channel's periods: its own, or a COMPLEMENT's master's (R273, R274). -/
def phsOf (s : State) (j : Nat) : Nat :=
  rdf s hrpPhs [if rdf s hrpCfg [j] 29 28 = 1 then masterOf s j else j] 22 0

/-- The last period start of channel j at or before an instant: PHS after a whole multiple of PER (R274). -/
def periodStart (s : State) (j t : Nat) : Option Nat :=
  if t < phsOf s j then none else some (phsOf s j + (t - phsOf s j) / perOf s j * perOf s j)

/-- The last instant at or before `t` at which the timer of context n fired: the start of every DIVth period of its
trigger channel, the first period counting as number 1 (R265). -/
def timerFire (s : State) (n t : Nat) : Option Nat :=
  let v := rd s ctlLcfg [n]
  let j := fld v 19 16
  let i := (t - phsOf s j) / perOf s j + 1
  if t < phsOf s j ∨ i < fld v 7 0 then none
  else some (phsOf s j + (i / max 1 (fld v 7 0) * fld v 7 0 - 1) * perOf s j)

/-- The timer instant for which an enabled context has not executed yet. -/
def ctxDue (s : State) (n : Nat) : Option Nat :=
  if bitN (rd s ctlLcfg [n]) 31 && present s 32 n then
    match timerFire s n (hrpTime s), (ctx s n).firedAt with
    | some t, none => some t
    | some t, some u => if u < t then some t else none
    | none, _ => none
  else none

/-- A context whose timer instant is `t` waits behind another one: one that has been ready for certain, its words having
arrived within 5 µs, comes first with PRIO, then in order of readiness, then by number (R266). -/
def ctxBehind (s : State) (n t : Nat) : Bool :=
  (List.range 64).any fun m => m != n && match ctxDue s m with
    | some u =>
      let p := bitN (rd s ctlLcfg [m]) 29
      let q := bitN (rd s ctlLcfg [n]) 29
      decide (u + 40000 ≤ hrpTime s) && ((p && !q) || (p == q && (decide (u < t) || (u == t && decide (m < n)))))
    | none => false

/-! ### Capture (R296 to R298) -/

/-- The channel whose arming, trigger and stop a channel takes: C0 for a linked one. -/
def capMaster (s : State) (c : Nat) : Nat := if c ≠ 0 ∧ bitN (rd s ctlCcfg [c]) 30 then 0 else c

/-- Base of a capture channel's buffer in SRAM. -/
def capBase (s : State) (c : Nat) : Nat :=
  match partOf s (.capture ⟨c % 4, Nat.mod_lt c (by decide)⟩) with | some p => p.base | none => 0

/-- Time between two samples of a capture channel in ns. -/
def capPeriod (s : State) (c : Nat) : Nat :=
  let v := rd s ctlCcfg [c]
  let l := rd s ctlLcfg [fld v 21 16]
  fld v 8 0 * (fld l 7 0 * rdf s hrpPer [fld l 19 16] 22 0) / 8

/-- Publish a block of n samples whose first is `back` samples before the last recorded one. -/
def capBlock (s : State) (c type first n back : Nat) : State :=
  let t := s.tim.now - BitVec.ofNat 64 (back * capPeriod s c)
  let d : Desc := { type := type, src := c, buf := capBase s c + 4 * (first % 16384), len := 4 * n }
  let (ok, s) := ringPutAt s (32 + c) d t.toNat
  if ok then s else modCap s c fun x => { x with gap := true }

/-- Publish the kept samples of single mode in blocks of 512: `pre` before the trigger, `total` in all. -/
def capPublish (c pre total : Nat) : Nat → Nat → State → State
  | 0, _, s => s
  | f + 1, done, s =>
    if done ≥ total then s
    else
      let n := min 512 (total - done)
      let type := if done < pre then 1 else if n < 512 then 3 else 2
      let start := (cap s c).tpos + 16384 - pre + done
      capPublish c pre total f (done + n) (capBlock s c type start n (total - done - 1))

/-- Samples kept before the trigger: PRE, or fewer when fewer were recorded since ARM. -/
def capPre (s : State) (c : Nat) : Nat := min (rdf s ctlClen [capMaster s c] 31 16) ((cap s c).recorded - (cap s c).after)

/-- End a channel in single mode and publish its buffer. -/
def capFinish (s : State) (c : Nat) : State :=
  let pre := capPre s c
  let total := pre + min (cap s c).after (rdf s ctlClen [capMaster s c] 15 0)
  capPublish c pre total 33 0 (modCap s c fun x => { x with state := 3 })

/-- The value of a signal. -/
def sigOf (s : State) (n : Nat) (x : ExecSig) (sig : Nat) : Int :=
  match sig with
  | 0 => x.sp | 1 => x.fb | 2 => x.e | 3 => x.y | 4 => x.i | 5 => x.u
  | 6 => match convWith s n with | some k => if innerOf s k = n then (conv s k).r else 0 | none => 0
  | _ => x.gen

/-- True when the trigger source of a master fires at this sample (R297). -/
def capFires (s : State) (c : Nat) (v : Int) : Bool :=
  let x := cap s c
  let lvl := sgn 32 (rd s ctlClvl [c])
  let tt := BitVec.ofNat 64 (rd s ctlCtt [c, 0] + rd s ctlCtt [c, 1] * 2 ^ 32)
  x.trigNow || match rdf s ctlCtrg [c] 31 28 with
    | 0 => true
    | 1 => match x.prev with | some p => decide (p < lvl) && decide (v ≥ lvl) | none => false
    | 2 => match x.prev with | some p => decide (p > lvl) && decide (v ≤ lvl) | none => false
    | 3 => decide ((s.tim.now - tt).toInt ≥ 0)
    | _ => false

/-- Trigger a channel at the sample about to be recorded; a master triggers the channels linked to it. -/
def capTrigger (s : State) (c : Nat) : State :=
  let s := modCap s c fun x => { x with state := 2, tpos := x.pos, after := 0, trigNow := false, blockStart := x.pos }
  if c ≠ 0 then s
  else ((List.range 4).filter fun d => d != 0 && capMaster s d == 0 && decide ((cap s d).state = 1)).foldl
    (fun s d => modCap s d fun x => { x with trigNow := true }) s

/-- Record one sample of a channel that is armed or triggered. -/
def capRecord (s : State) (c : Nat) (v : Int) : State :=
  let s := if (cap s c).state = 1 ∧ (if capMaster s c = c then capFires s c v else (cap s c).trigNow) then capTrigger s c else s
  let x := cap s c
  let s := if (partOf s (.capture ⟨c % 4, Nat.mod_lt c (by decide)⟩)).isSome then
    engStore s .control c (capBase s c + 4 * x.pos) (leI 4 v) else s
  let s := modCap s c fun x =>
    { x with pos := (x.pos + 1) % 16384, recorded := x.recorded + 1, prev := some v
             after := if x.state = 2 then x.after + 1 else x.after }
  let x := cap s c
  if x.state ≠ 2 then s
  else if bitN (rd s ctlCcfg [c]) 31 then
    if x.after % 512 = 0 then
      capBlock (modCap s c fun y => { y with blockStart := y.pos }) c 2 x.blockStart 512 511
    else s
  else if x.after ≥ rdf s ctlClen [capMaster s c] 15 0 then capFinish s c
  else s

/-- The capture channels at one execution of a context: each records at every DIVth (R296). -/
def capExec (s : State) (n : Nat) (x : ExecSig) : State :=
  (List.range 4).foldl (fun s c =>
    let v := rd s ctlCcfg [c]
    let st := (cap s c).state
    if fld v 21 16 ≠ n ∨ (st ≠ 1 ∧ st ≠ 2) then s
    else
      let d := (cap s c).divCnt
      let s := modCap s c fun y => { y with divCnt := (d + 1) % max 1 (fld v 8 0) }
      if d = 0 then
        xbarTaken (fun q => match q with | .capture d => d.val == c | _ => false)
          (capRecord s c (satS 32 (sigOf s n x (fld v 26 24))))
      else s) s

/-! ### CONTEXT_EXECUTION -/

/-- Execute a context on its inputs and keep the result: the generators add their values (R294), `spOf` forms the
setpoint from inj_sp. Answers the setpoint used. -/
def runCtx (s : State) (n : Nat) (spOf : Int → Int) (fb ff : Int) : Int × State :=
  let (injSp, s) := inject s n 0
  let (injErr, s) := inject s n 1
  let (injOut, s) := inject s n 2
  let b := bankOf s n (activeBank s n)
  let sp := spOf injSp
  let (c, x) := if isTwo s n then twoStep (ctx s n) b sp fb injErr injOut else pidStep (ctx s n) b sp fb ff injErr injOut
  (sp, capExec (modCtx s n fun _ => { c with srcInv := false, runs := c.runs + 1, doneAt := s.now }) n
    { x with gen := injSp + injErr + injOut })

/-- The setpoint of an outer context (R280). -/
def outerSp (s : State) (k n : Nat) (sp : Int) : Int :=
  let (c, d) := effLimits s k
  if n = pwrOf s k then dispatch s k
  else if n = cvOf s k then (rd s ctlVcv [k] : Nat)
  else if n = clOf s k then (if charging s k then (c : Int) else -(d : Int))
  else sp

/-- A converter's context at its sample. A parked converter keeps its integrators, so its contexts do not execute. -/
def runConvCtx (s : State) (k n : Nat) : State :=
  let c := conv s k
  if c.state = 0 then s
  else
    let (sp, fb, ff) := sources s n
    if n = innerOf s k then
      if fb = invWord ∨ ff = invWord then modCtx s n fun x => { x with srcInv := true }
      else
        let s := if c.started then s else firstInner s k
        let s := slewInner s k
        let (set, s) := runCtx s n (innerSet s k) fb ff
        let s := modConv s k fun c => { c with iSet := set }
        let x := conv s k
        if x.state = 4 ∧ x.rq = 0 ∧ (curWord s k).natAbs < 1000 then park s k 6 else s
    else
      let sp := outerSp s k n sp
      let s := if fb = invWord ∨ ff = invWord ∨ sp = invWord then modCtx s n fun x => { x with srcInv := true }
        else (runCtx s n (fun i => satS 64 (sp + i)) fb ff).2
      if n = lastOuter s k then outerSample s k else s

/-- The output of a context as a crossbar word (R33). -/
def ctxWord (s : State) (n : Fin 64) : State := xbar s (.context n) (wd (twos 32 (ctx s n).y))

/-- The commits at a context's sample: a swap that CTL_SWAP asked for (R291), then the boundary of its group, or at an
outer sample that of the converter's four contexts (R95, R282). -/
def ctxCommits (s : State) (n : Nat) : State :=
  let s := if (ctx s n).swapPend then commitCtx s n true else s
  match convWith s n with
  | some k =>
    if n = innerOf s k then boundary 10 n s
    else [innerOf s k, pwrOf s k, cvOf s k, clOf s k].foldl (fun s m => boundary 10 m s) s
  | none => boundary 10 n s

/-- A context executes on the words of its sources; one that serves no converter holds at an INVALID source (R271). -/
def runSample (s : State) (n : Nat) : State :=
  match convWith s n with
  | some k => runConvCtx s k n
  | none =>
    let (sp, fb, ff) := sources s n
    if sp = invWord ∨ fb = invWord ∨ ff = invWord then modCtx s n fun c => { c with srcInv := true }
    else (runCtx s n (fun i => satS 64 (sp + i)) fb ff).2

/-- CONTEXT_EXECUTION: an enabled context whose timer has fired and whose words have arrived executes when no other goes
first (R265, R266). `raw` holds the readings of the slices on the control path at the grid instant of its words (none
where empty). It keeps its longest wait, and its inputs take the words that they hold (R34). -/
def execContextExecution (n : Fin 64) (raw : List Int) (waitTenNs : Nat) (s : State) : Out :=
  .next (
    match ctxDue s n with
    | none => s
    | some t =>
      if !awake s ∨ s.emb.mode = .drowse ∨ ctxBehind s n t then s
      else
        let s := controlSample raw s
        let s := modCtx s n fun c => { c with firedAt := some t, maxLat := max c.maxLat (min 0xFFFF waitTenNs) }
        let s := runSample (ctxCommits s n) n
        ctxWord (xbarTaken (fun q => match q with | .loopInput m _ => m == n | _ => false) s) n)

/-! ### PWM (R273 to R278) -/

/-- A channel must stay off: its converter is parked, it is not enabled, the lease is invalid, or PFAIL (R278). -/
def mustHold (s : State) (j : Nat) : Bool :=
  let k := j / 4
  !bitN (rd s hrpCfg [j]) 31 || (convOn s k && decide ((conv s k).state = 0)) || !leaseValid s || s.emb.pfail ||
    (convOn s k && !(conv s k).started)

/-- On-time of a duty word in units of 125 ps (R275). -/
def onTime (d per : Nat) : Nat := (rdiv (d * per : Nat) (2 ^ 31)).toNat

/-- Where a pulse of an on-time lies after the period start: centred, halves of a unit down at the rise and up at the
fall (R275). -/
def centred (ton per : Nat) : Nat × Nat := ((per - ton) / 2, (per + ton + 1) / 2)

/-- The pulse of a channel's output in the period that starts: length, rise and fall in units of 125 ps after the period
start. A COMPLEMENT is on from DTA after its master turns off until DTB before it next turns on; a master that MINPW
keeps off stays off (R275, R276). -/
def pulseOf (s : State) (j : Nat) : Int × Nat × Nat :=
  let per := perOf s j
  let ton := onTime (pwm s j).duty per
  if rdf s hrpCfg [j] 29 28 = 1 then
    let ton := if ton < rdf s hrpMinpw [masterOf s j] 12 0 then 0 else ton
    let (r, f) := centred ton per
    let dt := rd s hrpDt [j]
    ((per : Int) - ton - fld dt 29 16 - fld dt 13 0, f + fld dt 29 16, per + r - fld dt 13 0)
  else let (r, f) := centred ton per; (ton, r, f)

/-- The duty word of a PRIMARY channel at a period start `t` (R277): the last output of SRC that was complete 500 ns
before, which on the model's clock of 1 µs is one of an earlier µs. Without a new one the last word stays, and counts as
late when the context's timer fired in the period that ends. -/
def loadDuty (s : State) (j t : Nat) : State :=
  let src := rdf s hrpCfg [j] 13 8
  let x := ctx s src
  let p := pwm s j
  if src = 0x3F then modPwm s j fun p => { p with duty := rdf s hrpDreg [j] 30 0 }
  else if x.runs ≠ p.seen ∧ x.doneAt < s.now then
    modPwm s j fun p => { p with duty := (clampI 0 (2 ^ 31 - 1) x.y).toNat, seen := x.runs }
  else
    let fired := match timerFire s src (t - 1), p.startAt with
      | some u, some v => decide (v ≤ u)
      | _, _ => false
    if fired then
      modCtx (modPwm s j fun p => { p with late := inc16 p.late }) src fun x => { x with late := inc16 x.late }
    else s

/-- The channels whose shadowed fields commit at the period start of channel j: its own, and those of the channels that
follow or complement it (chapter 10, *HRP registers*). -/
def pwmCommits (s : State) (j : Nat) : State :=
  let fields := (List.range 16).filter fun i => i == j || masterOf s i == j
  (fields.filter fun i => i != j || rdf s hrpCfg [j] 29 28 == 0).foldl (fun s i => boundary 11 i s) s

/-- PWM_PERIOD_START, once for each period start of the time base (R274): the duty word is loaded (R277), a pulse that is
too short is suppressed and counted (R276), and the outputs leave a hold whose causes have ended (R278). -/
def execPwmPeriodStart (j : Fin 16) (s : State) : Out :=
  .next (
    match periodStart s j (hrpTime s) with
    | none => s
    | some t =>
      if !awake s ∨ s.emb.mode = .drowse ∨ !present s 11 j ∨ ((pwm s j).startAt.any fun u => decide (t ≤ u)) then s
      else
        let s := pwmCommits s j
        let s := if rdf s hrpCfg [j] 29 28 = 0 then loadDuty s j t
          else modPwm s j fun p => { p with duty := (pwm s (masterOf s j)).duty }
        let (len, rise, fall) := pulseOf s j
        let short := decide (len < rdf s hrpMinpw [j] 12 0)
        modPwm s j fun p =>
          { p with startAt := some t, rise := rise, fall := fall, on := decide (0 < len) && !short
                   minp := if 0 < len ∧ short ∧ bitN (rd s hrpCfg [j]) 31 then inc16 p.minp else p.minp
                   held := mustHold s j })

/-! ### Faults, resume and CTL_CMD -/

/-- CTL_RES. -/
def ctlRes (c : Code) (s : State) : State := { s with ctl := { s.ctl with res := c } }

/-- CTL_INTERNAL_FAULT: INTERNAL latches, every converter parks, the generators stop and the module goes to SAFE_STOP
(R272). -/
def ctlInternal (s : State) : State :=
  let s := { s with ctl := { s.ctl with internal := true } }
  latchFault (stopGens (parkAll s 5)) 0x05

/-- CTL_INTERNAL_FAULT. -/
def execCtlInternalFault (s : State) : Out := .next (if awake s then ctlInternal s else s)

/-- Resume what the lease or a valid current lets resume in CONNECTED (R289). -/
def convResume (s : State) (k : Nat) : State :=
  if s.emb.mode ≠ .connected then s
  else
    let m : BitVec 8 := (if validFor s k 100000 then 0x02 else 0) ||| (if leaseValid s then 0x04 else 0)
    startConv (clearCauses s k m) k

/-- CONVERTER_RESUME: the current has been valid for 100 ms, or LEASE_VALID is set again, and the mode is CONNECTED. -/
def execConverterResume (k : Str) (s : State) : Out :=
  .next (if awake s ∧ strOk s k ∧ (conv s k).state = 0 ∧ (conv s k).causes &&& 0x06 ≠ 0 then convResume s k else s)

/-- Rights of CTL_CMD. -/
def ctlRight (w : Win) : State → Bool := rightOne w rMaint

/-- CONV_RUN (R285): MAINTENANCE only; a cause that still holds answers CHECK_FAIL. -/
def opConvRun (k : Nat) (s : State) : Code × State :=
  let m : BitVec 8 := 0x29 ||| (if (mstr s k).invalid then 0 else 0x02) ||| (if leaseValid s then 0x04 else 0)
  ifOk (firstCode [when_ (!convOn s k) .notPresent, when_ (s.emb.mode != .maintenance) .refusedMode,
    when_ (decide ((conv s k).causes &&& ~~~ m ≠ 0)) .checkFail, when_ (decide ((conv s k).state ≠ 0)) .busy]) s fun s =>
      (.ok, modConv (startConv (clearCauses s k m) k) k fun c => { c with mRun := true })

/-- Begin a ramp-down (R287). A converter that has not reached its first INNER sample parks at once. -/
def rampDown (s : State) (k : Nat) : State :=
  let c := conv s k
  if c.state = 0 ∨ c.state = 4 then s
  else if !c.started then park s k 6
  else modConv s k fun c => { c with state := 4, forceNew := false }

/-- CONV_PARK (R287): MAINTENANCE only. -/
def opConvPark (k : Nat) (s : State) : Code × State :=
  ifOk (firstCode [when_ (!convOn s k) .notPresent, when_ (s.emb.mode != .maintenance) .refusedMode]) s fun s =>
    (.ok, rampDown s k)

/-- NOT_PRESENT for a generator or a capture channel that the Structure billet does not enable (R93). -/
def genGone (s : State) (g : Nat) : Code := when_ (!present s 33 g) .notPresent
/-- A capture channel. -/
def capGone (s : State) (c : Nat) : Code := when_ (!present s 34 c) .notPresent

/-- GEN_START (R294, R295). -/
def opGenStart (g : Nat) (s : State) : Code × State :=
  let c := rd s ctlGcfg [g]
  let n := fld c 21 16
  let same := (List.range 4).any fun h =>
    h != g && decide ((gen s h).state = 1) && rdf s ctlGcfg [h] 21 16 == n && rdf s ctlGcfg [h] 29 28 == fld c 29 28
  let swept := match convWith s n with | some k => impActive s k | none => false
  ifOk (firstCode [genGone s g, when_ (s.emb.mode != .maintenance) .refusedMode,
    rng (!(fld c 31 30 == 2 && rd s ctlGdur [g] == 0)),
    when_ (decide ((gen s g).state = 1) || same || swept) .busy]) s fun s =>
      let s := modGen s g fun _ => { state := 1, prbs := wd (2 ^ fld c 11 8 - 1) }
      (.ok, ((List.range 4).filter fun x =>
          decide ((cap s x).state = 1) && capMaster s x == x && rdf s ctlCtrg [x] 31 28 == 4 && rdf s ctlCtrg [x] 25 24 == g).foldl
        (fun s x => modCap s x fun y => { y with trigNow := true }) s)

/-- GEN_STOP. -/
def opGenStop (g : Nat) (s : State) : Code × State := ifOk (genGone s g) s fun s => (.ok, stopGen s g)

/-- GENERATOR_END: DUR samples have been issued (R295). -/
def execGeneratorEnd (g : Fin 4) (s : State) : Out :=
  .next (
    let d := rd s ctlGdur [g]
    if (gen s g).state = 1 ∧ d ≠ 0 ∧ (gen s g).cnt ≥ d then modGen s g fun x => { x with state := 2, value := 0 } else s)

/-- A channel's context samples together with that of C0. -/
def capMatches (s : State) (c : Nat) : Bool :=
  let l (x : Nat) : Nat := let v := rd s ctlLcfg [rdf s ctlCcfg [x] 21 16]; fld v 19 16 * 256 + fld v 7 0
  l c == l 0

/-- Arm one channel. -/
def armCap (s : State) (c : Nat) (late : Bool) : State :=
  modCap s c fun _ => { state := 1, late := late, trigNow := late }

/-- CAP_ARM (R296, R297). -/
def opCapArm (c : Nat) (s : State) : Code × State :=
  let linked := if c = 0 then (List.range 4).filter fun d => d != 0 && capMaster s d == 0 else []
  let m := capMaster s c
  let tt := BitVec.ofNat 64 (rd s ctlCtt [m, 0] + rd s ctlCtt [m, 1] * 2 ^ 32)
  let timed := rdf s ctlCtrg [m] 31 28 == 3
  let late_ := (s.tim.now - tt).toInt
  let st := (cap s c).state
  ifOk (firstCode [capGone s c, rng ((c :: linked).all fun d => capMaster s d == d || capMatches s d),
    when_ (decide (st = 1 ∨ st = 2)) .busy, when_ (timed && decide (late_ > 10000000)) .expired]) s fun s =>
      let late := timed && decide (late_ > 0)
      let s := (c :: linked).foldl (fun s d => armCap s d (late && d == c)) s
      (if late then .lateDone else .ok, s)

/-- Stop one channel; in stream mode its last, shorter block is published (R298). -/
def stopCap (s : State) (c : Nat) : State :=
  let x := cap s c
  if x.state ≠ 1 ∧ x.state ≠ 2 then s
  else
    let s := modCap s c fun x => { x with state := 4 }
    let n := x.after % 512
    if bitN (rd s ctlCcfg [c]) 31 ∧ x.state = 2 ∧ n ≠ 0 then capBlock s c 3 x.blockStart n (n - 1) else s

/-- CAP_STOP: with C0 the channels linked to it stop. -/
def opCapStop (c : Nat) (s : State) : Code × State :=
  let linked := if c = 0 then (List.range 4).filter fun d => d != 0 && capMaster s d == 0 else []
  ifOk (capGone s c) s fun s => (.ok, (c :: linked).foldl stopCap s)

/-- CAP_FORCE: an armed channel triggers at its next sample. -/
def opCapForce (c : Nat) (s : State) : Code × State :=
  ifOk (capGone s c) s fun s => (.ok, if (cap s c).state = 1 then modCap s c fun x => { x with trigNow := true } else s)

/-- CLR_LAT: every CTL_LLATn and HRP_CNTj. -/
def opClrLat (s : State) : Code × State :=
  let s := (List.range 64).foldl (fun s n => modCtx s n fun c => { c with maxLat := 0, late := 0 }) s
  (.ok, (List.range 16).foldl (fun s j => modPwm s j fun p => { p with late := 0, minp := 0 }) s)

/-- CONV_RUN. -/
def execConvRun (w : Win) (k : Str) (s : State) : Out := .next (hostCmd w 0xA0000 (cmdReq (ctlRight w) ctlRes (opConvRun k)) s)
/-- CONV_PARK. -/
def execConvPark (w : Win) (k : Str) (s : State) : Out := .next (hostCmd w 0xA0000 (cmdReq (ctlRight w) ctlRes (opConvPark k)) s)
/-- GEN_START. -/
def execGenStart (w : Win) (g : Fin 4) (s : State) : Out := .next (hostCmd w 0xA0000 (cmdReq (ctlRight w) ctlRes (opGenStart g)) s)
/-- GEN_STOP. -/
def execGenStop (w : Win) (g : Fin 4) (s : State) : Out := .next (hostCmd w 0xA0000 (cmdReq (ctlRight w) ctlRes (opGenStop g)) s)
/-- CAP_ARM. -/
def execCapArm (w : Win) (c : Fin 4) (s : State) : Out := .next (hostCmd w 0xA0000 (cmdReq (ctlRight w) ctlRes (opCapArm c)) s)
/-- CAP_STOP. -/
def execCapStop (w : Win) (c : Fin 4) (s : State) : Out := .next (hostCmd w 0xA0000 (cmdReq (ctlRight w) ctlRes (opCapStop c)) s)
/-- CAP_FORCE. -/
def execCapForce (w : Win) (c : Fin 4) (s : State) : Out := .next (hostCmd w 0xA0000 (cmdReq (ctlRight w) ctlRes (opCapForce c)) s)
/-- CLR_LAT. -/
def execClrLat (w : Win) (s : State) : Out := .next (hostCmd w 0xA0000 (cmdReq (ctlRight w) ctlRes opClrLat) s)

/-! ### Writes with rules of their own -/

/-- A write of CTL_SWAP_HI, after the LO word: every named context swaps at its next sample (R291). -/
def opSwap (hi : Word) (s : State) : Code × State :=
  let m := s.ctl.swapLo.toNat + hi.toNat * 2 ^ 32
  (.ok, ((List.range 64).filter (bitN m)).foldl (fun s n =>
    if (tget none s.shadow (ctlLcfg.addr [n])).isSome then modCtx s n fun c => { c with swapPend := true } else s) s)

/-- COEFFICIENT_SWAP. -/
def execCoefficientSwap (w : Win) (hi : Word) (s : State) : Out :=
  .next (hostCmd w 0xA0014 (cmdReq (ctlRight w) noRes (opSwap hi)) s)

/-- A write of a bank word: BUSY on the active bank, at once on the other (R290). Reserved words stay 0. -/
def opBankWord (n b i : Nat) (v : Nat) (s : State) : Code × State :=
  ifOk (when_ (activeBank s n == b) .busy) s fun s =>
    let v := if i ≥ 10 then 0 else if i = 5 then v % 2 ^ 25 else v
    (.ok, wr s ctlBank 0 [n, b, i] v)

/-- BANK_WORD_WRITE. -/
def execBankWordWrite (w : Win) (n : Fin 64) (bank : Fin 2) (idx : Fin 16) (val : Word) (s : State) : Out :=
  .next (hostCmd w (ctlBank.addr [n, bank, idx]) (cmdReq (rightOne w rCfg) noRes (opBankWord n bank idx val.toNat)) s)

/-- A write of CTL_DSPk: the dispatch owner's, in range (R280). It is host activity (R70). On a converter that is not
fitted it has no effect (R5). -/
def opDsp (k : Nat) (v : Nat) (s : State) : Code × State :=
  if !present s 10 k then okCmd s
  else ifOk (ctlDsp.check s [k] v) s fun s => (.ok, activity (wr s ctlDsp 0 [k] v))

/-- DISPATCH_SETPOINT_WRITE. -/
def execDispatchSetpointWrite (w : Win) (k : Str) (val : Word) (s : State) : Out :=
  .next (hostCmd w (ctlDsp.addr [k]) (cmdReq (fun s => isOwner s w) noRes (opDsp k val.toNat)) s)

/-- The right that a FORCE value needs (R282). -/
def forceRight (w : Win) (f : Nat) (s : State) : Bool := if f = 1 then hasRight s w rMaint else isOwner s w

/-- A write of FORCE (R282, R288): 1 only in MAINTENANCE, 3 never; none on a converter that is not fitted (R5). -/
def opForce (k f : Nat) (s : State) : Code × State :=
  if !present s 10 k then okCmd s
  else ifOk (firstCode [when_ (f == 1 && s.emb.mode != .maintenance) .refusedMode, rng (f != 3)]) s fun s =>
      let v := rd s ctlCvmode [k]
      let s := if fld v 31 30 = f then s else modConv s k fun c => { c with forceNew := true }
      (.ok, wr s ctlCvmode 0 [k] (putBits v (mask 31 30) (place f 31 30)))

/-- FORCE_WRITE. -/
def execForceWrite (w : Win) (k : Str) (force : BitVec 2) (s : State) : Out :=
  .next (hostCmd w (ctlCvmode.addr [k]) (cmdReq (forceRight w force.toNat) noRes (opForce k force.toNat)) s)

/-! ### Start-up and register views -/

/-- The engine at a start: converters parked, contexts at rest with bank 0 active. INTERNAL and its park cause end at a
cold start only (R272, R289). -/
def ctlStart (s : State) (cold : Bool) : State :=
  let bad := s.ctl.internal && !cold
  let s := { s with ctl := { ({} : Sys2Proof.Machine.Ctl) with internal := bad, base := s.now }, hrp := [] }
  if bad then (List.range 4).foldl (fun s k => modConv s k fun c => { c with causes := c.causes ||| 0x10 }) s else s

/-- Configured executions a second, in thousands (CTL_STAT.LOAD). -/
def ctlLoad (s : State) : Nat :=
  min 6250 (((ctxPeriods s fun j => rdf s hrpPer [j] 22 0).map fun d => 8000000000 / max 1 d).foldl (· + ·) 0 / 1000)

/-- CTL_CVSTATk. -/
def cvStat (s : State) (k : Nat) : Nat :=
  let c := conv s k
  place c.state 31 28 + place c.sel 27 26 + flag c.dir 25 + flag c.limited 24 +
    place (if c.state = 0 then causeOf c else 0) 23 16

/-- CTL_LSTATn. -/
def ctxStat (s : State) (n : Nat) : Nat :=
  let c := ctx s n
  place c.aw 31 30 + flag c.trk 29 + flag c.trkLim 28 + flag c.srcInv 27 + flag c.bankBad 26

/-- CTL_CSTATc. -/
def capStat (s : State) (c : Nat) : Nat :=
  let x := cap s c
  place x.state 31 29 + flag x.late 28 + flag x.gap 27 + place x.tpos 13 0

/-- CTL_GSTATg. -/
def genStat (s : State) (g : Nat) : Nat := place (gen s g).state 31 30 + min 0xFFFFFF (gen s g).cnt

/-- HRP_STAT. -/
def hrpStat (s : State) : Nat :=
  place (bitsOf 4 fun k => decide ((conv s k).state = 0)) 19 16 + bitsOf 16 fun j => (pwm s j).held

end Sys2Proof.Machine
end

