-- ==== Sys2Proof/Machine/Thm.lean ====
section
/-!
DEFINITION. The thermal supervisor (chapter 11): temperatures, level flags, rates of rise, permit windows, derating,
the thermal permit and the demands for cooling and heating.
-/

namespace Sys2Proof.Machine

/-- BLOCK code of THM. -/
def bTHM : Byte := 0x0C

/-- No valid temperature. -/
def noTemp : Int := -32768

/-- A string's thermal state. -/
def thmStr (s : State) (k : Nat) : ThmStr := tget {} s.thm.strs k

/-- Change a string's thermal state. -/
def modThmStr (s : State) (k : Nat) (f : ThmStr → ThmStr) : State :=
  { s with thm := { s.thm with strs := tmod {} s.thm.strs k f } }

/-- The highest of the valid temperatures of a list. -/
def maxTemp (l : List Int) : Int := ((l.filter fun t => t != noTemp).max?).getD noTemp

/-- The lowest of the valid temperatures of a list. -/
def minTemp (l : List Int) : Int := ((l.filter fun t => t != noTemp).min?).getD noTemp

/-! ### Regimes (R305) -/

/-- Regime: 0 OFF, 1 RATE, 2 LEVEL, 3 RATE and LEVEL, 4 REPORT. -/
def regime (s : State) : Nat :=
  match s.emb.mode with
  | .ember => 0
  | .standby | .precharge | .maintenance => 2
  | .connected | .drowse => if s.thm.recovAt.isSome then 3 else 1
  | .safeStop | .configure => 4

/-- Levels are evaluated. -/
def levelOn (s : State) : Bool := regime s == 2 || regime s == 3 || regime s == 4

/-- Rates set flags. -/
def rateOn (s : State) : Bool := regime s == 1 || regime s == 3 || regime s == 4

/-- PHASE: TEST, then RECOVERY, then START_UP. -/
def phase (s : State) : Nat :=
  if s.emb.mode = .maintenance then 2 else if s.thm.recovAt.isSome then 3 else if s.thm.everConnected then 0 else 1

/-! ### Unit, cell and string temperatures (R299 to R303) -/

/-- The last record of a loop is at most 2 s old. -/
def recordFresh (s : State) (k : Nat) : Bool :=
  match (lp s k).lastRecord with
  | some t => decide (1000 * s.now ≤ 1000 * t + 25 * rdf s chnLtim [k] 15 0 + 2000000000)
  | none => false

/-- T_UNIT of a unit (R300). -/
def unitTemp (s : State) (k p : Nat) : Int :=
  if recordFresh s k then
    let u := unitAt (lp s k) p
    maxTemp (((List.range 4).filter (thermFitted s k p)).map fun t => u.therms.getD t noTemp)
  else noTemp

/-- The unit's bit in IMP_XMISk. -/
def tzExcluded (s : State) (k p : Nat) : Bool := bitN (imps s k).xmis.toNat (p - 1)

/-- T_CELL of a cell of a unit with a T_UNIT (R301). -/
def cellTemp (s : State) (k p c : Nat) (tu : Int) : Int :=
  let n := cellIdx k p c
  let tz := if bitN (rd s thmTz []) 31 && !tzExcluded s k p && !(cell s n).tzRange then tzNow s n else noTemp
  maxTemp [tu, tz]

/-- The positions of a loop that hold units: N. -/
def unitPos (s : State) (k : Nat) : List Nat := (List.range (lp s k).n).map (· + 1)

/-- The inputs of the given roles that serve a string, with their readings. -/
def inputsOf (s : State) (k : Nat) (roles : List Nat) : List Int :=
  ((List.range 8).filter fun j =>
    let v := rd s thmTh [j]
    roles.contains (fld v 31 30) && bitN v (24 + k)).map fun j => tget noTemp s.thm.th j

/-- A loop in DOWN or LOST makes all its units BLIND (R303). -/
def loopGone (s : State) (k : Nat) : Bool := (lp s k).state == .down || (lp s k).state == .lost

/-- Forget the units of a loop: a position that the loop does not reach any more has no temperature. -/
def forgetUnits (s : State) (k : Nat) : State :=
  { s with thm := { s.thm with unitT := s.thm.unitT.filter fun x => x.1 / 32 != k
                               unitBlind := s.thm.unitBlind.filter fun x => x.1 / 32 != k
                               unitExcl := s.thm.unitExcl.filter fun x => x.1 / 32 != k
                               tCell := s.thm.tCell.filter fun x => x.1 / 512 != k } }

/-- Take the readings of a loop's units: T_UNIT, T_CELL and BLIND. -/
def takeUnits (s : State) (k : Nat) : State :=
  (unitPos s k).foldl (fun s p =>
    let u := 32 * k + p - 1
    let tu := unitTemp s k p
    let fit := (List.range 16).filter (fitted s k p)
    let temps := fit.map fun c => (cellIdx k p c, cellTemp s k p c tu)
    let blind := loopGone s k || (!fit.isEmpty && temps.all fun x => x.2 == noTemp)
    let cells := temps.foldl (fun t x => tset noTemp t x.1 x.2) s.thm.tCell
    { s with thm := { s.thm with unitT := tset noTemp s.thm.unitT u tu, tCell := cells
                                 unitBlind := tset false s.thm.unitBlind u blind
                                 unitExcl := tset false s.thm.unitExcl u (tzExcluded s k p) } }) (forgetUnits s k)

/-- T_MAX, T_MIN and HOTPOS of a string (R302). -/
def aggregates (s : State) (k : Nat) : Int × Int × Nat :=
  let per := (unitPos s k).map fun p =>
    (p, maxTemp (((List.range 16).filter (fitted s k p)).map fun c => tget noTemp s.thm.tCell (cellIdx k p c)))
  let low := minTemp ((unitPos s k).flatMap fun p =>
    ((List.range 16).filter (fitted s k p)).map fun c => tget noTemp s.thm.tCell (cellIdx k p c))
  let cellMax := maxTemp (per.map (·.2))
  let tMax := maxTemp (cellMax :: inputsOf s k [1, 2])
  let hot := if cellMax = noTemp ∨ cellMax ≠ tMax then 0 else
    match per.find? fun x => x.2 == cellMax with | some (p, _) => p | none => 0
  (tMax, minTemp (low :: inputsOf s k [1]), hot)

/-- A unit of the string is BLIND; a loop in DOWN or LOST makes all of them so (R303). -/
def blindString (s : State) (k : Nat) : Bool :=
  loopGone s k || (unitPos s k).any fun p => tget false s.thm.unitBlind (32 * k + p - 1)

/-! ### Events and requests (R308, R315, R318) -/

/-- An inline descriptor on ring 49. -/
def thmEvent (s : State) (k type : Nat) (on : Bool) (cls pos : Nat) (t rate : Int) : State :=
  ringPush s 49 (inlineDesc type k
    ([if on then 1 else 0, BitVec.ofNat 8 k, BitVec.ofNat 8 cls, BitVec.ofNat 8 pos] ++ leI 2 t ++ leI 2 rate))

/-- A thermal disconnect request, one for coincident events; in DROWSE it wakes the module first (R315). -/
def thermalRequest (s : State) : State :=
  if s.emb.mode ≠ .connected ∧ s.emb.mode ≠ .drowse then s
  else if s.emb.reqs.any (fun r => r.src == .thermal) then s
  else reqMode (activity s) .standby .thermal

/-! ### Levels, windows, derating (R309 to R313) -/

/-- T_WARN, T_THR, T_SHUT and HYST. -/
def levels (s : State) : Int × Int × Int × Int :=
  let a := rd s thmLvl1 []
  let b := rd s thmLvl2 []
  (fld a 15 0, fld a 31 16, fld b 15 0, fld b 31 16)

/-- A level flag after a sample: set at or above the threshold where levels are evaluated, cleared below it less HYST;
no valid temperature changes nothing. -/
def levelFlag (on : Bool) (old : Bool) (t thr hyst : Int) : Bool :=
  if t = noTemp then old else if on && decide (t ≥ thr) then true else if t < thr - hyst then false else old

/-- A window bit after a sample: set beyond the limit, ended at the limit with the hysteresis. -/
def winBits (old : BitVec 2) (tMin tMax lo hi hyst : Int) : BitVec 2 :=
  let b0 := if tMin = noTemp then old.getLsbD 0 else if tMin < lo then true else old.getLsbD 0 && decide (tMin < lo + hyst)
  let b1 := if tMax = noTemp then old.getLsbD 1 else if tMax > hi then true else old.getLsbD 1 && decide (tMax > hi - hyst)
  BitVec.ofNat 2 (flag b0 0 + flag b1 1)

/-- f of R310 in 1/32768; free without a valid T_MAX. -/
def derate (free : Nat) (t : ThmStr) (thr shut : Int) : Nat :=
  if t.shutdown then 0
  else if !t.throttle then 32768
  else if t.tMax = noTemp then free % 32769
  else (clampI 0 32768 (rdiv (32768 * (shut - t.tMax)) (max 1 (shut - thr)))).toNat

/-- A demand of R316 in whole percent, rounded down. -/
def demand (x span : Int) : Nat := (clampI 0 100 ((100 * x).fdiv span)).toNat

/-- COOL_k and HEAT_k, free where the temperature they follow is not valid. -/
def demandsThm (free : Nat) (s : State) (t : ThmStr) : Nat × Nat :=
  let c := rd s thmCool []
  let h := rd s thmHeat []
  let cs := sgn 16 (fld c 15 0)
  let hs := sgn 16 (fld h 15 0)
  let cool := if t.warn || t.throttle || t.shutdown || t.riseWarn || t.riseTrip then 100
    else if t.tMax = noTemp then free / 2 ^ 16 % 101 else demand (t.tMax - cs) (sgn 16 (fld c 31 16) - cs)
  let heat := if t.tMin = noTemp then free / 2 ^ 24 % 101 else demand (hs - t.tMin) (hs - sgn 16 (fld h 31 16))
  (cool, heat)

/-- Report the change of a flag: the event at its onset or end, and at the onset a record. -/
def flagChange (s : State) (k type : Nat) (old new : Bool) (cls pos : Nat) (t rate : Int) (r : Option (RecName × Nat)) :
    State :=
  if old = new then s
  else
    let s := thmEvent s k type new cls pos t rate
    match new, r with
    | true, some (n, sev) => stage s n bTHM sev ([BitVec.ofNat 8 k, BitVec.ofNat 8 cls, BitVec.ofNat 8 pos] ++ leI 2 t)
    | _, _ => s

/-- THM_INHIBIT at each onset and end (R312). -/
def inhibitChange (s : State) (k type : Nat) (old new : Bool) (t : Int) : State :=
  if old = new then s
  else
    let s := thmEvent s k type new 0 0 t 0
    stage s .thmInhibit bTHM sevNotice [BitVec.ofNat 8 k, BitVec.ofNat 8 type, if new then 1 else 0]

/-- One string at a sample: its temperatures, flags, windows, derating and demands; a string that is derated has its impedance
sweep paused (R253). -/
def sampleString (s : State) (k : Nat) : State :=
  let old := thmStr s k
  let (tMax, tMin, hot) := aggregates s k
  let (warn, thr, shut, hyst) := levels s
  let on := levelOn s
  let pc := rd s thmPchg []
  let pd := rd s thmPdis []
  let ph : Int := rdf s thmTz [] 15 0
  let blind := blindString s k
  let t : ThmStr := { old with
    tMax := tMax, tMin := tMin, hotPos := hot, blind := blind, sampled := true
    warn := levelFlag on old.warn tMax warn hyst, throttle := levelFlag on old.throttle tMax thr hyst
    shutdown := levelFlag on old.shutdown tMax shut hyst
    chgWin := winBits old.chgWin tMin tMax (sgn 16 (fld pc 15 0)) (sgn 16 (fld pc 31 16)) ph
    disWin := winBits old.disWin tMin tMax (sgn 16 (fld pd 15 0)) (sgn 16 (fld pd 31 16)) ph }
  let t : ThmStr := { t with chgInh := t.chgWin != 0 || blind, disInh := t.disWin != 0 }
  let (free, s) := if t.tMax = noTemp ∨ t.tMin = noTemp then drawFree s else (0, s)
  let f := derate free t thr shut
  let t : ThmStr := { t with derC := if t.chgInh then 0 else f, derD := if t.disInh then 0 else f }
  let (cool, heat) := demandsThm free s t
  let s := modThmStr s k fun _ => { t with cool := cool, heat := heat }
  if derated s k then impPause s k 3 else s

/-- A new SHUTDOWN where levels act asks for a disconnect (R309, R315). -/
def shutdownRequest (before : Thm) (s : State) (k : Nat) : State :=
  if (thmStr s k).shutdown && !(tget {} before.strs k).shutdown && levelOn s && regime s != 4 then thermalRequest s else s

/-- BLIND of each unit at its onset and end (R303). -/
def blindEvents (before : Tab Bool) (s : State) (k : Nat) : State :=
  (List.range 32).foldl (fun s i =>
    let u := 32 * k + i
    flagChange s k 8 (tget false before u) (tget false s.thm.unitBlind u) 1 (i + 1) noTemp 0 (some (.thmBlind, sevWarning))) s

/-- The events of one TYPE on a string since the state before the sample (R318). -/
def stringEvents (before : Thm) (type : Nat) (s : State) (k : Nat) : State :=
  let o := tget {} before.strs k
  let t := thmStr s k
  match type with
  | 1 => flagChange s k 1 o.warn t.warn 0 t.hotPos t.tMax 0 (some (.thmWarn, sevWarning))
  | 2 => flagChange s k 2 o.throttle t.throttle 0 t.hotPos t.tMax 0 (some (.thmThrottle, sevWarning))
  | 3 => flagChange s k 3 o.shutdown t.shutdown 0 t.hotPos t.tMax 0 (some (.thmShutdown, sevFault))
  | 6 => inhibitChange s k 6 o.chgInh t.chgInh t.tMax
  | 7 => inhibitChange s k 7 o.disInh t.disInh t.tMax
  | _ => blindEvents before.unitBlind s k

/-- A value lies within 3 K of an upper threshold, or of a lower one (R304). -/
def nearUp (t thr : Int) : Bool := t != noTemp && decide (t ≥ thr - 48)
/-- Lower threshold. -/
def nearLow (t thr : Int) : Bool := t != noTemp && decide (t ≤ thr + 48)

/-- The condition of R304 for fast mode. -/
def nearAny (s : State) : Bool :=
  let (warn, thr, shut, _) := levels s
  let pc := rd s thmPchg []
  let pd := rd s thmPdis []
  let ups := (if levelOn s then [warn, thr, shut] else []) ++ [sgn 16 (fld pc 31 16), sgn 16 (fld pd 31 16)]
  let lows := [sgn 16 (fld pc 15 0), sgn 16 (fld pd 15 0)]
  (strs s).any fun k =>
    let t := thmStr s k
    let us := (unitPos s k).map fun p => tget noTemp s.thm.unitT (32 * k + p - 1)
    ups.any (fun x => nearUp t.tMax x || us.any fun u => nearUp u x) ||
      lows.any fun x => nearLow t.tMin x || us.any fun u => nearLow u x

/-- The string an input is reported under: the lowest of its SMASK, else 0. -/
def inputString (s : State) (j : Nat) : Nat := ((List.range 4).find? fun k => bitN (rd s thmTh [j]) (24 + k)).getD 0

/-- The temperature of a backplane input from its converter's reading, through the thermistor curve of the Cord; an input that
is open or short (none) has none (R299). DESIGN CHOICE (assumption 75): a reading beyond the curve gives its end value, and
without a curve there is no temperature. -/
def thTemp (s : State) (r : Option Int) : Int :=
  match r, s.crd.content with
  | some x, some c => match curveAt c.thCurve x with | some (t, _) => t | none => noTemp
  | _, _ => noTemp

/-- Take the readings of the backplane inputs (R299). -/
def takeInputs (s : State) (th : List (Option Int)) : State :=
  (List.range 8).foldl (fun s j =>
    let r := th.getD j none
    { s with thm := { s.thm with th := tset noTemp s.thm.th j (thTemp s r)
                                 thFault := tset false s.thm.thFault j r.isNone } }) s

/-- SENSOR_FAULT of the inputs that the Cord uses, at onset and end (R318). -/
def inputEvents (before : Thm) (s : State) : State :=
  (List.range 8).foldl (fun s j =>
    let new := tget false s.thm.thFault j
    if rdf s thmTh [j] 31 30 = 0 ∨ tget false before.thFault j = new then s
    else thmEvent s (inputString s j) 9 new 2 j (tget noTemp s.thm.th j) 0) s

/-- COOL_k and HEAT_k as crossbar words (R316). -/
def thmWords (s : State) : State :=
  (List.finRange 4).foldl (fun s (k : Fin 4) =>
    if strOk s k then
      xbar (xbar s (.cooling k) (wd (thmStr s k).cool)) (.heating k) (wd (thmStr s k).heat)
    else s) s

/-- True when an instant of a grid of `step` µs has come since the last one that was taken. -/
def gridDue (last : Option Nat) (step now : Nat) : Bool :=
  match last with
  | some t => decide (t / step < now / step)
  | none => true

/-- A sample is due: at every instant of the 100 ms grid in fast mode, at every tenth one in slow mode (R304). -/
def thermalDue (s : State) : Bool := gridDue s.thm.sampledAt (if s.thm.fast then 100000 else 1000000) s.now

/-- THERMAL_SAMPLE: one sample of the supervisor, with the converter's readings of the backplane inputs and the on-module
sensors (R304). The shadowed fields commit at it (R315), and ring 49 takes its events in ascending TYPE order. -/
def execThermalSample (th : List (Option Int)) (board : List Int) (s : State) : Out :=
  .next (
    if !awake s || s.kln.stopped.contains .thermal || !thermalDue s then s
    else
      let s := boundary 12 0 s
      let before := s.thm
      let s := takeInputs s th
      let s := { s with thm := { s.thm with board := (board.max?).getD s.thm.board, sampledAt := some s.now } }
      let s := if boardOk s then s else lgcDeferNote { s with est := { s.est with nvDefer := true } }
      let s := (strs s).foldl takeUnits s
      let s := (strs s).foldl sampleString s
      let s := [1, 2, 3, 6, 7, 8].foldl (fun s type => (strs s).foldl (stringEvents before type) s) s
      let s := (strs s).foldl (shutdownRequest before) (inputEvents before s)
      thmWords (if nearAny s then { s with thm := { s.thm with fast := true, lastNear := s.now } } else s))

/-- THERMAL_SLOW_MODE: 10 s without a sample near a threshold (R304). -/
def execThermalSlowMode (s : State) : Out :=
  .next (if awake s ∧ s.thm.fast ∧ s.now ≥ s.thm.lastNear + 10000000 then { s with thm := { s.thm with fast := false } } else s)

/-! ### Rates (R307, R308) -/

/-- The rates of a source from its 1 s history, newest first, after this evaluation's value. -/
def ratesOf (h : List Int) : Option Int × Option Int :=
  let t := h.getD 0 noTemp
  let at_ (i : Nat) : Option Int := match h[i]? with | some x => if x = noTemp ∨ t = noTemp then none else some x | none => none
  ((at_ 30).map fun x => 2 * (t - x), (at_ 120).map fun x => rdiv (t - x) 2)

/-- One source at an evaluation. -/
def rateSource (warn trip : Int) (t : Int) (x : ThmSrc) : ThmSrc :=
  let h := (t :: x.hist).take 121
  let (r30, r121) := ratesOf h
  let ge (r : Option Int) (l : Int) : Bool := match r with | some v => decide (v ≥ l) | none => false
  { hist := h, r30 := r30, r121 := r121, warnRun := if ge r121 warn then satAdd 3 x.warnRun 1 else 0
    tripRun := if ge r30 trip then satAdd 3 x.tripRun 1 else 0 }

/-- A source that enters rates: its key, the strings it belongs to, class, position, value. -/
structure RateSrc where
  key : Nat
  strs : List Nat
  cls : Nat
  pos : Nat
  temp : Int

/-- Every source of R307. -/
def rateSources (s : State) : List RateSrc :=
  ((strs s).flatMap fun k => (unitPos s k).map fun p =>
    { key := 32 * k + p, strs := [k], cls := 1, pos := p, temp := tget noTemp s.thm.unitT (32 * k + p - 1) }) ++
  (((List.range 8).filter fun j => let r := rdf s thmTh [j] 31 30; r == 1 || r == 2).map fun j =>
    { key := 1000 + j, strs := (strs s).filter fun k => bitN (rd s thmTh [j]) (24 + k), cls := 2, pos := j
      temp := tget noTemp s.thm.th j })

/-- The source of a string whose R121 or R30 has stood at its limit for 3 evaluations. -/
def riseSource (srcs : List RateSrc) (s : State) (k : Nat) (trip : Bool) : Option RateSrc :=
  srcs.find? fun r => r.strs.contains k &&
    let x : ThmSrc := tget {} s.thm.srcs r.key
    decide ((if trip then x.tripRun else x.warnRun) ≥ 3)

/-- One string at a rate evaluation: RISE_WARN and RISE_TRIP by its sources (R308). DEDUCED (assumption 48): a source without
a rate counts as below RISE_WARN. -/
def rateString (srcs : List RateSrc) (s : State) (k : Nat) : State :=
  let mine := srcs.filter fun r => r.strs.contains k
  let get (r : RateSrc) : ThmSrc := tget {} s.thm.srcs r.key
  let warn : Int := rdf s thmRise [] 15 0
  let old := thmStr s k
  let best := ((mine.filterMap fun r => (get r).r30).max?).getD 0
  let hot := mine.any fun r => match (get r).r121 with | some v => decide (v ≥ warn) | none => false
  let below := if hot then 0 else satAdd 3 old.belowRun 1
  let on := rateOn s
  let newW := if on && (riseSource srcs s k false).isSome then true else if below ≥ 3 then false else old.riseWarn
  let newT := old.riseTrip || (on && (riseSource srcs s k true).isSome)
  modThmStr s k fun x => { x with rate := best, belowRun := below, riseWarn := newW, riseTrip := newT
                                  cool := if newW || newT then 100 else x.cool }

/-- RISE_WARN of a string at its onset and end (R318). -/
def riseWarnEvent (srcs : List RateSrc) (before : Thm) (s : State) (k : Nat) : State :=
  let o := (tget {} before.strs k).riseWarn
  let n := (thmStr s k).riseWarn
  match riseSource srcs s k false with
  | some r => flagChange s k 4 o n r.cls r.pos r.temp ((tget {} s.thm.srcs r.key).r121.getD 0) none
  | none => flagChange s k 4 o n 0 0 (thmStr s k).tMax 0 none

/-- RISE_TRIP of a string at its onset: the event, THM_RISE_TRIP, the latch and the disconnect request (R308, R315). -/
def riseTripEvent (srcs : List RateSrc) (before : Thm) (s : State) (k : Nat) : State :=
  match riseSource srcs s k true with
  | some r =>
    if (thmStr s k).riseTrip && !(tget {} before.strs k).riseTrip then
      let s := flagChange s k 5 false true r.cls r.pos r.temp ((tget {} s.thm.srcs r.key).r30.getD 0)
        (some (.thmRiseTrip, sevFault))
      let s := { s with thm := { s.thm with riseLatch := true, riseQuiet := none } }
      if regime s = 4 then s else thermalRequest s
    else s
  | none => s

/-- RATE_EVALUATION: the 1 s evaluation of every source (R307, R308), and the quiet time that clears the latch. -/
def execRateEvaluation (s : State) : Out :=
  .next (
    if !awake s || s.kln.stopped.contains .thermal || !gridDue s.thm.ratedAt 1000000 s.now then s
    else
      let before := s.thm
      let srcs := rateSources s
      let warn : Int := rdf s thmRise [] 15 0
      let trip : Int := rdf s thmRise [] 31 16
      let tab := srcs.foldl (fun t r => tset {} t r.key (rateSource warn trip r.temp (tget {} s.thm.srcs r.key))) []
      let s := { s with thm := { s.thm with srcs := tab, ratedAt := some s.now } }
      let hot := tab.any fun x => match x.2.r121 with | some v => decide (v ≥ warn) | none => false
      let s := { s with thm := { s.thm with riseQuiet := if hot then none else some (s.thm.riseQuiet.getD s.now) } }
      let s := (strs s).foldl (rateString srcs) s
      (strs s).foldl (riseTripEvent srcs before) ((strs s).foldl (riseWarnEvent srcs before) s))

/-- RISE_TRIP_CLEAR: every R121 has stayed below RISE_WARN for T_RISE_CLR (R308). -/
def execRiseTripClear (s : State) : Out :=
  .next (
    match s.thm.riseQuiet with
    | some t =>
      if awake s ∧ s.thm.riseLatch ∧ s.now ≥ t + 1000000 * rdf s thmRclr [] 31 16 then
        (strs s).foldl (fun s k =>
          let old := (thmStr s k).riseTrip
          flagChange (modThmStr s k fun x => { x with riseTrip := false }) k 5 old false 0 0 (thmStr s k).tMax 0 none)
          { s with thm := { s.thm with riseLatch := false } }
      else s
    | none => s)

/-! ### Recovery, permit and start -/

/-- The recovery period in µs. -/
def recovUs (s : State) : Nat := 60000000 * rdf s thmRclr [] 15 0

/-- RECOVERY_PERIOD_END (R306). -/
def execRecoveryPeriodEnd (s : State) : Out :=
  .next (
    match s.thm.recovAt with
    | some t => if awake s ∧ s.now ≥ t + recovUs s then { s with thm := { s.thm with recovAt := none } } else s
    | none => s)

/-- The thermal permit (R314). -/
def thmPermit (s : State) : Bool :=
  !s.thm.riseLatch && !s.kln.stopped.contains .thermal && (strs s).all fun k =>
    let t := thmStr s k
    t.sampled && !t.shutdown && !(t.chgInh && t.disInh)

/-- The mode becomes CONNECTED: START_UP ends, and a SHUTDOWN that stands asks for a disconnect at once (R311). -/
def thmConnect (s : State) : State :=
  let s := { s with thm := { s.thm with everConnected := true } }
  if (strs s).any fun k => (thmStr s k).shutdown then thermalRequest s else s

/-- SAFE_STOP → STANDBY starts the recovery period (R306). -/
def thmRecover (s : State) : State := { s with thm := { s.thm with recovAt := some s.now } }

/-- Entry into SAFE_STOP or EMBER ends it. -/
def thmNoRecover (s : State) : State := { s with thm := { s.thm with recovAt := none } }

/-- The supervisor at a cold start or Kindling: flags clear and histories empty; the RISE_TRIP latch stays across EMBER
(R315). -/
def thmStart (s : State) (cold : Bool) : State :=
  { s with thm := { riseLatch := !cold && s.thm.riseLatch, board := s.thm.board, canCnt := if cold then 0 else s.thm.canCnt
                    lastCan := s.now } }

/-- The supervisor when CONFIGURE ends: it starts anew, and the phase and the recovery period go on (R58, R305). -/
def thmRestart (s : State) : State :=
  let t := thmStart s false
  { t with thm := { t.thm with everConnected := s.thm.everConnected, recovAt := s.thm.recovAt, lastCan := s.thm.lastCan } }

/-! ### Register views -/

/-- THM_STAT. -/
def thmStat (s : State) : Nat :=
  let left := match s.thm.recovAt with | some t => (t + recovUs s - s.now + 999999) / 1000000 | none => 0
  place (regime s) 31 29 + place (phase s) 28 27 + flag s.thm.fast 26 + flag s.thm.riseLatch 25 +
    flag (thmPermit s) 24 + min 0xFFFF left

/-- THM_STRk. -/
def thmStrView (s : State) (k : Nat) : Nat :=
  let t := thmStr s k
  flag t.warn 31 + flag t.throttle 30 + flag t.shutdown 29 + flag t.riseWarn 28 + flag t.riseTrip 27 +
    flag t.chgInh 26 + flag t.disInh 25 + flag t.blind 24 + place t.hotPos 21 16 + twos 16 t.tMax

/-- The data of the cooling frame (R317). -/
def thmFrame (s : State) : List Byte :=
  let l := (strs s).map (thmStr s)
  let any (f : ThmStr → Bool) (i : Nat) : Nat := flag (l.any f) i
  let fl := any (·.warn) 0 + any (·.throttle) 1 + any (·.shutdown) 2 + any (·.riseWarn) 3 + any (·.riseTrip) 4 +
    any (·.blind) 5
  [BitVec.ofNat 8 ((l.map (·.cool)).foldl max 0), BitVec.ofNat 8 ((l.map (·.heat)).foldl max 0)] ++
    leI 2 (maxTemp (l.map (·.tMax))) ++ leI 2 (minTemp (l.map (·.tMin))) ++ [BitVec.ofNat 8 fl, s.thm.canCnt]

end Sys2Proof.Machine
end

