-- ==== Sys2Proof/Machine/Can.lean ====
section
/-!
DEFINITION. The CAN FD controllers (chapter 15): joining and fault confinement, acceptance filters, the receive FIFO and
high-priority buffers, mailboxes and the transmit queue, rate detection on CAN2, and the thermal supervisor's frame
(R317). What the manual takes from ISO 11898-1 (counter steps and limits, the rank of an arbitration field, data lengths)
is the standard's (notes/assumptions/31.md).
-/

namespace Sys2Proof.Machine

/-- BLOCK code of CAN. -/
def bCAN : Byte := 0x10

/-- A controller. -/
def can (s : State) (c : Nat) : Can := tget {} s.can c

/-- Change a controller. -/
def modCan (s : State) (c : Nat) (f : Can → Can) : State := { s with can := tmod {} s.can c f }

/-- CAN_CFG.EN in a module with a Cord (R397). -/
def canEn (s : State) (c : Nat) : Bool := hasCord s && bitN (rd s canCfg [c]) 31

/-- CAN2 finds its rate by itself (R401). -/
def canAuto (s : State) (c : Nat) : Bool := c == 2 && bitN (rd s canCfg [c]) 27

/-- Rate detection is under way. -/
def canDetects (s : State) (c : Nat) : Bool := canAuto s c && inR (can s c).abdState 1 2

/-- Listen-only in effect (R401, R415). -/
def canListens (s : State) (c : Nat) : Bool := bitN (rd s canCfg [c]) 30 || canDetects s c

/-- The controller takes part in the bus: awake, enabled, joined, and on CAN2 with AUTOBAUD only with a rate to try. -/
def canOnBus (s : State) (c : Nat) : Bool :=
  awake s && canEn s c && (can s c).joined && (!canAuto s c || inR (can s c).abdState 2 3)

/-- The duration of n nominal bits, in whole µs (R398). -/
def canBits (s : State) (c n : Nat) : Nat :=
  let b := rd s canNbt [c]
  25 * n * ((fld b 31 24 + 1) * (3 + fld b 23 16 + fld b 14 8)) / 2000

/-- The lease gate holds the controller's transmissions (R414). -/
def canLeaseHeld (s : State) (c : Nat) : Bool := bitN (rd s canCfg [c]) 28 && paired s && !leaseValid s

/-- A mailbox. -/
def mbx (s : State) (c m : Nat) : Mbx := tget {} (can s c).mbx m

/-- Change a mailbox. -/
def modMbx (s : State) (c m : Nat) (f : Mbx → Mbx) : State := modCan s c fun x => { x with mbx := tmod {} x.mbx m f }

/-- Mailbox m is pending or transmitting. -/
def mbxBusy (s : State) (c m : Nat) : Bool := inR (mbx s c m).st 1 2

/-- Word i of a mailbox record. -/
def mbxWord (s : State) (c m i : Nat) : Nat := rd s canMbx [c, m, i]

/-- Bytes of a mailbox record. -/
def mbxBytes (s : State) (c m : Nat) : List Byte := (List.range 20).flatMap fun i => leB 4 (mbxWord s c m i)

/-- Load a mailbox record from bytes. -/
def loadMbx (s : State) (c m : Nat) (bs : List Byte) : State :=
  (List.range 20).foldl (fun s i => wr s canMbx 0 [c, m, i] (getLe bs (4 * i) 4)) s

/-- Mailbox 15 of CAN0 belongs to the thermal supervisor (R317, R410). -/
def mbxBarred (s : State) (c m : Nat) : Bool := c == 0 && m == 15 && bitN (rd s thmCan []) 31

/-! ### Aborts (R413, R414) -/

/-- Abort the pending mailboxes of a mask; a frame that is transmitting finishes. -/
def abortMbx (s : State) (c mask : Nat) : State :=
  ((List.range 16).filter (bitN mask)).foldl (fun s m => modMbx s c m fun b =>
    if b.st = 1 then { st := 4 } else if b.st = 2 then { b with abortReq := true } else b) s

/-- LEASE_VALID has cleared: gated controllers abort their pending mailboxes. -/
def canLeaseLost (s : State) : State :=
  (List.range 3).foldl (fun s c => if canLeaseHeld s c then abortMbx s c 0xFFFF else s) s

/-- A controller leaves the bus: disabled, or on entry into EMBER. -/
def canLeave (s : State) (c : Nat) : State :=
  modCan (abortMbx s c 0xFFFF) c fun x =>
    { x with state := 3, joined := false, tec := 0, recc := 0, boffWait := false, since := s.now
             mbx := (x.mbx.map fun p => (p.1, if p.2.st = 2 then { st := 4 } else p.2)) }

/-- Start rate detection at step 1 (R401). -/
def abdBegin (s : State) : State := modCan s 2 fun x => { x with abdState := 1, abdRate := 0, abdCands := [] }

/-- CAN2 begins to detect where a tool is already plugged in. -/
def abdCheck (s : State) : State :=
  if (can s 2).tool && canEn s 2 && canAuto s 2 && (can s 2).abdState == 0 then abdBegin s else s

/-- After a change of EN in CONFIGURE: controllers whose EN is clear leave the bus, and those whose EN is set wait to join
it (R397, R413). -/
def canCheckEn (s : State) : State :=
  abdCheck ((List.range 3).foldl (fun s c =>
    if canEn s c then (if (can s c).joined then s else modCan s c fun x => { x with since := s.now })
    else if (can s c).state == 3 then s else canLeave s c) s)

/-- Entry into EMBER. -/
def canEmber (s : State) : State := (List.range 3).foldl canLeave s

/-! ### Receive FIFO records (R407) -/

/-- Data bytes that a DLC codes. -/
def dlcBytes (fd : Bool) (d : Nat) : Nat :=
  if d ≤ 8 then d else if fd then [12, 16, 20, 24, 32, 48, 64].getD (d - 9) 64 else 8

/-- A frame record's 80 bytes. -/
def CanRec.bytes (r : CanRec) : List Byte :=
  leB 4 r.id.toNat ++ leB 4 r.ctrl.toNat ++ leB 8 r.ts.toNat ++ padTo 64 r.data

/-- A record in the controller's receive partition and its descriptor on the FIFO ring; whether the ring took it. A record
whose descriptor is dropped is not stored. -/
def fifoPut (s : State) (c type src : Nat) (bs : List Byte) : Bool × State :=
  match partOf s (.canRx (Fin.ofNat 3 c)) with
  | some p =>
    let buf := p.base + 80 * ((ring s (24 + c)).head.toNat % max 1 (p.len / 80))
    let (ok, s) := ringPut s (24 + c) { type := type, src := src, buf := buf, len := 80 }
    (ok, if ok then engStore s .can c buf bs else s)
  | none => ringPut s (24 + c) { type := type, src := src, len := 80 }

/-- The record of a received frame: reserved bits 0, data as the DLC codes. -/
def recOf (s : State) (f : CanFrame) (filt : Nat) : CanRec :=
  let ctl := f.ctrl.toNat
  let fd := bitN ctl 31
  let rtr := bitN f.id.toNat 30 && !fd
  let n := if rtr then 0 else dlcBytes fd (fld ctl 19 16)
  { id := wd (flag (bitN f.id.toNat 31) 31 + flag rtr 30 + fld f.id.toNat 28 0)
    ctrl := wd (place (fld ctl 31 29) 31 29 + place (fld ctl 19 16) 19 16 + place filt 15 8)
    ts := s.tim.now - BitVec.ofNat 64 f.sofNs, data := padTo 64 (f.data.take n) }

/-! ### Fault confinement (R403, R404) -/

/-- The state that the counters give: 0 active, 1 passive, 2 bus-off. -/
def canStateOf (tec recc : Nat) : Nat := if tec ≥ 256 then 2 else if tec ≥ 128 ∨ recc ≥ 128 then 1 else 0

/-- A state event on the FIFO ring and at the event matrix. -/
def canStateEvent (s : State) (c : Fin 3) : State :=
  let x := can s c
  let d := [BitVec.ofNat 8 x.state, BitVec.ofNat 8 (min 255 x.tec), BitVec.ofNat 8 x.recc, BitVec.ofNat 8 x.lec]
  raise (ringPut s (24 + c) (inlineDesc 3 0 d)).2 (.canState c)

/-- Enter the state that the counters give, with its record and count. -/
def canUpdate (s : State) (c : Fin 3) : State :=
  let x := can s c
  let n := canStateOf x.tec x.recc
  if n = x.state ∨ x.state ≥ 2 then s
  else
    let s := modCan s c fun x =>
      { x with state := n, boff := if n = 2 then inc16 x.boff else x.boff
               passive := if n = 1 then inc16 x.passive else x.passive
               boffWait := n == 2 && bitN (rd s canCfg [c.val]) 29, since := if n = 2 then s.now else x.since
               mbx := if n = 2 then x.mbx.map fun p => (p.1, if p.2.st = 2 then { p.2 with st := 1 } else p.2) else x.mbx }
    let (name, sev) := match n with
      | 0 => (RecName.canRecovered, sevInfo)
      | 1 => (RecName.canPassive, sevNotice)
      | _ => (RecName.canBusOff, sevWarning)
    canStateEvent (stage s name bCAN sev [BitVec.ofNat 8 c.val]) c

/-- CAN_BUS_JOIN: after 11 consecutive recessive bits (R397). CAN2 with AUTOBAUD joins while a tool is plugged. -/
def execCanBusJoin (c : Fin 3) (s : State) : Out :=
  .next (
    let x := can s c
    if awake s && canEn s c && !x.joined && (!canAuto s c || x.tool) && decide (s.now ≥ x.since + canBits s c 11) then
      modCan s c fun x => { x with joined := true, state := 0, tec := 0, recc := 0 }
    else s)

/-- CAN_BUS_OFF_RECOVERY: 128 occurrences of 11 recessive bits have passed (R404). -/
def execCanBusOffRecovery (c : Fin 3) (s : State) : Out :=
  .next (
    let x := can s c
    if canOnBus s c && x.state == 2 && !x.boffWait && decide (s.now ≥ x.since + canBits s c 1408) then
      let s := modCan s c fun x => { x with state := 0, tec := 0, recc := 0 }
      canStateEvent (stage s .canRecovered bCAN sevInfo [BitVec.ofNat 8 c.val]) c
    else s)

/-! ### Rate detection (R401, R402) -/

/-- The bit times of the candidates in 12.5 ns, by CAN_ABD.RATE. -/
def abdBit (rate : Nat) : Nat := [0, 80, 160, 320, 640].getD rate 640

/-- The nominal timing word of *Table: Detection timings*. -/
def abdTiming (rate : Nat) : Nat :=
  match rate with
  | 1 => place 62 23 16 + place 15 14 8 + 15
  | 2 => place 126 23 16 + place 31 14 8 + 31
  | 3 => place 1 31 24 + place 126 23 16 + place 31 14 8 + 31
  | _ => place 3 31 24 + place 126 23 16 + place 31 14 8 + 31

/-- T_MIN lies within ±3 % of a whole number of bit times from 2 to 10. -/
def abdFits (tmin rate : Nat) : Bool :=
  (List.range 9).any fun i =>
    let t := (i + 2) * abdBit rate
    decide (100 * (tmin - t) ≤ 3 * t) && decide (100 * (t - tmin) ≤ 3 * t)

/-- Try the first of the candidates left, or start again. -/
def abdTry (s : State) (cands : List Nat) : State :=
  match cands with
  | [] => abdBegin s
  | r :: _ => wr (modCan s 2 fun x => { x with abdState := 2, abdRate := r, abdCands := cands }) canNbt 0 [2] (abdTiming r)

/-- TOOL_PLUG: the J4 plug-detect closes. -/
def execToolPlug (s : State) : Out :=
  .next (
    let s := modCan s 2 fun x => { x with tool := true, since := s.now }
    if awake s && canEn s 2 && canAuto s 2 then abdBegin s else s)

/-- TOOL_UNPLUG: CAN2 stops taking part in the bus and waits for the next plug-in (R402). -/
def execToolUnplug (s : State) : Out :=
  .next (
    let s := modCan s 2 fun x => { x with tool := false }
    if canAuto s 2 then
      modCan s 2 fun x =>
        { x with abdState := 0, abdRate := 0, abdCands := [], joined := false, state := 3
                 mbx := x.mbx.map fun p => (p.1, if p.2.st = 2 then { p.2 with st := 1 } else p.2) }
    else s)

/-- ABD_MEASURE_COMPLETE: sixteen edges give T_MIN and the candidates. -/
def execAbdMeasureComplete (intervals : List Nat) (s : State) : Out :=
  .next (
    if awake s && canEn s 2 && canAuto s 2 && (can s 2).tool && (can s 2).abdState == 1 && intervals.length == 15 then
      let t := intervals.foldl min (intervals.headD 0)
      abdTry (modCan s 2 fun x => { x with tmin := min 0xFFFFF t }) ([1, 2, 3, 4].filter (abdFits t))
    else s)

/-- A frame without error confirms the rate, but for an FD frame with BRS. -/
def abdFrame (s : State) (f : CanFrame) : State :=
  if canAuto s 2 && (can s 2).abdState == 2 && !(bitN f.ctrl.toNat 31 && bitN f.ctrl.toNat 30) then
    stage (modCan s 2 fun x => { x with abdState := 3 }) .canRateFound bCAN sevInfo [BitVec.ofNat 8 (can s 2).abdRate]
  else s

/-- CAN_ERROR_DETECTED: the counters of the standard, LEC, and during detection the end of the present candidate. -/
def execCanErrorDetected (c : Fin 3) (kind : Fin 6) (dataPhase transmitting : Bool) (s : State) : Out :=
  .next (
    if !canOnBus s c || (can s c).state ≥ 2 then s
    else
      let lec := kind.val + 1
      let s := modCan s c fun x => { x with lec := lec, lecData := dataPhase }
      if canDetects s c then
        if lec = 1 ∨ lec = 2 ∨ lec = 6 then abdTry s ((can s c).abdCands.drop 1) else s
      else if canListens s c then s
      else
        let s := modCan s c fun x =>
          if transmitting then (if lec = 3 ∧ x.state = 1 then x else { x with tec := x.tec + 8 })
          else { x with recc := min 255 (x.recc + 1) }
        canUpdate s c)

/-! ### Acceptance (R405, R406, R408) -/

/-- Filter i agrees with a frame. -/
def filtMatch (s : State) (c : Nat) (r : CanRec) (i : Nat) : Bool :=
  let a := rd s canFltId [c, i]
  let k := rd s canFltMsk [c, i]
  let m := fld k 28 0
  let fd := bitN r.ctrl.toNat 31
  fld a 31 29 != 7 && (fld r.id.toNat 28 0).land m == (fld a 28 0).land m && bitN r.id.toNat 31 == bitN k 31 &&
    (match fld (rd s canFltm [c, i / 16]) (2 * (i % 16) + 1) (2 * (i % 16)) with
      | 0 => true
      | 1 => !fd
      | 2 => fd
      | _ => false)

/-- Where a frame goes: none to discard, else DEST and the filter index. -/
def canDest (s : State) (c : Nat) (r : CanRec) : Option (Nat × Nat) :=
  match (List.range 32).find? (filtMatch s c r) with
  | some i => let d := fld (rd s canFltId [c, i]) 31 29; if d = 5 then none else some (d, i)
  | none => if bitN (rd s canCfg [c]) 25 then some (0, 0xFF) else none

/-- The attention event of a buffer (R408, R409). -/
def hpbRaise (s : State) (c : Fin 3) (h : Fin 4) : State :=
  raise (allEvent s (16 + 4 * c.val + h.val) 0) (.hpb c h)

/-- A buffer. -/
def hpb (s : State) (c h : Nat) : Hpb := tget {} (can s c).hpb h

/-- Change a buffer. -/
def modHpb (s : State) (c h : Nat) (f : Hpb → Hpb) : State := modCan s c fun x => { x with hpb := tmod {} x.hpb h f }

/-- Deliver to a high-priority buffer. -/
def hpbPut (s : State) (c : Fin 3) (h : Fin 4) (r : CanRec) : State :=
  let b := hpb s c h
  if !b.full then hpbRaise (modHpb s c h fun b => { b with primary := some r, full := true }) c h
  else if b.shadow.isNone then modHpb s c h fun b => { b with shadow := some r }
  else modHpb s c h fun b => { b with shadow := some r, ovr := inc8 b.ovr }

/-- Deliver a received frame; CAN_RXCNT counts what reaches the FIFO ring or a buffer (DEDUCED, assumption 58). -/
def canDeliver (s : State) (c : Fin 3) (f : CanFrame) : State :=
  let r0 := recOf s f 0xFF
  let s := if c.val = 1 && ((List.range 32).any fun i => filtMatch s c r0 i && bitN (rd s canFltMsk [c.val, i]) 30) then
      activity s else s
  match canDest s c r0 with
  | none => s
  | some (d, i) =>
    let r := recOf s f i
    let (ok, s) := if d = 0 then fifoPut s c 1 i r.bytes else (true, hpbPut s c (Fin.ofNat 4 (d - 1)) r)
    if ok then modCan s c fun x => { x with rxCnt := x.rxCnt + 1 } else s

/-- The low-power detector of EMBER: a classical frame with the wake identifier on CAN0 or CAN1 (R406). -/
def canWakes (s : State) (c : Nat) (f : CanFrame) : Bool :=
  let id := f.id.toNat
  let m := rd s canWakeMsk [c]
  let a := rd s canWakeId [c]
  decide (c < 2) && !bitN f.ctrl.toNat 31 && bitN id 31 == bitN a 31 && (fld id 28 0).land m == (fld a 28 0).land m

/-- CAN_FRAME_RECEIVE: a valid frame on the bus (R405). A good reception lowers REC as the standard does. -/
def execCanFrameReceive (c : Fin 3) (f : CanFrame) (s : State) : Out :=
  .next (
    if s.emb.power = .on ∧ s.emb.mode = .ember then (if canWakes s c f then fireWake s 1 else s)
    else if !canOnBus s c || (can s c).state ≥ 2 then s
    else
      let s := if c.val = 2 then abdFrame s f else s
      let s := if canListens s c then s
        else canUpdate (modCan s c fun x => { x with recc := if x.recc > 127 then 127 else x.recc - 1 }) c
      canDeliver s c f)

/-- Release one buffer: a waiting shadow frame moves in and the event is raised again (R408). -/
def hpbFree (s : State) (c : Fin 3) (h : Fin 4) : State :=
  let b := hpb s c h
  if !b.full then s
  else match b.shadow with
    | some r => hpbRaise (modHpb s c h fun b => { b with primary := some r, shadow := none }) c h
    | none => modHpb s c h fun b => { b with full := false }

/-- W1C of CAN_HPB.FULL. -/
def hpbClear (c : Fin 3) (mask : Nat) (s : State) : State :=
  (List.finRange 4).foldl (fun s (h : Fin 4) => if bitN mask h.val then hpbFree s c h else s) s

/-! ### Transmission (R410 to R412) -/

/-- Rank of an arbitration field: the lower wins on the bus. -/
def arbRank (id ctrl : Nat) : Nat :=
  let ext := bitN id 31
  let rtr := bitN id 30 && !bitN ctrl 31
  fld id 28 18 * 2 ^ 21 + flag (ext || rtr) 20 + flag ext 19 + (if ext then fld id 17 0 * 2 + flag rtr 0 else 0)

/-- Rank of a mailbox's frame. -/
def mbxRank (s : State) (c m : Nat) : Nat := arbRank (mbxWord s c m 0) (mbxWord s c m 1)

/-- The mailbox that is transmitting. -/
def mbxSending (s : State) (c : Nat) : Option Nat := (List.range 16).find? fun m => (mbx s c m).st == 2

/-- The controller may start a frame (R404, R414, R415). -/
def canSends (s : State) (c : Nat) : Bool :=
  canOnBus s c && decide ((can s c).state < 2) && !canListens s c && !canLeaseHeld s c

/-- CAN_ARBITRATION: the pending mailbox with the lowest arbitration field, ties to the lower number (R411). -/
def execCanArbitration (c : Fin 3) (s : State) : Out :=
  .next (
    if !canSends s c || (mbxSending s c).isSome then s
    else
      let l := (List.range 16).filter fun m => (mbx s c m).st == 1
      match l.find? fun m => l.all fun n => decide (mbxRank s c m < mbxRank s c n) ||
          mbxRank s c m == mbxRank s c n && decide (m ≤ n) with
      | some m => modMbx (send s (ifCan c) (mbxBytes s c m)) c m fun b => { b with st := 2, sof := s.tim.now }
      | none => s)

/-- A transmission that succeeded: TS, DONE, CAN_TXCNT, the echo, and TEC as the standard lowers it. -/
def txDone (s : State) (c : Fin 3) (m : Nat) : State :=
  let ts := (mbx s c m).sof.toNat
  let s := wr (wr s canMbx 0 [c, m, 2] (ts % 2 ^ 32)) canMbx 0 [c, m, 3] (ts / 2 ^ 32)
  let s := modMbx s c m fun _ => { st := 3 }
  let s := modCan s c fun x => { x with txCnt := (x.txCnt + 1) % 65536, tec := x.tec - 1 }
  let s := if bitN (mbxWord s c m 1) 1 then (fifoPut s c 2 m (mbxBytes s c m)).2 else s
  let (v, s) := if bitN (mbxWord s c m 1) 31 && bitN (rd s canCfg [c.val]) 26 then
      (let (f, s) := drawFree s; (f % 256, s)) else ((can s c).tdcv, s)
  canUpdate (modCan s c fun x => { x with tdcv := v }) c

/-- CAN_TX_COMPLETE: DONE, or for another try, or ERROR with ONESHOT, or ABORTED on request (R411, R413). -/
def execCanTxComplete (c : Fin 3) (ok lostArbitration : Bool) (s : State) : Out :=
  .next (
    match if awake s then mbxSending s c else none with
    | none => s
    | some m =>
      if ok && !lostArbitration then txDone s c m
      else modMbx s c m fun b =>
        if bitN (mbxWord s c m 1) 0 then { st := 5 } else if b.abortReq then { st := 4 } else { st := 1 })

/-- A queued record has the identifier of a frame still pending or transmitting in mailboxes 8 to 14. -/
def sameIdBusy (s : State) (c id : Nat) : Bool :=
  (List.range 7).any fun i =>
    mbxBusy s c (8 + i) && fld (mbxWord s c (8 + i) 0) 28 0 == fld id 28 0 && bitN (mbxWord s c (8 + i) 0) 31 == bitN id 31

/-- CAN_QUEUE_LOAD: the next descriptor of the transmit queue ring goes into the lowest free mailbox from 8 to 14
(R412). -/
def execCanQueueLoad (c : Fin 3) (s : State) : Out :=
  .next (
    match ringFront s (27 + c) with
    | none => s
    | some d =>
      let buf := getLe d 16 4
      let len := getLe d 20 2
      if !canSends s c then s
      else if len ≠ 80 ∨ !bufOk s .data buf len then
        let s := modCan (ringPop s (27 + c)) c fun x => { x with bad := inc16 x.bad }
        (ringPut s (24 + c) { type := 2, result := Code.checkFail.num }).2
      else
        let (bs, s) := engRead s .can c buf 80
        match ((List.range 7).map (· + 8)).find? fun m => !mbxBusy s c m with
        | none => s
        | some m =>
          if sameIdBusy s c (getLe bs 0 4) then s
          else modMbx (loadMbx (ringPop s (27 + c)) c m bs) c m fun _ => { st := 1 })

/-! ### Commands -/

/-- CAN_RES. -/
def canRes (c : Nat) (r : Code) (s : State) : State := modCan s c fun x => { x with res := r }

/-- The right of CAN_CMD, CAN_TXREQ, the mailboxes and CAN_HPB. -/
def canRight (w : Win) : State → Bool := rightOne w rRead

/-- A controller that the Structure billet does not enable (R93). -/
def canGone (s : State) (c : Nat) : Code := when_ (!present s 16 c) .notPresent

/-- RECOVER. -/
def opCanRecover (c : Nat) (s : State) : Code × State :=
  ifOk (firstCode [canGone s c, when_ ((can s c).state != 2) .refusedMode]) s fun s => okCmd (modCan s c fun x => if x.boffWait then { x with boffWait := false, since := s.now } else x)

/-- ABORT. -/
def opCanAbort (c mask : Nat) (s : State) : Code × State :=
  ifOk (canGone s c) s fun s => okCmd (abortMbx s c mask)

/-- ABD_START. -/
def opAbdStart (c : Nat) (s : State) : Code × State :=
  ifOk (firstCode [canGone s c, when_ (!canAuto s c) .notPresent]) s fun s => okCmd (if (can s 2).tool then abdBegin s else s)

/-- CLR_CNT: CAN_ERRC, CAN_HPOVR, CAN_RXCNT, CAN_TXCNT. -/
def opCanClrCnt (c : Nat) (s : State) : Code × State :=
  ifOk (canGone s c) s fun s =>
    okCmd (modCan s c fun x => { x with boff := 0, passive := 0, rxCnt := 0, txCnt := 0, bad := 0
                                        hpb := x.hpb.map fun p => (p.1, { p.2 with ovr := 0 }) })

/-- CAN_TXREQ. -/
def opCanTxreq (c req : Nat) (s : State) : Code × State :=
  let ms := (List.range 16).filter (bitN req)
  ifOk (firstCode [canGone s c, when_ (ms.any fun m => inR m 8 14 || mbxBarred s c m) .busy]) s fun s =>
    okCmd (ms.foldl (fun s m => if mbxBusy s c m then s else modMbx s c m fun _ => { st := 1 }) s)

/-- A host write to a mailbox record: TS is the module's own. -/
def opMailbox (c m i : Nat) (v : Word) (s : State) : Code × State :=
  if !present s 16 c then okCmd s else ifOk (when_ (mbxBusy s c m || mbxBarred s c m) .busy) s fun s =>
    let s := if i = 2 ∨ i = 3 then s else wr s canMbx 0 [c, m, i] v.toNat
    okCmd (modMbx s c m fun _ => {})

/-- Base of a controller's page. -/
def canBase (c : Nat) : Nat := 0x100000 + 0x4000 * c

/-- CAN_CMD RECOVER. -/
def execCanRecover (w : Win) (c : Fin 3) (s : State) : Out :=
  .next (hostCmd w (canBase c) (cmdReq (canRight w) (canRes c) (opCanRecover c)) s)

/-- CAN_CMD ABORT. -/
def execCanAbort (w : Win) (c : Fin 3) (mask : BitVec 16) (s : State) : Out :=
  .next (hostCmd w (canBase c) (cmdReq (canRight w) (canRes c) (opCanAbort c mask.toNat)) s)

/-- CAN_CMD ABD_START. -/
def execAbdStart (w : Win) (c : Fin 3) (s : State) : Out :=
  .next (hostCmd w (canBase c) (cmdReq (canRight w) (canRes c) (opAbdStart c)) s)

/-- CAN_CMD CLR_CNT. -/
def execCanClrCnt (w : Win) (c : Fin 3) (s : State) : Out :=
  .next (hostCmd w (canBase c) (cmdReq (canRight w) (canRes c) (opCanClrCnt c)) s)

/-- CAN_TXREQ. -/
def execCanTxreq (w : Win) (c : Fin 3) (req : BitVec 16) (s : State) : Out :=
  .next (hostCmd w (canBase c + 0x40) (cmdReq (canRight w) (canRes c) (opCanTxreq c req.toNat)) s)

/-- MAILBOX_WRITE. -/
def execMailboxWrite (w : Win) (c : Fin 3) (m : Fin 16) (idx : Fin 20) (val : Word) (s : State) : Out :=
  .next (hostCmd w (canBase c + 0x2000 + 0x80 * m + 4 * idx) (cmdReq (canRight w) noRes (opMailbox c m idx val)) s)

/-- HPB_RELEASE. -/
def execHpbRelease (w : Win) (c : Fin 3) (mask : BitVec 4) (s : State) : Out :=
  .next (hostCmd w (canBase c + 0x50) (cmdReq (canRight w) noRes fun s => okCmd (hpbClear c mask.toNat s)) s)

/-! ### The thermal supervisor's frame (R317) -/

/-- THERMAL_CAN_FRAME: every CAN_PER, through mailbox 15 of CAN0; a frame still pending is replaced. -/
def execThermalCanFrame (s : State) : Out :=
  .next (
    let cfg := rd s thmCan []
    if !awake s || !bitN cfg 31 || !canEn s 0 || s.kln.stopped.contains .thermal || (mbx s 0 15).st == 2 ||
        decide (s.now < s.thm.lastCan + 100000 * fld cfg 9 0) then s
    else
      let bs := leB 4 (flag (bitN cfg 30) 31 + rdf s thmCanid [] 28 0) ++ leB 4 (place 8 19 16) ++ leB 8 0 ++ thmFrame s
      let s := modMbx (loadMbx s 0 15 (padTo 80 bs)) 0 15 fun _ => { st := 1 }
      { s with thm := { s.thm with canCnt := s.thm.canCnt + 1, lastCan := s.now } })

/-! ### Registers that only the module writes -/

/-- CAN_STAT.RECOV: free, up to the bits that have passed since the count began. -/
def canRecovN (s : State) (c : Nat) : Nat :=
  let x := can s c
  if x.state = 2 ∧ !x.boffWait then
    min (Config.canRecov c s.now % 128) ((s.now - x.since) / max 1 (canBits s c 11))
  else 0

/-- CAN_STAT. -/
def canStat (s : State) (c : Nat) : Nat :=
  let x := can s c
  place x.state 31 30 + flag (x.boffWait && decide (x.state = 2)) 29 + flag (awake s && canEn s c && canListens s c) 28 +
    flag x.tool 27 + flag (canLeaseHeld s c) 26 + place x.lec 25 23 + flag x.lecData 22 + canRecovN s c

/-- CAN_ECNT. -/
def canEcnt (s : State) (c : Nat) : Nat :=
  let x := can s c
  place (min 255 x.tec) 23 16 + flag (decide (x.recc ≥ 128)) 8 + place x.recc 7 0

/-- CAN_ABD. -/
def canAbd (s : State) (c : Nat) : Nat :=
  let x := can s c
  if c = 2 then place x.abdState 31 30 + place x.abdRate 26 24 + place x.tmin 19 0 else 0

/-- CAN_MBST_LO (0) and CAN_MBST_HI (1). -/
def canMbst (s : State) (c half : Nat) : Nat :=
  ((List.range 8).map fun i => (mbx s c (8 * half + i)).st * 16 ^ i).foldl (· + ·) 0

/-- CAN_HPB. -/
def canHpb (s : State) (c : Nat) : Nat :=
  bitsOf 4 (fun h => (hpb s c h).shadow.isSome) * 16 + bitsOf 4 fun h => (hpb s c h).full

/-- CAN_HPOVR. -/
def canHpovr (s : State) (c : Nat) : Nat := ((List.range 4).map fun h => (hpb s c h).ovr * 256 ^ h).foldl (· + ·) 0

/-- Word i of a buffer's primary or shadow record. -/
def canHpbWord (s : State) (c h : Nat) (shadow : Bool) (i : Nat) : Nat :=
  match (if shadow then (hpb s c h).shadow else (hpb s c h).primary) with
  | some r => getLe r.bytes (4 * i) 4
  | none => 0

/-- The controllers after cold start or Kindling; the plug-detect is a contact and keeps its reading. -/
def canStart (s : State) : State :=
  (List.range 3).foldl (fun s c =>
    let tool := (can s c).tool
    modCan s c fun _ => { tool := tool, since := s.now }) s |> abdCheck

end Sys2Proof.Machine
end

