-- ==== Sys2Proof/Machine/ModeReq.lean ====
section
/-!
DEFINITION. *Table: Mode transitions* as a window's request meets it (R57): which transitions a window may ask for, and
the right each one needs.
-/

namespace Sys2Proof.Machine

/-- What a window needs for a transition; none when the table names no window as its actor. -/
def winNeed (s : State) (w : Nat) (source target : Mode) : Option Bool :=
  match source, target with
  | .standby, .ember | .standby, .precharge | .precharge, .standby | .connected, .standby | .drowse, .standby =>
    some (bound s w && isOwner s w)
  | .standby, .maintenance => some (hasRight s w rMaint)
  | .standby, .configure | .configure, .standby => some (hasRight s w rCfg)
  | .safeStop, .standby => some (hasRight s w rSafe)
  | _, _ => none

/-- The code for a window's request as far as actor and right decide it, under the order of R14. -/
def actorCode (s : State) (w : Nat) (target : Mode) : Code :=
  match winNeed s w s.emb.mode target with
  | some true => .ok
  | some false => .refusedRights
  | none => .refusedMode

end Sys2Proof.Machine
end

