-- ==== Sys2Proof/Machine/Net.lean ====
section
/-!
DEFINITION. Ethernet frames as the switch and port 2 read them (R416 to R422): addresses, the queue of a frame, the services
and answers of port 2, and the fields of a PTP message. A frame is its bytes from the destination address to the end of
its payload, without the FCS. The formats that the manual names and does not print are those of their standards: IEEE
802.1Q, RFC 826, 791, 8200, 4443, 4861 and IEEE 1588-2019 (PRESUMED, assumption 76).
-/

namespace Sys2Proof.Machine

/-! ### Big-endian fields -/

/-- The number that n big-endian bytes at an offset hold; missing bytes read 0. -/
def getBe (bs : List Byte) (off n : Nat) : Nat := (List.range n).foldl (fun a i => 256 * a + byteAt bs (off + i)) 0

/-- Big-endian bytes of a value. -/
def beB (n v : Nat) : List Byte := (leB n v).reverse

/-- Write bytes at an offset of a frame. -/
def putAt (bs : List Byte) (off : Nat) (v : List Byte) : List Byte := bs.take off ++ v ++ bs.drop (off + v.length)

/-- The Internet checksum of an even number of bytes. -/
def inetSum (bs : List Byte) : Nat :=
  let t := ((List.range ((bs.length + 1) / 2)).map fun i => getBe bs (2 * i) 2).foldl (· + ·) 0
  let t := t % 65536 + t / 65536
  0xFFFF - (t % 65536 + t / 65536) % 65536

/-! ### Addresses (R419) -/

/-- The module's MAC address. -/
def ownMac : Nat := Config.mac.toNat

/-- EUI-64 of a MAC address; `modified` flips the universal bit. -/
def eui64 (mac : Nat) (modified : Bool) : Nat :=
  let hi := mac / 2 ^ 24
  (if modified then Nat.xor hi 0x020000 else hi) * 2 ^ 40 + 0xFFFE * 2 ^ 24 + mac % 2 ^ 24

/-- The module's IPv6 link-local address. -/
def linkLocal : Nat := 0xFE80 * 2 ^ 112 + eui64 ownMac true

/-- The addresses that port 2 answers for in IPv6: link-local, and the static one of the Window billet. -/
def own6 (s : State) (a : Nat) : Bool :=
  a == linkLocal || match s.crd.content with | some c => c.net6.any fun n => n.addr == a | none => false

/-- The static IPv4 address of the Window billet. -/
def own4 (s : State) (a : Nat) : Bool :=
  match s.crd.content with | some c => c.net4.any fun n => n.addr == a | none => false

/-! ### Frames -/

/-- Destination address. -/
def frDst (f : List Byte) : Nat := getBe f 0 6
/-- Source address. -/
def frSrc (f : List Byte) : Nat := getBe f 6 6
/-- An 802.1Q tag stands before the EtherType. -/
def frTagged (f : List Byte) : Bool := getBe f 12 2 == 0x8100
/-- Offset of the EtherType. -/
def frAt (f : List Byte) : Nat := if frTagged f then 16 else 12
/-- EtherType. -/
def frType (f : List Byte) : Nat := getBe f (frAt f) 2
/-- The payload behind the EtherType. -/
def frPay (f : List Byte) : List Byte := f.drop (frAt f + 2)

/-- A broadcast or multicast address. -/
def isGroup (mac : Nat) : Bool := bitN mac 40

/-- Bytes on the wire: at least 64 with the FCS, and 20 of preamble and gap. -/
def frWire (f : List Byte) : Nat := max 60 f.length + 24

/-- Transport of an IPv4 or IPv6 payload: protocol, source port and destination port. -/
def frPorts (f : List Byte) : Option (Nat × Nat × Nat) :=
  let p := frPay f
  if frType f = 0x0800 then
    let h := 4 * (byteAt p 0 % 16)
    some (byteAt p 9, getBe p h 2, getBe p (h + 2) 2)
  else if frType f = 0x86DD then some (byteAt p 6, getBe p 40 2, getBe p 42 2)
  else none

/-- A frame of a transport to or from a port range. -/
def onPort (f : List Byte) (proto lo hi : Nat) : Bool :=
  match frPorts f with
  | some (p, a, b) => p == proto && (inR a lo hi || inR b lo hi)
  | none => false

/-- UDP and TCP. -/
def udp : Nat := 17
/-- TCP. -/
def tcp : Nat := 6

/-- A PTP frame. -/
def isPtp (f : List Byte) : Bool := frType f == 0x88F7

/-- A relay frame (R495): UDP 47211 to the all-nodes address. -/
def isRelayFrame (f : List Byte) : Bool := onPort f udp 47211 47211 && getBe (frPay f) 24 16 == 0xFF02 * 2 ^ 112 + 1

/-- The queue of a frame (*Table: Switch queues*; R418). -/
def frQueue (f : List Byte) : Nat :=
  if frTagged f && decide (byteAt f 14 / 32 ≥ 6) then 3
  else if isPtp f || onPort f udp 47220 47235 then 3
  else if onPort f udp 47240 47240 then 2
  else if onPort f tcp 47210 47210 || onPort f udp 47211 47211 then 1
  else 0

/-- A frame for a service of *Table: Services on port 2*. -/
def isService (f : List Byte) : Bool :=
  isPtp f || onPort f tcp 47210 47210 || onPort f udp 47211 47211 || onPort f udp 47220 47235 || onPort f udp 47240 47240

/-! ### Answers of port 2 (R419) -/

/-- An Ethernet frame from the module to an address. -/
def frTo (dst etype : Nat) (pay : List Byte) : List Byte := beB 6 dst ++ beB 6 ownMac ++ beB 2 etype ++ pay

/-- The answer to an ARP request for the module's static IPv4 address. -/
def arpReply (s : State) (f : List Byte) : Option (List Byte) :=
  let p := frPay f
  if frType f = 0x0806 && getBe p 0 6 == 0x000108000604 && getBe p 6 2 == 1 && own4 s (getBe p 24 4) then
    some (frTo (getBe p 8 6) 0x0806
      (beB 6 0x000108000604 ++ beB 2 2 ++ beB 6 ownMac ++ beB 4 (getBe p 24 4) ++ beB 6 (getBe p 8 6) ++ beB 4 (getBe p 14 4)))
  else none

/-- ICMP behind an IPv4 header without options: the answer to an echo request to the static address. -/
def echo4 (s : State) (f : List Byte) : Option (List Byte) :=
  let p := frPay f
  let n := getBe p 2 2
  let m := (p.take n).drop 20
  if frType f = 0x0800 && byteAt p 0 == 0x45 && byteAt p 9 == 1 && byteAt m 0 == 8 && decide (28 ≤ n) && own4 s (getBe p 16 4) then
    let h := [0x45, 0] ++ beB 2 n ++ beB 4 0 ++ [64, 1, 0, 0] ++ beB 4 (getBe p 16 4) ++ beB 4 (getBe p 12 4)
    let r := [0, 0, 0, 0] ++ m.drop 4
    some (frTo (frSrc f) 0x0800 (putAt h 10 (beB 2 (inetSum h)) ++ putAt r 2 (beB 2 (inetSum r))))
  else none

/-- A UDP datagram between two ports in an IPv6 packet with its checksum. -/
def udp6 (mac src dst hop ports : Nat) (m : List Byte) : List Byte :=
  let n := m.length + 8
  let pseudo := beB 16 src ++ beB 16 dst ++ beB 4 n ++ beB 4 udp
  let h := beB 4 ports ++ beB 2 n
  frTo mac 0x86DD (beB 4 0x60000000 ++ beB 2 n ++ [BitVec.ofNat 8 udp, BitVec.ofNat 8 hop] ++ beB 16 src ++ beB 16 dst ++
    h ++ beB 2 (inetSum (pseudo ++ h ++ [0, 0] ++ m)) ++ m)

/-- A relay frame on the wire (R495): from the link-local address to all nodes with a hop limit of 1, UDP 47211 to 47211. -/
def relayWire (m : List Byte) : List Byte :=
  udp6 0x333300000001 linkLocal (0xFF02 * 2 ^ 112 + 1) 1 (47211 * 65536 + 47211) m

/-- An ICMPv6 message of the module with its header and checksum. -/
def icmp6 (mac src dst hop : Nat) (m : List Byte) : List Byte :=
  let pseudo := beB 16 src ++ beB 16 dst ++ beB 4 m.length ++ beB 4 58
  frTo mac 0x86DD (beB 4 0x60000000 ++ beB 2 m.length ++ [58, BitVec.ofNat 8 hop] ++ beB 16 src ++ beB 16 dst ++
    putAt m 2 (beB 2 (inetSum (pseudo ++ m))))

/-- The answer to a neighbour solicitation or to an echo request for one of the module's IPv6 addresses. -/
def reply6 (s : State) (f : List Byte) : Option (List Byte) :=
  let p := frPay f
  let m := (p.drop 40).take (getBe p 4 2)
  let src := getBe p 8 16
  let target := getBe m 8 16
  if frType f ≠ 0x86DD ∨ byteAt p 6 ≠ 58 then none
  else if byteAt m 0 = 135 ∧ byteAt p 7 = 255 ∧ own6 s target then
    let all := decide (src = 0)
    some (icmp6 (if all then 0x333300000001 else frSrc f) target (if all then 0xFF02 * 2 ^ 112 + 1 else src) 255
      ([136, 0, 0, 0] ++ beB 4 (if all then 0x20000000 else 0x60000000) ++ beB 16 target ++ [2, 1] ++ beB 6 ownMac))
  else if byteAt m 0 = 128 ∧ own6 s (getBe p 24 16) then
    some (icmp6 (frSrc f) (getBe p 24 16) src 64 ([129, 0, 0, 0] ++ m.drop 4))
  else none

/-- What port 2 answers to a frame. -/
def portAnswer (s : State) (f : List Byte) : Option (List Byte) := ((arpReply s f).orElse fun _ => echo4 s f).orElse fun _ => reply6 s f

/-! ### PTP messages -/

/-- messageType: 0 Sync, 1 Delay_Req, 2 Pdelay_Req, 3 Pdelay_Resp, 8 Follow_Up, 9 Delay_Resp, 10 Pdelay_Resp_Follow_Up,
11 Announce. -/
def ptpType (f : List Byte) : Nat := byteAt (frPay f) 0 % 16

/-- twoStepFlag. -/
def ptpTwoStep (f : List Byte) : Bool := bitN (byteAt (frPay f) 6) 1

/-- What names a Sync and its Follow_Up: domain, sourcePortIdentity and sequenceId. -/
def ptpKey (f : List Byte) : Nat × Nat × Nat := (byteAt (frPay f) 4, getBe (frPay f) 20 10, getBe (frPay f) 30 2)

/-- Add ns to the correctionField, which counts 2⁻¹⁶ ns. -/
def ptpCorrect (f : List Byte) (ns : Int) : List Byte :=
  let at_ := frAt f + 10
  putAt f at_ (beB 8 (twos 64 (sgn 64 (getBe f at_ 8) + 65536 * ns)))

/-- A link-delay message stays on its link. -/
def ptpLocal (f : List Byte) : Bool := isPtp f && (inR (ptpType f) 2 3 || ptpType f == 10)

/-- The module's clock identity (R424). -/
def clockId : Nat := eui64 ownMac false

/-- A PTP message of the module on a port: 1 port, messageType, flags, correction 0, sequenceId, interval and body. -/
def ptpMsg (domain port type flags q interval : Nat) (body : List Byte) : List Byte :=
  let control := match type with | 0 => 0 | 8 => 2 | _ => 5
  frTo (if inR type 2 3 || type == 10 then 0x0180C200000E else 0x011B19000000) 0x88F7
    ([BitVec.ofNat 8 type, 0x12] ++ beB 2 (34 + body.length) ++ [BitVec.ofNat 8 domain, 0] ++ beB 2 flags ++ beB 8 0 ++ beB 4 0 ++
      beB 8 clockId ++ beB 2 port ++ beB 2 q ++ [BitVec.ofNat 8 control, BitVec.ofNat 8 interval] ++ body)

/-- A PTP timestamp of a time in ns. -/
def ptpStamp (ns : Nat) : List Byte := beB 6 (ns / 1000000000) ++ beB 4 (ns % 1000000000)

end Sys2Proof.Machine
end

