-- ==== Sys2Proof/Machine/Tim.lean ====
section
/-!
DEFINITION. Plant network, module time and scheduled actions (chapter 16): ports and switch, link delays, masters and the
servo, refused and accepted steps, the cross-check, and the scheduler. Frames, timestamps and Announce messages reach the
module in the command; what the servo makes of its rate is a free value (notes/assumptions/32.md).
-/

namespace Sys2Proof.Machine

/-- BLOCK code of NET. -/
def bNET : Byte := 0x11
/-- BLOCK code of TIM. -/
def bTIM : Byte := 0x12

/-- Change the unit. -/
def modTim (s : State) (f : Tim → Tim) : State := { s with tim := f s.tim }

/-- A switch port: NET0, NET1, or port 2. -/
def netPort (s : State) (p : Nat) : NetPort := tget {} s.tim.ports p

/-- Change a switch port. -/
def modNet (s : State) (p : Nat) (f : NetPort → NetPort) : State := modTim s fun x => { x with ports := tmod {} x.ports p f }

/-- A port carries frames: its link is up and it is enabled; port 2 always does (R416, R420). -/
def portUp (s : State) (p : Nat) : Bool :=
  awake s && (p == 2 || bitN (rd s netCfg []) p && (netPort s p).link)

/-! ### Ports and switch (R416 to R419) -/

/-- NET_LINK_CHANGE: link only with a 1000BASE-T full duplex partner; in EMBER link energy is a wake source. -/
def execNetLinkChange (p : Fin 2) (up fullDuplexGigabit master : Bool) (s : State) : Out :=
  .next (
    if s.emb.power = .on ∧ s.emb.mode = .ember then (if up then fireWake s 2 else s)
    else if !awake s || !bitN (rd s netCfg []) p then s
    else modNet s p fun x =>
      let link := up && fullDuplexGigabit
      { x with link := link, negFail := up && !fullDuplexGigabit, mstr := link && master
               ldown := if x.link && !link then inc16 x.ldown else x.ldown })

/-- Depth of a queue in frames (*Table: Switch queues*). -/
def queueDepth (q : Nat) : Nat := match q with | 3 => 32 | 2 => 64 | _ => 128

/-- An entry has not aged out: traffic within 300 s (R416). -/
def fdbFresh (s : State) (e : Fdb) : Bool := decide (s.now < e.at_ + 300000000)

/-- Learn a source address: refresh it, or take a free entry of the 1024. -/
def fdbLearn (s : State) (mac : Nat) (port : Nat) : State :=
  let e : Fdb := { mac := BitVec.ofNat 64 mac, port := port, at_ := s.now }
  let l := s.tim.fdb.filter (fdbFresh s)
  modTim s fun x =>
    { x with fdb :=
        if l.any fun y => y.mac == e.mac then l.map fun y => if y.mac = e.mac then e else y
        else if l.length < 1024 then l ++ [e]
        else l }

/-- Store a frame at an egress port, or drop it when its queue is full. -/
def egressPut (ingress : Nat) (f : List Byte) (s : State) (p : Nat) : State :=
  let x := netPort s p
  let q := frQueue f
  if !portUp s p then s
  else if (x.frames.filter fun g => g.q == q).length ≥ queueDepth q then modNet s p fun x => { x with drop := inc16 x.drop }
  else modNet s p fun x => { x with frames := x.frames ++ [{ q := q, bytes := f, ingress := ingress, at_ := s.tim.now }] }

/-- The ports a frame leaves by: that of its known destination, the module's own MAC at port 2, else every port but the
ingress (R416). A relay frame goes to port 2 alone, and the relay sends its own on the port it names (R495); a link-delay
message ends at its port. -/
def egress (s : State) (ingress : Nat) (f : List Byte) : List Nat :=
  let dst := frDst f
  if isRelayFrame f then (if ingress = 2 then [] else [2])
  else if ptpLocal f then []
  else if dst = ownMac then [2].filter (· != ingress)
  else
    let known := if isGroup dst then none
      else (s.tim.fdb.find? fun e => e.mac.toNat == dst && fdbFresh s e).map (·.port)
    match known with
    | some p => [p].filter (· != ingress)
    | none => [0, 1, 2].filter (· != ingress)

/-- A frame reaches port 2: a service takes it, the module answers it, or, addressed to the module, it is discarded and
counted (R419). -/
def portTwo (ingress : Nat) (f : List Byte) (s : State) : State :=
  if isService f then egressPut ingress f s 2
  else match portAnswer s f with
    | some r => (egress s 2 r).foldl (egressPut 2 r) s
    | none => if frDst f = ownMac then modNet s 2 fun x => { x with drop := inc16 x.drop } else s

/-- SWITCH_FORWARD: the switch stores a frame and forwards it by queue (R416, R418, R419). -/
def execSwitchForward (ingress : Fin 3) (frame : List Byte) (s : State) : Out :=
  .next (
    if !portUp s ingress || decide (frame.length < 14) then s
    else
      let s := modNet s ingress fun x => { x with rx := (x.rx + 1) % 65536 }
      let s := if isGroup (frSrc frame) then s else fdbLearn s (frSrc frame) ingress
      (egress s ingress frame).foldl (fun s p => if p = 2 then portTwo ingress frame s else egressPut ingress frame s p) s)

/-! ### The transparent clock (R421, R422) -/

/-- TX_LAT and RX_LAT of a NET port in ns. -/
def txLat (s : State) (p : Nat) : Int := (rdf s netPlat [p] 31 16 : Nat)
/-- RX_LAT of a NET port in ns. -/
def rxLat (s : State) (p : Nat) : Int := (rdf s netPlat [p] 15 0 : Nat)

/-- The link delay of a port in ns with the integrator's correction (R423). -/
def linkDelay (s : State) (p : Nat) : Int := (netPort s p).dly.getD 0 + sgn 16 (rdf s netAsym [p] 15 0)

/-- What a frame that leaves port p now has spent from wire to wire, with the link delay of its ingress port. The instants
of the MACs are those of the model's µs (DESIGN CHOICE, assumption 32). -/
def residence (s : State) (p : Nat) (f : QueuedFrame) : Int :=
  (s.tim.now - f.at_).toInt + txLat s p + rxLat s f.ingress + linkDelay s f.ingress

/-- The frame as it leaves port p: a one-step Sync and the Follow_Up of a two-step Sync carry the correction. Between NET
ports only: what the module itself sends or takes has crossed one wire. -/
def frameOut (s : State) (p : Nat) (f : QueuedFrame) : List Byte × State :=
  if p = 2 ∨ f.ingress = 2 ∨ !isPtp f.bytes then (f.bytes, s)
  else match ptpType f.bytes with
    | 0 =>
      if ptpTwoStep f.bytes then
        (f.bytes, modTim s fun x =>
          { x with ptpRes := ({ key := ptpKey f.bytes, port := p, ns := residence s p f } :: x.ptpRes).take 64 })
      else (ptpCorrect f.bytes (residence s p f), s)
    | 8 =>
      match s.tim.ptpRes.find? fun r => r.key == ptpKey f.bytes && r.port == p with
      | some r => (ptpCorrect f.bytes r.ns, modTim s fun x => { x with ptpRes := x.ptpRes.erase r })
      | none => (f.bytes, s)
    | _ => (f.bytes, s)

/-- One µs of egress of a port at 1 Gbit/s, by strict priority. -/
def portTick (s : State) (p : Nat) : State :=
  let x := netPort s p
  if x.sending > 125 then modNet s p fun x => { x with sending := x.sending - 125 }
  else
    match [3, 2, 1, 0].findSome? fun q => x.frames.find? fun f => f.q == q with
    | some f =>
      let s := modNet s p fun x => { x with sending := frWire f.bytes, frames := x.frames.erase f }
      if p = 2 then s
      else
        let (bytes, s) := frameOut s p f
        send s (ifSwitch p) bytes
    | none => modNet s p fun x => { x with sending := 0 }

/-- One µs of egress at every port that holds frames. -/
def netTick (s : State) : State :=
  (List.range 3).foldl (fun s p =>
    let x := netPort s p
    if x.sending > 0 ∨ !x.frames.isEmpty then portTick s p else s) s

/-- FDB_AGE: 300 s without traffic. -/
def execFdbAge (mac : Word64) (s : State) : Out :=
  .next (modTim s fun x => { x with fdb := x.fdb.filter fun e => !(e.mac == mac) || fdbFresh s e })

/-- NET_RES. -/
def netRes (c : Code) (s : State) : State := modTim s fun x => { x with netRes := c }

/-- FLUSH_FDB. -/
def opFlushFdb (s : State) : Code × State := okCmd (modTim s fun x => { x with fdb := [] })

/-- NET_CMD CLR_CNT: every NET_CNTp. -/
def opNetClrCnt (s : State) : Code × State :=
  okCmd (modTim s fun x => { x with ports := x.ports.map fun p => (p.1, { p.2 with rx := 0, drop := 0 }) })

/-- NET_CMD FLUSH_FDB. -/
def execFlushFdb (w : Win) (s : State) : Out := .next (hostCmd w 0x110000 (cmdReq (rightOne w rCfg) netRes opFlushFdb) s)

/-- NET_CMD CLR_CNT. -/
def execNetClrCnt (w : Win) (s : State) : Out := .next (hostCmd w 0x110000 (cmdReq (rightOne w rCfg) netRes opNetClrCnt) s)

/-! ### Events and states (R426, R437) -/

/-- A clock event on ring 51. -/
def clockEvent (s : State) (type port : Nat) (v : Int) : State := ringPush s 51 (inlineDesc type port (leI 8 v))

/-- Enter a state of TIM_STAT; a change is an event. -/
def timState (s : State) (n : Nat) : State :=
  if s.tim.state = n then s
  else clockEvent (modTim s fun x => { x with state := n, lockRun := 0 }) 0x10 s.tim.port s.tim.ofs

/-- No master is qualified. -/
def holdoverIf (s : State) : State := if inR s.tim.state 1 2 then timState s 3 else s

/-- HOLDOVER ends: back to LOCKING, unless a delay hold, a refused step or the lack of a master keeps it. -/
def lockingIf (s : State) : State :=
  if s.tim.state = 3 && s.tim.dlyHold.isNone && !s.tim.refused && s.tim.master.isSome then timState s 1 else s

/-- The terms of the best master clock algorithm in their order; the lower clock is the better. The module shows class 248,
priorities 128 and its identity (R424), and for accuracy and variance the standard's "unknown" (PRESUMED, assumption 76). -/
def annRank (a : Announce) (port : Nat) : List Nat :=
  [a.prio1.toNat, a.clockClass.toNat, a.accuracy.toNat, a.variance.toNat, a.prio2.toNat, a.identity.toNat, a.steps.toNat, port]

/-- The rank of the module's own clock. -/
def ownRank : List Nat := [128, 248, 0xFE, 0xFFFF, 128, clockId]

/-- Lexicographic order. -/
def lexLt : List Nat → List Nat → Bool
  | a :: s, b :: t => decide (a < b) || a == b && lexLt s t
  | _, _ => false

/-- The best clock of a list. -/
def bestOf (l : List Master) : Option Master :=
  l.find? fun m => l.all fun o => !lexLt (annRank o.ann o.port) (annRank m.ann m.port)

/-- Select: the best qualified clock of each port, one that beats the module's own unless SLAVE_ONLY is set, and of the two
the better; the other serves the cross-check (R424, R430). -/
def selectMaster (s : State) : State :=
  let ok (m : Master) : Bool := m.qual && (bitN (rd s timCfg []) 31 || lexLt (annRank m.ann m.port) ownRank)
  let best (p : Nat) : Option Master := bestOf (s.tim.foreign.filter fun m => ok m && m.port == p)
  let m := bestOf ((best 0).toList ++ (best 1).toList)
  let o := match m with | some m => best (1 - m.port) | none => none
  let both := match m, o with
    | some a, some b => a.ann.timeSource == b.ann.timeSource && inR a.ann.clockClass.toNat 6 7 && inR b.ann.clockClass.toNat 6 7
    | _, _ => false
  let s := modTim s fun x =>
    { x with master := m, other := o, syncBoth := both, port := match m with | some m => m.port | none => x.port
             xRun := if both then x.xRun else 0, xOkRun := if both then x.xOkRun else 0 }
  if m.isSome then lockingIf s else holdoverIf s

/-- PTP_ANNOUNCE: a clock of the module's domain is heard; the second Announce within four intervals qualifies it
(PRESUMED, assumption 76, the standard's threshold), and the best one is selected (R424). -/
def execPtpAnnounce (p : Fin 2) (a : Announce) (s : State) : Out :=
  .next (
    if !portUp s p || a.domain.toNat != rdf s timCfg [] 7 0 || a.identity.toNat == clockId then s
    else
      let same (m : Master) : Bool := m.port == p.val && m.ann.identity == a.identity
      let old := s.tim.foreign.find? same
      let q := match old with | some m => m.qual || decide (s.now ≤ m.seen + 4000000) | none => false
      selectMaster (modTim s fun x =>
        { x with foreign := (x.foreign.filter fun m => !same m) ++ [{ port := p.val, ann := a, seen := s.now, qual := q }] }))

/-- ANNOUNCE_TIMEOUT: three intervals of 1 s without an Announce disqualify a master. -/
def execAnnounceTimeout (s : State) : Out :=
  .next (
    let old (m : Master) : Bool := decide (s.now ≥ m.seen + 3000000)
    if !awake s || !s.tim.foreign.any old then s
    else selectMaster (modTim s fun x => { x with foreign := x.foreign.filter fun m => !old m }))

/-- PTP_MASTER_SEND: Announce and a two-step Sync at 1 s intervals while the module may be master and no better clock is
qualified. -/
def execPtpMasterSend (s : State) : Out :=
  .next (
    let due := match s.tim.sentAt with
      | some t => decide (s.now ≥ t + 1000000)
      | none => true
    if !awake s || bitN (rd s timCfg []) 31 || s.tim.master.isSome || !due then s
    else
      let q := s.tim.txSeq + 1
      let dom := rdf s timCfg [] 7 0
      let now := s.tim.now.toNat
      let s := modTim s fun x => { x with sentAt := some s.now, txSeq := q }
      ([0, 1].filter (portUp s)).foldl (fun s p =>
        let s := send s (ifPtpAnn p) (ptpMsg dom 1 11 0 q.toNat 0
          (ptpStamp 0 ++ beB 3 0 ++ [128, 248, 0xFE, 0xFF, 0xFF, 128] ++ beB 8 clockId ++ beB 2 0 ++ [0xA0]))
        let s := send s (ifPtp p) (ptpMsg dom 1 0 0x0200 q.toNat 0 (ptpStamp 0))
        send s (ifPtpFollow p) (ptpMsg dom 1 8 0 q.toNat 0 (ptpStamp ((now : Int) + txLat s p).toNat))) s)

/-! ### Link delay (R421, R423, R429) -/

/-- One exchange from its four timestamps, those of the module at the MAC: half of the turnaround less the responder's, at
the wire, and less the corrections (in 2⁻¹⁶ ns). -/
def pdelayOf (s : State) (p : Nat) (t1 t2 t3 t4 corr : Int) : Int :=
  rdiv (((t4 - rxLat s p) - (t1 + txLat s p) - (t3 - t2)) * 65536 - corr) 131072

/-- PDELAY_MEASURE: every 1 s; the link delay is the mean of the last 8 exchanges, and a change of more than DLY_STEP
between consecutive means starts a hold on the port in use. -/
def execPdelayMeasure (p : Fin 2) (t1 t2 t3 t4 : Nanos) (corr : Int) (s : State) : Out :=
  .next (
    let x := netPort s p
    let due := match x.lastPd with
      | some t => decide (s.now ≥ t + 1000000)
      | none => true
    if !portUp s p || !due then s
    else
      let l := (pdelayOf s p t1 t2 t3 t4 corr :: x.dlys).take 8
      let mean := rdiv (sumI l) l.length
      let q := x.pdSeq + 1
      let s := send (modNet s p fun x => { x with dlys := l, dly := some mean, lastPd := some s.now, pdSeq := q }) (ifPtp p)
        (ptpMsg (rdf s timCfg [] 7 0) (p + 1) 2 0 q.toNat 0 (ptpStamp 0 ++ beB 10 0))
      match x.dly with
      | none => s
      | some old =>
        if (mean - old).natAbs ≤ rdf s timDly [] 31 16 then s
        else
          let s := stage s .timeDlyStep bTIM sevNotice (BitVec.ofNat 8 p.val :: leI 4 old ++ leI 4 mean)
          let s := clockEvent s 0x14 p.val mean
          if p.val = s.tim.port then holdoverIf (modTim s fun y => { y with dlyHold := some s.now }) else s)

/-- TIM_PDLYp: the mean with the integrator's correction (R423). -/
def timPdly (s : State) (p : Nat) : Nat := twos 32 (linkDelay s p)

/-- PDELAY_RESPONSE: the two-step answer to a Pdelay_Req of a port identity, received at a MAC timestamp (R421, R423). -/
def execPdelayResponse (p : Fin 2) (reqSeq : BitVec 16) (source : BitVec 80) (rx : Nanos) (s : State) : Out :=
  .next (
    if portUp s p then
      let dom := rdf s timCfg [] 7 0
      let s := send s (ifPtp p) (ptpMsg dom (p + 1) 3 0x0200 reqSeq.toNat 0x7F
        (ptpStamp (rx - rxLat s p).toNat ++ beB 10 source.toNat))
      send s (ifPtpFollow p) (ptpMsg dom (p + 1) 10 0 reqSeq.toNat 0x7F
        (ptpStamp ((s.tim.now.toNat : Int) + txLat s p).toNat ++ beB 10 source.toNat))
    else s)

/-- DLY_HOLD_END: DLY_SETTLE has passed since the last change. -/
def execDlyHoldEnd (s : State) : Out :=
  .next (
    match s.tim.dlyHold with
    | some t =>
      if awake s && decide (s.now ≥ t + 1000000 * rdf s timDly [] 15 0) then
        lockingIf (modTim s fun x => { x with dlyHold := none })
      else s
    | none => s)

/-! ### Scheduler (R431 to R436) -/

/-- T − now as signed n-bit (R431). -/
def timeDiff (n : Nat) (s : State) (t : Word64) : Int := sgn n ((t - s.tim.now).toNat)

/-- A scheduler slot. -/
def slot (s : State) (e : Nat) : Option Sched := tget none s.tim.sched e

/-- Set a slot. -/
def setSlot (s : State) (e : Nat) (v : Option Sched) : State := modTim s fun x => { x with sched := tset none x.sched e v }

/-- A scheduler event on ring 51: SRC the slot, DATA the time and the action TYPE. -/
def schedEvent (s : State) (type e : Nat) (x : Sched) (c : Code) : State :=
  ringPush s 51 { inlineDesc type e (leB 6 x.time.toNat ++ [BitVec.ofNat 8 x.type]) with result := c.num }

/-- The writer's right for an action (*Table: Scheduler actions*). -/
def schedRight (s : State) (x : Sched) : Bool :=
  match x.type with
  | 1 => bound s x.win && isOwner s x.win
  | 2 => (winNeed s x.win s.emb.mode (modeOf x.val.toNat)).getD true
  | _ => isOwner s x.win || hasRight s x.win rCfg

/-- Carry out an entry, with the event of its kind, or refuse it for want of the right. RESULT of the event is what the
action answers (DEDUCED, assumption 60). -/
def schedRun (s : State) (type e : Nat) (x : Sched) : State :=
  if !schedRight s x then schedEvent s 0x04 e x .refusedRights
  else
    let (c, s) := match x.type with
      | 1 => opDsp x.tgt x.val.toNat s
      | 2 => (.ok, reqMode s (modeOf x.val.toNat) (.sched x.win))
      | _ => (.ok, raise s (.sched (Fin.ofNat 8 x.tgt)))
    schedEvent s type e x c

/-- An entry whose time has passed. -/
def schedDue (s : State) (x : Sched) : Bool := decide (timeDiff 48 s x.time ≤ 0)

/-- The first due slot. -/
def firstSched (s : State) : Option (Nat × Sched) :=
  s.tim.sched.findSome? fun p => match p.2 with
    | some x => if schedDue s x then some (p.1, x) else none
    | none => none

/-- SCHED_EXECUTE: the due entry of the lowest slot; in DROWSE it is host activity and waits for the wake (R433). -/
def execSchedExecute (s : State) : Out :=
  .next (
    match firstSched s with
    | none => s
    | some (e, x) =>
      if !awake s then s
      else if s.emb.mode = .drowse then activity s
      else schedRun (setSlot s e none) 0x01 e x)

/-- LATE_WIN in ns. -/
def lateWin (s : State) : Int := 1000000 * (rdf s timSlate [] 15 0 : Nat)

/-- An entry overtaken by a forward step (R435); in DROWSE it wakes the module first (R433). -/
def overtaken (s : State) (e : Nat) (x : Sched) : State :=
  if -(timeDiff 48 s x.time) > lateWin s then schedEvent (setSlot s e none) 0x03 e x .expired
  else if s.emb.mode = .drowse then activity s
  else schedRun (setSlot s e none) 0x02 e x

/-- Insert by time, then slot: entries come in slot order. -/
def insertSched (p : Nat × Sched) (before : Sched → Sched → Bool) : List (Nat × Sched) → List (Nat × Sched)
  | [] => [p]
  | q :: t => if before p.2 q.2 then p :: q :: t else q :: insertSched p before t

/-- The entries due now, in order of time and then of slot. -/
def overtakenList (s : State) : List (Nat × Sched) :=
  let due := s.tim.sched.filterMap fun p => match slot s p.1 with
    | some x => if schedDue s x then some (p.1, x) else none
    | none => none
  due.foldl (fun l p => insertSched p (fun a b => decide (timeDiff 48 s a.time < timeDiff 48 s b.time)) l) []

/-- The low slot that is free. -/
def freeSlot (s : State) : Option Nat := (List.range 256).find? fun e => (slot s e).isNone

/-- The entry a window has staged. -/
def staged (s : State) (w : Nat) : Sched :=
  { win := Fin.ofNat 4 w, type := fld (rdw s timSact w []) 31 28, tgt := fld (rdw s timSact w []) 2 0
    time := BitVec.ofNat 64 (rdw s timStime w [1] * 2 ^ 32 + rdw s timStime w [0]), val := wd (rdw s timSval w []) }

/-- TIM_SRES of a window. -/
def schedRes (w : Nat) (c : Code) (s : State) : State := modWin s w fun x => { x with sRes := c }

/-- ADD (R432, R434). -/
def opSchedAdd (w : Nat) (s : State) : Code × State :=
  let x := staged s w
  let d := timeDiff 64 s x.time
  let free := freeSlot s
  let tgtOk := if x.type = 1 then decide (x.tgt < 4) else true
  let c := firstCode
    [when_ (inR x.type 1 3 && !schedRight s x) .refusedRights,
     when_ (x.type == 1 && decide (x.tgt < 4) && !present s 10 x.tgt) .notPresent, rng (inR x.type 1 3 && tgtOk && decide (d ≤ 2 ^ 47)),
     when_ free.isNone .full, when_ (decide (-d > lateWin s)) .expired]
  ifOk c s fun s =>
    let e := free.getD 0
    let s := modWin s w fun y => { y with sEntry := e }
    if d > 0 then (.ok, setSlot s e (some x))
    else if s.emb.mode = .drowse then (.lateDone, activity (setSlot s e (some x)))
    else (.lateDone, schedRun s 0x02 e x)

/-- CANCEL (R436). -/
def opSchedCancel (w e : Nat) (s : State) : Code × State :=
  match slot s e with
  | none => (.notPresent, s)
  | some x =>
    if x.win.val = w || hasRight s w rCfg then (.ok, setSlot s e none) else (.refusedRights, s)

/-- CANCEL_ALL: every slot, which needs the right for each of them. -/
def opSchedCancelAll (w : Nat) (s : State) : Code × State :=
  let foreign := s.tim.sched.any fun p => match p.2 with
    | some x => x.win.val != w
    | none => false
  ifOk (when_ (foreign && !hasRight s w rCfg) .refusedRights) s fun s => okCmd (modTim s fun x => { x with sched := [] })

/-- TIM_SCMD ADD. -/
def execSchedAdd (w : Win) (s : State) : Out :=
  .next (hostCmd w 0x120100 (cmdReq (rightOne w rRead) (schedRes w) (opSchedAdd w)) s)

/-- TIM_SCMD CANCEL. -/
def execSchedCancel (w : Win) (entry : Byte) (s : State) : Out :=
  .next (hostCmd w 0x120100 (cmdReq (rightOne w rRead) (schedRes w) (opSchedCancel w entry.toNat)) s)

/-- TIM_SCMD CANCEL_ALL. -/
def execSchedCancelAll (w : Win) (s : State) : Out :=
  .next (hostCmd w 0x120100 (cmdReq (rightOne w rRead) (schedRes w) (opSchedCancelAll w)) s)

/-- Cold start and entry into EMBER clear the table (R436). -/
def schedClear (s : State) : State :=
  let n := s.tim.sched.length
  stage (modTim s fun x => { x with sched := [] }) .schedCleared bTIM sevNotice (leB 2 n)

/-! ### The servo and steps (R425, R427, R428) -/

/-- Order a step, which takes effect at the next 1 µs boundary (R24). -/
def orderStep (s : State) (delta : Int) (w : Option Win) : State := modTim s fun x => { x with stepNext := some (delta, w) }

/-- A step takes effect: EPC and its record first, then the event, LOCKING, and the entries overtaken. -/
def applyStep (s : State) (delta : Int) (w : Option Win) : State :=
  let before := s.tim.now
  let epc := s.tim.epc
  let back := decide (delta < 0)
  let old := s.tim.state
  let s := modTim s fun x =>
    { x with now := BitVec.ofInt 64 ((before.toNat : Int) + delta), epc := if back then x.epc + 1 else x.epc
             refused := false, pend := 0, stepNext := none, state := 1, lockRun := 0 }
  let payload := leB 8 before.toNat ++ leB 8 s.tim.now.toNat ++ [epc, s.tim.epc] ++
    [match w with | some w => BitVec.ofNat 8 w.val | none => 0xFF]
  let s := if back then auditAuto s .timeStep bTIM payload else stage s .timeStep bTIM sevNotice payload
  let s := if old = 1 then s else clockEvent s 0x10 s.tim.port (-delta)
  let s := clockEvent s 0x12 s.tim.port (-delta)
  if back then s else (overtakenList s).foldl (fun s p => overtaken s p.1 p.2) s

/-- TIME_STEP: the 1 µs boundary at which an ordered step takes effect. -/
def execTimeStep (s : State) : Out :=
  .next (
    match s.tim.stepNext with
    | some (d, w) => if awake s then applyStep s d w else s
    | none => s)

/-- STEP_MAX in ns. -/
def stepMax (s : State) : Nat := 1000 * rdf s timStepmax [] 19 0

/-- The servo slews: a rate within ±100 ppm that the manual does not give, and the count towards LOCKED (R425, R426). -/
def slew (s : State) (ofs : Int) : State :=
  let (f, s) := drawFree s
  let run := if ofs.natAbs ≤ 1000 then min 10 (s.tim.lockRun + 1) else 0
  let s := lockingIf (modTim s fun x => { x with rate := ((f % 200001 : Nat) : Int) - 100000, refused := false, pend := 0 })
  let s := modTim s fun x => { x with lockRun := run }
  if s.tim.state = 1 ∧ run ≥ 10 then timState s 2 else s

/-- An offset above STEP_MAX is refused (R427). -/
def refuseStep (s : State) (ofs : Int) : State :=
  let first := !s.tim.refused
  let s := modTim s fun x => { x with refused := true, pend := -ofs }
  let s := timState s 3
  if first then clockEvent (stage s .timeJumpRefused bTIM sevWarning (leI 8 ofs)) 0x11 s.tim.port ofs else s

/-- The servo steps: what was pending is discarded (R425, R427). -/
def servoStep (s : State) (ofs : Int) : State := orderStep (modTim s fun x => { x with refused := false, pend := 0 }) (-ofs) none

/-- *Table: Servo action*. -/
def servo (s : State) (ofs : Int) : State :=
  let s := modTim s fun x => { x with ofs := satS 32 ofs }
  if s.tim.dlyHold.isSome then s
  else if s.tim.state = 0 then servoStep s ofs
  else if ofs.natAbs ≤ 10000 then slew s ofs
  else if ofs.natAbs ≤ stepMax s then servoStep s ofs
  else refuseStep s ofs

/-- One pair of the cross-check, complete when an offset has come through each port (R430). -/
def crossCheck (s : State) : State :=
  let a := (netPort s 0).xofs
  let b := (netPort s 1).xofs
  if !(netPort s 0).xNew || !(netPort s 1).xNew then s
  else
    let apart := decide ((a - b).natAbs > rdf s timXchk [] 15 0)
    let s := modTim s fun x =>
      { x with xRun := if apart then min 10 (x.xRun + 1) else 0, xOkRun := if apart then 0 else min 10 (x.xOkRun + 1) }
    let s := modNet (modNet s 0 fun x => { x with xNew := false }) 1 fun x => { x with xNew := false }
    if s.tim.xRun ≥ 10 && !s.tim.suspect then
      let s := stage (modTim s fun x => { x with suspect := true }) .timeAsymmetry bTIM sevWarning (leI 8 (a - b))
      clockEvent s 0x13 s.tim.port (a - b)
    else if s.tim.xOkRun ≥ 10 then modTim s fun x => { x with suspect := false }
    else s

/-- The offset of a Sync: module time at the wire less the master's, which its origin, the corrections (in 2⁻¹⁶ ns) and the
link delay give (R421, R425). -/
def syncOffset (s : State) (p : Nat) (rx origin corr : Int) : Int :=
  rx - rxLat s p - origin - rdiv corr 65536 - linkDelay s p

/-- PTP_SYNC: a Sync, with its Follow_Up, of the selected master on its port gives the offset that the servo takes; with
Sync on both ports that of the other one completes a pair of the cross-check (R424, R425, R430). -/
def execPtpSync (p : Fin 2) (source : Word64) (rx origin : Nanos) (corr : Int) (s : State) : Out :=
  .next (
    let from_ (m : Option Master) : Bool := match m with | some m => m.port == p.val && m.ann.identity == source | none => false
    let sel := from_ s.tim.master
    if !portUp s p || !(sel || s.tim.syncBoth && from_ s.tim.other) then s
    else
      let ofs := syncOffset s p rx origin corr
      let s := if s.tim.syncBoth then modNet s p fun x => { x with xofs := satS 32 ofs, xNew := true } else s
      let s := if sel then servo s ofs else s
      if s.tim.syncBoth then crossCheck s else s)

/-- TIM_RES. -/
def timRes (c : Code) (s : State) : State := modTim s fun x => { x with res := c }

/-- TIM_ACCEPT_STEP with GO; without GO the write asks for nothing. -/
def opAcceptStep (w : Win) (go : Bool) (s : State) : Code × State :=
  if !go then okCmd s
  else if !s.tim.refused then refuse .notPresent s
  else if s.tim.pend < 0 && auditFullNow s then refuse .full (noteAuditFull s)
  else okCmd (orderStep s s.tim.pend (some w))

/-- TIM_ACCEPT_STEP (R427). -/
def execTimAcceptStep (w : Win) (go : Bool) (s : State) : Out :=
  .next (hostCmd w 0x12001C (cmdReq (rightOne w rTime) timRes (opAcceptStep w go)) s)

/-! ### The run of module time -/

/-- One µs of module time at the disciplined rate (ppb), the fraction kept in 10⁻⁶ ns. -/
def timTick (s : State) : State :=
  modTim s fun x =>
    let f := x.frac + x.rate
    { x with now := BitVec.ofInt 64 ((x.now.toNat : Int) + 1000 + f / 1000000), frac := f % 1000000 }

/-- The unit after cold start (UNSET) or Kindling (HOLDOVER) (R426). Module time, EPC and the rate stay. -/
def timStart (s : State) (cold : Bool) : State :=
  let s := modTim s fun x =>
    { now := x.now, rate := x.rate, frac := x.frac, epc := x.epc, state := if cold then 0 else 3, sched := x.sched
      ports := if cold then [] else x.ports.map fun p => (p.1, { ldown := p.2.ldown }) }
  if cold then schedClear s else s

/-- Entry into EMBER: the scheduler is cleared and the PHYs go off (R420, R436). -/
def timEmber (s : State) : State :=
  schedClear (modTim s fun x =>
    { x with foreign := [], master := none, other := none, syncBoth := false, fdb := [], stepNext := none, ptpRes := []
             ports := x.ports.map fun p => (p.1, { p.2 with link := false, frames := [], sending := 0 }) })

/-! ### Registers that only the unit writes -/

/-- Ports whose EN is clear after CONFIGURE have no link. -/
def netCheckEn (s : State) : State :=
  (List.range 2).foldl (fun s p =>
    if bitN (rd s netCfg []) p || !(netPort s p).link then s
    else modNet s p fun x => { x with link := false, negFail := false, mstr := false, ldown := inc16 x.ldown, frames := [] }) s

/-- NET_PSTATp. -/
def netPstat (s : State) (p : Nat) : Nat :=
  let x := netPort s p
  flag x.link 31 + flag x.negFail 30 + flag x.mstr 29 + x.ldown

/-- TIM_STAT. -/
def timStat (s : State) : Nat :=
  let x := s.tim
  place x.state 31 28 + flag x.refused 27 + flag x.suspect 26 + flag x.dlyHold.isSome 25 + place x.port 24 24 +
    flag x.syncBoth 23 + x.epc.toNat

/-- Word i of slot e of TIM_STAB. -/
def timStab (s : State) (e i : Nat) : Nat :=
  match slot s e with
  | none => 0
  | some x =>
    match i with
    | 0 => 2 ^ 31 + place x.win.val 29 28 + place x.type 27 24 + place x.tgt 18 16 + fld x.time.toNat 47 32
    | 1 => fld x.time.toNat 31 0
    | 2 => x.val.toNat
    | _ => 0

end Sys2Proof.Machine
end

