-- ==== Sys2Proof/Machine/Rec.lean ====
section
/-!
DEFINITION. The event recorder behind its staging (chapter 18): flushes, placement in the store, the archive, the audit
partition's images, the windows' readers and the live copy. Stamping and staging are in `Machine/Ops.lean`.
-/

namespace Sys2Proof.Machine

/-- BLOCK code of REC. -/
def bREC : Byte := 0x14

/-- Change the recorder. -/
def modRec (s : State) (f : RecS → RecS) : State := { s with recd := f s.recd }

/-- a is older than b: SEQ compared modulo 2^32 as a signed difference (R463). -/
def seqLt (a b : Word) : Bool := decide (sgn 32 (a - b).toNat < 0)

/-- The oldest of a list of records. -/
def oldestRec : List Rec → Option Rec
  | [] => none
  | r :: t => match oldestRec t with
    | some o => if seqLt o.seq r.seq then some o else some r
    | none => some r

/-! ### Flushes and the store (R469, R471) -/

/-- The lowest key from n on that a table does not list. -/
def firstGap {α : Type} : Nat → Tab α → Nat
  | n, [] => n
  | n, (k, _) :: t => if k = n then firstGap (n + 1) t else n

/-- The occupied store slots with their records. -/
def storeRecs (r : RecS) : List (Nat × Rec) := r.store.filterMap fun p => p.2.map fun x => (p.1, x)

/-- The slot of the oldest record of a severity at or below `sev`. -/
def oldestSlot (r : RecS) (sev : Nat) : Option Nat :=
  let l := (storeRecs r).filter fun p => decide (p.2.sev ≤ sev)
  match oldestRec (l.map (·.2)) with
  | some o => (l.find? fun p => p.2.seq == o.seq).map (·.1)
  | none => none

/-- Place one record in the store (R471). -/
def placeRec (r : RecS) (x : Rec) : RecS :=
  let low := ((storeRecs r).filter fun p => decide (p.2.sev < sevFault)).length
  let gap := firstGap 0 r.store
  let free := if (decide (x.sev ≥ sevFault) || decide (4 * low < 3 * r.storeSlots)) && decide (gap < r.storeSlots) then
    some gap else none
  match free.orElse fun _ => oldestSlot r x.sev with
  | none => { r with drops := tmod 0 r.drops x.sev inc32 }
  | some n =>
    let missed := match tget none r.store n with
      | some o => if r.unarchived.contains o.seq then some o.seq else none
      | none => none
    let r := match missed with
      | some q => { r with archMiss := inc32 r.archMiss, unarchived := r.unarchived.erase q }
      | none => r
    { r with store := tset none r.store n (some x), unarchived := r.unarchived ++ [x.seq] }

/-- A flush begins, the group's commit boundary (R95, R469): every record staged now; the unused half of a pair is closed with a descriptor of LEN 64 (R466). -/
def beginFlush (s : State) : State :=
  let s := commitFree s 20 0
  let s := if s.recd.slot % 2 = 1 then
      let base := match partOf s .staging with | some p => p.base | none => 0
      let s := (ringPut s 40 { buf := base + 64 * (s.recd.slot - 1), len := 64 }).2
      modRec s fun r => { r with slot := (r.slot + 1) % 8192 }
    else s
  modRec s fun r =>
    { r with flushing := some r.staging.length, lastFlush := s.now, lastFaultAt := none
             flushCmd := r.flushAgain, flushAgain := false }

/-- A trigger of R469 holds. -/
def flushDue (s : State) : Bool :=
  let r := s.recd
  r.flushAgain || r.lastFaultAt.isSome || decide (stagingFill r ≥ 4096) ||
    decide (s.now ≥ r.lastFlush + 1000 * rdf s recCfg [] 15 0)

/-- RECORDER_FLUSH. -/
def execRecorderFlush (s : State) : Out :=
  .next (if awake s && s.recd.flushing.isNone && flushDue s then beginFlush s else s)

/-- Write the first n staged records to the store, and SEQ_NEXT with its mark (R463). -/
def storeStaged (s : State) (n : Nat) (clean : Bool) : State :=
  let s := modRec s fun r =>
    let r := (r.staging.take n).foldl placeRec r
    { r with staging := r.staging.drop n, flushing := none, seqKept := r.seqNext, clean := clean }
  modRing s 40 fun g => { g with tail := g.tail + wd (min (ringFill g) ((n + 1) / 2)) }

/-- RECORDER_FLUSH_COMPLETE; a REC_CMD FLUSH that waited for this flush completes. -/
def execRecorderFlushComplete (s : State) : Out :=
  .next (
    match if awake s || s.emb.power == .flushing then s.recd.flushing else none with
    | some n =>
      let s := storeStaged s n false
      modRec s fun r => { r with res := if r.flushCmd && !r.flushAgain && r.res == .busy then .ok else r.res
                                 flushCmd := false }
    | none => s)

/-- The recorder's share of the power-fail flush and of the preparation of R536: everything staged, then SEQ_NEXT with
its CLEAN mark. -/
def recPowerFlush (s : State) : State := storeStaged s s.recd.staging.length true

/-- Everything staged is in the store before Ember-only operation (R469). -/
def recEmberFlush (s : State) : State := storeStaged s s.recd.staging.length false

/-! ### Archive (R475) -/

/-- The record archive's blocks: 960 MB of 4 KB; a full archive erases its oldest 1 MB. -/
def archBlocks : Nat := 245760

/-- Copy a block of records, by SEQ, to the archive. -/
def archiveBlock (s : State) (seqs : List Word) : State :=
  modRec s fun r =>
    let recs := (storeRecs r).filterMap fun p => if seqs.contains p.2.seq then some p.2 else none
    let sorted := seqs.filterMap fun q => recs.find? fun x => x.seq == q
    let a := if r.archive.length ≥ archBlocks then r.archive.drop 256 else r.archive
    { r with archive := a ++ [sorted], unarchived := r.unarchived.filter fun q => !seqs.contains q, lastArchive := s.now }

/-- ARCHIVE_COPY: 64 records not yet archived as one block, or the remainder every 600 s. -/
def execArchiveCopy (s : State) : Out :=
  .next (
    let u := s.recd.unarchived
    if !awake s then s
    else if u.length ≥ 64 then archiveBlock s (u.take 64)
    else if !u.isEmpty && decide (s.now ≥ s.recd.lastArchive + 600000000) then archiveBlock s u
    else s)

/-- Copy what is left of the unarchived records, in blocks of 64. -/
def archiveRest (s : State) : Nat → State
  | 0 => s
  | n + 1 => if s.recd.unarchived.isEmpty then s else archiveRest (archiveBlock s (s.recd.unarchived.take 64)) n

/-- The remainder on entry into EMBER. -/
def recEmber (s : State) : State := archiveRest s (s.recd.unarchived.length / 64 + 1)

/-! ### Commands -/

/-- REC_RES. -/
def recRes (c : Code) (s : State) : State := modRec s fun r => { r with res := c }

/-- The right of REC_CMD by OP. -/
def recRight (w : Win) (op : Nat) : State → Bool := if op = 2 ∨ op = 3 then rightOne w rAudit else rightOne w rCfg

/-- A command accepted with RES reading BUSY: the request itself succeeded. -/
def acceptLong (right : State → Bool) (res : Code → State → State) (check : State → Code) (run : State → State) (s : State) :
    Code × State :=
  if right s then
    match check s with
    | .ok => (.ok, res .busy (run s))
    | c => (c, res c s)
  else (.refusedRights, res .refusedRights s)

/-- FLUSH. -/
def recFlushReq (w : Win) (s : State) : Code × State :=
  acceptLong (recRight w 1) recRes (fun _ => .ok) (fun s =>
    let s := modRec s fun r => { r with flushAgain := true }
    if s.recd.flushing.isNone then beginFlush s else s) s

/-- The code of AUD_ARCHIVE. -/
def audArchiveCode (s : State) : Code :=
  firstCode [when_ s.recd.audit.isEmpty .notPresent, when_ s.recd.archiving.isSome .busy,
    when_ (decide (s.recd.images.length ≥ 64)) .full]

/-- AUD_ARCHIVE: the copy of every record present begins. -/
def audArchiveReq (w : Win) (s : State) : Code × State :=
  acceptLong (recRight w 2) recRes audArchiveCode (fun s =>
    modRec s fun r => { r with archiving := r.audit.getLast?.map fun x => (w, x.seq) }) s

/-- AUD_ARCHIVE_COMPLETE: the image is sealed, its slots released, and AUDIT_ARCHIVED written. -/
def execAudArchiveComplete (s : State) : Out :=
  .next (
    match if awake s then s.recd.archiving else none with
    | none => s
    | some (w, last) =>
      let image := s.recd.audit.filter fun x => !seqLt last x.seq
      let first := match image with | x :: _ => x.seq | [] => last
      let no := s.recd.imageNo
      let s := modRec s fun r =>
        { r with images := r.images ++ [image], audit := r.audit.filter (fun x => seqLt last x.seq), archiving := none
                 imageNo := (no + 1) % 256, res := .ok }
      let s := modRec s fun r => { r with auditFull := r.auditFull && decide (auditFree r ≤ 64) }
      auditAuto s .auditArchived bREC
        (leB 4 first.toNat ++ leB 4 last.toNat ++ [BitVec.ofNat 8 no, BitVec.ofNat 8 w.val]))

/-- AUD_RELEASE: the oldest image goes once AUDIT_RELEASED is written. -/
def opAudRelease (w : Win) (s : State) : Code × State :=
  match s.recd.images with
  | [] => (.notPresent, s)
  | image :: rest =>
    if s.recd.archiving.isSome then (.busy, s)
    else
      let first := (image.head?.map (·.seq)).getD 0
      let last := (image.getLast?.map (·.seq)).getD 0
      match audit s .auditReleased bREC (leB 4 first.toNat ++ leB 4 last.toNat ++ [BitVec.ofNat 8 w.val]) with
      | none => (.full, noteAuditFull s)
      | some s => (.ok, modRec s fun r => { r with images := rest })

/-- CLR_CNT: REC_DROPs, REC_SDROP, REC_ARCHMISS. -/
def opRecClrCnt (s : State) : Code × State := okCmd (modRec s fun r => { r with drops := [], sdrop := 0, archMiss := 0 })

/-- REC_CMD FLUSH. -/
def execRecFlush (w : Win) (s : State) : Out := .next (hostCmd w 0x140000 (recFlushReq w) s)

/-- REC_CMD AUD_ARCHIVE. -/
def execAudArchive (w : Win) (s : State) : Out := .next (hostCmd w 0x140000 (audArchiveReq w) s)

/-- REC_CMD AUD_RELEASE. -/
def execAudRelease (w : Win) (s : State) : Out :=
  .next (hostCmd w 0x140000 (cmdReq (recRight w 3) recRes (opAudRelease w)) s)

/-- REC_CMD CLR_CNT. -/
def execRecClrCnt (w : Win) (s : State) : Out := .next (hostCmd w 0x140000 (cmdReq (recRight w 4) recRes opRecClrCnt) s)

/-! ### Readers and the live copy (R476, R478) -/

/-- The records of every tier, with the tier's number. -/
def tiers (r : RecS) : List (Nat × Rec) :=
  r.staging.map (fun x => (0, x)) ++ (storeRecs r).map (fun p => (1, p.2)) ++ r.audit.map (fun x => (2, x)) ++
    (r.archive.flatten ++ r.images.flatten).map fun x => (3, x)

/-- Distance of a SEQ from a cursor, none below it. -/
def seqAbove (cur q : Word) : Option Nat := let d := sgn 32 (q - cur).toNat; if d < 0 then none else some d.toNat

/-- The record with the lowest SEQ at or above a cursor, with its tier. -/
def fetchRec (cur : Word) : List (Nat × Rec) → Option (Nat × Rec)
  | [] => none
  | p :: t =>
    let rest := fetchRec cur t
    match seqAbove cur p.2.seq, rest with
    | none, o => o
    | some _, none => some p
    | some d, some q => if d ≤ (seqAbove cur q.2.seq).getD 0 then some p else some q

/-- Change a window's reader. -/
def modReader (s : State) (w : Nat) (f : Reader → Reader) : State := modWin s w fun x => { x with reader := f x.reader }

/-- A window's cursor. -/
def cursor (s : State) (w : Nat) : Word := wd (rdw s recRdcur w [])

/-- A write of REC_RDCUR starts a fetch. -/
def opCursor (w : Nat) (q : Word) (s : State) : Code × State :=
  okCmd (modReader (wr s recRdcur w [] q.toNat) w fun _ => { fetching := true })

/-- READER_CURSOR_WRITE. -/
def execReaderCursorWrite (w : Win) (seq : Word) (s : State) : Out :=
  .next (hostCmd w 0x140100 (cmdReq (rightOne w rRead) noRes (opCursor w seq)) s)

/-- READER_FETCH_COMPLETE: READY with the record, or WAIT until one is staged. -/
def execReaderFetchComplete (w : Win) (s : State) : Out :=
  .next (
    if !awake s || !(win s w).reader.fetching then s
    else
      let cur := cursor s w
      match fetchRec cur (tiers s.recd) with
      | none => modReader s w fun r => { r with wait := true }
      | some (tier, x) =>
        modReader s w fun r =>
          { ready := some x, tier := tier, skip := satAdd 0xFFFF r.skip ((seqAbove cur x.seq).getD 0) })

/-- The read of REC_RDDATA + 0x3C: the cursor goes behind the fetched record and the next fetch starts. -/
def advanceReader (s : State) (w : Nat) : State :=
  match (win s w).reader.ready with
  | some x => modReader (wr s recRdcur w [] (x.seq + 1).toNat) w fun r => { skip := r.skip, fetching := true }
  | none => s

/-- LIVE_COPY: the next record at the live cursor goes to ring 41 while the ring has room; a gap is marked. -/
def execLiveCopy (s : State) : Out :=
  .next (
    if !awake s || !bitN (rd s recCfg []) 31 || decide (ringFill (ring s 41) ≥ ringDepth s 41) then s
    else
      match fetchRec s.recd.liveCur (tiers s.recd) with
      | none => s
      | some (_, x) =>
        let buf := match partOf s .recRead with
          | some p => p.base + 64 * ((ring s 41).head.toNat % max 1 (p.len / 64))
          | none => 0
        let s := if (partOf s .recRead).isSome then engStore s .recorder 0 buf x.bytes else s
        let gap := decide (x.seq ≠ s.recd.liveCur)
        let s := (ringPut s 41 { type := 1, buf := buf, len := 64, flags := flag gap 5 }).2
        modRec s fun r => { r with liveCur := x.seq + 1 })

/-! ### Start and registers -/

/-- The recorder after cold start or Kindling (R470): without the CLEAN mark SEQ resumes at the retained value + 8192. -/
def recStart (s : State) (cold : Bool) : State :=
  let kept := s.recd.seqKept
  let jump := cold && !s.recd.clean
  let next := if jump then kept + 8192 else if cold then kept else s.recd.seqNext
  let s := modRec s fun r =>
    { r with seqNext := next, clean := false, staging := [], slot := 0, gapBefore := false, flushing := none
             flushAgain := false, flushCmd := false, lastFlush := s.now, lastFaultAt := none, res := .ok, archiving := none
             sdrop := 0, lostUnflushed := if cold then jump else r.lostUnflushed
             liveCur := if cold then next else r.liveCur, lastArchive := s.now }
  if jump then stage s .recLostUnflushed bREC sevWarning (leB 4 kept.toNat ++ leB 4 next.toNat) else s

/-- REC_STAT. -/
def recStat (s : State) : Nat :=
  let r := s.recd
  flag r.flushing.isSome 31 + flag r.auditFull 30 + flag r.archiving.isSome 29 + flag (decide (stagingFill r ≥ 6144)) 28 +
    flag r.lostUnflushed 27 + place (stagingFill r) 13 0

/-- REC_OLDEST; 0 with an empty store. -/
def recOldest (s : State) : Nat := match oldestRec ((storeRecs s.recd).map (·.2)) with | some x => x.seq.toNat | none => 0

/-- REC_SHIGH. -/
def recShigh (s : State) : Nat := ((storeRecs s.recd).filter fun p => decide (p.2.sev ≥ sevFault)).length

/-- REC_AUD. -/
def recAud (s : State) : Nat :=
  place s.recd.audit.length 31 16 + place s.recd.images.length 15 8 + place s.recd.auditLost 7 0

/-- REC_ARCH; 0 with an empty archive. -/
def recArch (s : State) : Nat := match oldestRec s.recd.archive.flatten with | some x => x.seq.toNat | none => 0

/-- REC_SBASE: the recorder ring's offset in the retained store. -/
def recSbase (s : State) : Nat :=
  match s.crd.content with | some c => place (c.retained.getD 2 (0, 0)).1 24 0 | none => 0

/-- REC_RDSTAT of a window. -/
def recRdstat (s : State) (w : Nat) : Nat :=
  let r := (win s w).reader
  flag r.ready.isSome 31 + flag r.wait 30 + place r.tier 29 28 + r.skip

/-- Word i of REC_RDDATA of a window. -/
def recRddata (s : State) (w i : Nat) : Nat :=
  match (win s w).reader.ready with
  | some x => getLe x.bytes (4 * i) 4
  | none => 0

end Sys2Proof.Machine
end

