-- ==== Sys2Proof/Machine/Par.lean ====
section
/-!
DEFINITION. Paired modules and the lease (chapter 19): the pair link, grants and claims over the link and through the
witness, giving up and losing the lease, the planned swap, and the safety cycle, at whose end a witness grant acts.
-/

namespace Sys2Proof.Machine

/-- BLOCK code of PAR. -/
def bPAR : Byte := 0x15

/-- Change the block. -/
def modPar (s : State) (f : Par → Par) : State := { s with par := f s.par }

/-- LD = 40 ms in ticks of 10 µs (R482). -/
def leaseLoad : Nat := 4000

/-! ### Loading and losing the lease -/

/-- A contactor output of the module is requested on. -/
def contactorWanted (s : State) : Bool := (List.range 16).any fun j => isContactor s j && (sout s j).req

/-- LEASE_VALID has cleared (R241, R289, R414, R482, R491). -/
def leaseGone (s : State) : State :=
  let wanted := contactorWanted s
  let s := modPar s fun x => { x with expPend := false, renewSeq := none }
  let s := parkAll (impPauseAll (canLeaseLost s) 5) 3
  if wanted then latchFault (modPar s fun x => { x with loss := inc16 x.loss }) 0x05 else s

/-- Clear the counter at once. -/
def leaseClear (s : State) : State :=
  if s.par.ctr = 0 then s else leaseGone (modPar s fun x => { x with ctr := 0 })

/-- A grant loads the counter: one that renews brings the boundary of group PAR, and the first of an acquisition counts,
ends the claim and starts the deferred steps (R482, R487, R491, R493). An expiry not yet acted on comes first. -/
def leaseGrant (s : State) (src : Nat) : State :=
  let s := if s.par.expPend then leaseGone s else s
  let taken := decide (s.par.ctr = 0)
  let s := modPar s fun x =>
    { x with ctr := leaseLoad, ctrAcc := 0, lastGrant := src, claimLink := false, claimWit := false, claimSeq := none }
  if taken then
    let s := modPar s fun x => { x with take := inc16 x.take, deferredAt := if x.untested = 0 then none else some s.now }
    (strs s).foldl convResume s
  else commitFree s 21 0

/-- LEASE_EXPIRY: the counter has reached 0. -/
def execLeaseExpiry (s : State) : Out := .next (if paired s && s.par.expPend && s.par.ctr == 0 then leaseGone s else s)

/-- 10 µs of the lease counter. -/
def leaseTick (s : State) : State :=
  if s.par.ctr = 0 then s
  else modPar s fun x => { x with ctr := x.ctr - 1, expPend := decide (x.ctr = 1) }

/-! ### Frames (R480, R481) -/

/-- The link is up while a frame has been accepted within the last 25 ms (R481). -/
def pairUp (s : State) : Bool :=
  s.par.linkUp && match s.par.lastRx with | some t => decide (s.now < t + 25000) | none => false

/-- Pair frames leave a paired module until it goes dark (R488). DEDUCED (assumption 62): none leaves in EMBER, where only the
Ember domain and the lanes run (R55). -/
def pairSends (s : State) : Bool :=
  paired s && s.emb.power != .dark && s.emb.mode != .ember && !s.kln.stopped.contains .pair

/-- Build and send a pair frame. -/
def pairSend (s : State) (type : Nat) (term : Word) (echo : Nat) : State :=
  if !pairSends s then s
  else
    let q := (s.par.seq + 1) % 65536
    let flags := flag (decide (s.par.ctr > 0)) 0 + flag (parReady s) 1 + flag s.par.strapB 2 +
      flag (s.par.claimLink || s.par.claimWit) 3
    let body := [BitVec.ofNat 8 type, BitVec.ofNat 8 flags] ++ leB 2 q ++ leB 4 term.toNat ++ leB 4 (rd s parId []) ++
      leB 2 echo ++ [BitVec.ofNat 8 s.emb.mode.num] ++ List.replicate 13 0
    send (modPar s fun x => { x with seq := q, lastTx := some s.now }) ifPair (body ++ leB 4 (crc32c body))

/-- STATUS with the module's own term. -/
def pairStatus (s : State) : State := pairSend s 5 s.par.term 0

/-- Give up the lease and say so (R488). -/
def parRelease (s : State) : State := if paired s ∧ s.par.ctr > 0 then pairSend (leaseClear s) 4 s.par.term 0 else s

/-- The preferred module (R487). -/
def parPreferred (s : State) : Bool := s.par.strapB == bitN (rd s parCfg []) 29

/-- A module may hold a claim over the link: up, READY, not the holder, no conflict, no swap of its own (R481, R487, R494). -/
def mayClaim (s : State) : Bool :=
  parRuns s && pairUp s && parReady s && s.par.ctr == 0 && !s.par.conflict && s.par.swapAt.isNone

/-- A claim over the link begins (R487). -/
def claimBegins (s : State) : Bool :=
  mayClaim s && s.par.pIdle && s.par.pPrevIdle &&
    (parPreferred s || match s.par.pNotReadySince with
      | some t => decide (s.now ≥ t + 1000000)
      | none => false)

/-- The partner shows HOLDS with the next term within SWAP_TMO (R494). -/
def swapDone (s : State) (holds : Bool) (term : Word) : Bool :=
  match s.par.swapAt with
  | some t => holds && term == s.par.swapTerm && decide (s.now ≤ t + 1000 * rdf s parTmo [] 15 0)
  | none => false

/-- An accepted frame as far as every TYPE goes: link, partner, witness claim, PAIR_DOUBLE, term, swap. DEDUCED (assumption
62): the events that R490 records are those in which the module clears its counter. -/
def pairAccept (s : State) (bs : List Byte) : State :=
  let f := byteAt bs 1
  let term := wd (getLe bs 4 4)
  let holds := bitN f 0
  let ready := bitN f 1
  let s := modPar s fun x =>
    { x with
      linkUp := true, lastRx := some s.now, rxSeq := some (getLe bs 2 2), pReady := ready, pHolds := holds
      pPrevIdle := x.pIdle, pIdle := !holds && !bitN f 3, claimWit := false
      pNotReadySince := if ready then none else some (x.pNotReadySince.getD s.now) }
  let s := if holds ∧ s.par.ctr > 0 ∧ s.par.term.toNat ≤ term.toNat then
      stage (leaseClear s) .pairDouble bPAR sevFault []
    else s
  let s := modPar s fun x => { x with term := if x.term.toNat < term.toNat then term else x.term }
  if swapDone s holds term then modPar s fun x => { x with swapAt := none, res := .ok } else s

/-- A RENEW is answered with a GRANT while the module's own LEASE_VALID is clear, else with a STATUS (R484). -/
def onRenew (s : State) (bs : List Byte) : State :=
  if s.par.ctr = 0 ∧ !s.par.conflict then pairSend s 2 (wd (getLe bs 4 4)) (getLe bs 2 2) else pairStatus s

/-- A CLAIM is granted by a module that does not hold and is either not claiming or not preferred (R487). -/
def onClaim (s : State) (bs : List Byte) : State :=
  let claiming := s.par.claimLink || s.par.claimWit
  if s.par.ctr = 0 ∧ !s.par.conflict ∧ (!claiming || !parPreferred s) then
    let s := if parPreferred s then s else modPar s fun x => { x with claimLink := false, claimSeq := none }
    pairSend s 2 (wd (getLe bs 4 4)) (getLe bs 2 2)
  else s

/-- A GRANT loads the counter when it echoes the last RENEW of the hold, or the claim that runs, in SEQ and TERM (R484, R486,
R487). -/
def onGrant (s : State) (bs : List Byte) : State :=
  let echo := getLe bs 12 2
  let term := wd (getLe bs 4 4)
  if s.par.ctr > 0 then
    if s.par.renewSeq = some (echo, term) then leaseGrant s 1 else s
  else if parRuns s ∧ s.par.claimLink ∧ s.par.claimSeq = some echo ∧ term = s.par.claimTerm then leaseGrant s 1
  else s

/-- PAIR_FRAME_RECEIVE: the receiver lies in the SAF domain, which runs in every mode (R39, R480). DEDUCED (assumption 62):
an equal STRAP counts whatever the frame's SEQ, which a module with that strap does not share. -/
def execPairFrameReceive (bytes : List Byte) (s : State) : Out :=
  .next (
    let q := getLe bytes 2 2
    let newer := match s.par.rxSeq with
      | none => true
      | some o => inR ((q + 65536 - o) % 65536) 1 32767
    if !paired s || s.emb.power == .dark then s
    else if bytes.length ≠ 32 ∨ getLe bytes 28 4 ≠ crc32c (bytes.take 28) then
      modPar s fun x => { x with crc := inc16 x.crc }
    else if getLe bytes 8 4 ≠ rd s parId [] then modPar s fun x => { x with foreign := inc16 x.foreign }
    else if bitN (byteAt bytes 1) 2 = s.par.strapB then
      if s.par.conflict then s
      else
        let s := modPar s fun x => { x with conflict := true, claimLink := false, claimSeq := none }
        stage s .pairConflict bPAR sevFault []
    else if !newer then s
    else
      let s := pairAccept s bytes
      match byteAt bytes 0 with
      | 1 => onRenew s bytes
      | 2 => onGrant s bytes
      | 3 => onClaim s bytes
      | _ => s)

/-- An instant at least 10 ms after the last of its kind. -/
def tenMs (s : State) (o : Option Nat) : Bool := match o with | some t => decide (s.now ≥ t + 10000) | none => true

/-- RENEW_SEND: every 10 ms while the module holds the lease. -/
def execRenewSend (s : State) : Out :=
  .next (
    if parRuns s && decide (s.par.ctr > 0) && tenMs s s.par.renewAt then
      let s := pairSend s 1 s.par.term 0
      modPar s fun x => { x with renewSeq := some (x.seq, x.term), renewAt := some s.now }
    else s)

/-- CLAIM_SEND: every 10 ms while a claim over the link runs; its term is the adopted one plus 1 (R486, R487). -/
def execClaimSend (s : State) : Out :=
  .next (
    if (if s.par.claimLink then mayClaim s && !s.par.pHolds else claimBegins s) then
      if tenMs s s.par.claimAt then
        let s := modPar s fun x => { x with claimLink := true, claimTerm := x.term + 1 }
        let s := pairSend s 3 s.par.claimTerm 0
        modPar s fun x => { x with claimSeq := some x.seq, claimAt := some s.now }
      else s
    else modPar s fun x => { x with claimLink := false, claimSeq := none })

/-- PAIR_STATUS_SEND: at least one frame leaves every 10 ms. -/
def execPairStatusSend (s : State) : Out := .next (if pairSends s && tenMs s s.par.lastTx then pairStatus s else s)

/-- PAIR_LINK_DOWN: 25 ms without an accepted frame end a claim over the link (R481, R487). -/
def execPairLinkDown (s : State) : Out :=
  .next (
    match s.par.lastRx with
    | some t =>
      if s.par.linkUp && decide (s.now ≥ t + 25000) then
        modPar s fun x => { x with linkUp := false, claimLink := false, claimSeq := none }
      else s
    | none => s)

/-! ### The witness (R485, R489) -/

/-- WSC_C. -/
def witConn (s : State) : Nat := rdf s parCfg [] 19 16

/-- WSC_C is RUNNING. -/
def witRunning (s : State) : Bool := witEn s && (sconn s (witConn s)).state == 3

/-- WITNESS_CLAIM: LD + 20 ms of silence on the link make a READY module claim through the witness. -/
def execWitnessClaim (s : State) : Out :=
  .next (
    if parRuns s && witRunning s && parReady s && s.par.ctr == 0 && !s.par.claimWit && s.par.swapAt.isNone &&
        decide (s.now ≥ s.par.lastRx.getD s.par.safStart + 60000) then
      modPar s fun x => { x with claimWit := true }
    else s)

/-- A WSC_C frame applied in this cycle: its term is adopted, and a grant of the term held, or of the adopted term plus 1
while a claim through the witness runs, loads the counter (R485, R486, R489). -/
def witApply (s : State) : State :=
  let d := (sconn s (witConn s)).data
  let grant := bitN (byteAt d 0) 0
  let term := wd (getLe d 1 4)
  let held := s.par.ctr > 0 ∧ term = s.par.term
  let claimed := s.par.ctr = 0 ∧ s.par.claimWit ∧ term = s.par.term + 1
  let s := modPar s fun x => { x with term := if x.term.toNat < term.toNat then term else x.term }
  if grant ∧ (held ∨ claimed) ∧ parRuns s then leaseGrant s 2 else s

/-- SAFETY_CYCLE: the lanes' cycle (R321), at whose end an applied witness frame acts, and PAR_HELD. -/
def execSafetyCycle (i : LaneInputs) (s : State) : Out :=
  .next (
    let fresh := witRunning s && (sconn s (witConn s)).arrived.isSome
    let s := safCycle i s
    let s := if fresh && (sconn s (witConn s)).arrived.isNone then witApply s else s
    if paired s && decide (s.par.ctr > 0) && (List.range 16).any (soOn s) then
      modPar s fun x => { x with heldOph := s.emb.oph }
    else s)

/-! ### Deferred steps and the planned swap (R493, R494) -/

/-- Lane i, still in the vote, passes the return-switch step of group g; bit 3g + i of `failed` says that it fails. -/
def stepPasses (s : State) (failed : BitVec 12) (g i : Nat) : Bool := (lane s i).state == 1 && !bitN failed.toNat (3 * g + i)

/-- The groups whose step at least two lanes pass. -/
def stepsPassed (s : State) (failed : BitVec 12) : BitVec 4 :=
  BitVec.ofNat 4 (((List.range 4).map fun g =>
    if decide (((List.range 3).filter (stepPasses s failed g)).length ≥ 2) then 2 ^ g else 0).foldl (· + ·) 0)

/-- A lane in the vote that fails the deferred step of some group (R324). -/
def stepLoser (s : State) (failed : BitVec 12) (i : Nat) : Bool :=
  (lane s i).state == 1 && (List.range 4).any fun g => bitN s.par.untested.toNat g && bitN failed.toNat (3 * g + i)

/-- DEFERRED_SELF_TEST: after the first acquisition the lanes run the deferred return-switch steps; a lane that fails one is
excluded, and with fewer than two lanes LANE_FAULT demands (R324, R493). DEDUCED (assumption 62): a group's step has passed
when at least two lanes pass it, and the outputs of any other group stay off. -/
def execDeferredSelfTest (failed : BitVec 12) (s : State) : Out :=
  .next (
    if s.par.deferredAt.isSome && decide (s.par.ctr > 0) then
      let left := s.par.untested &&& ~~~ stepsPassed s failed
      let losers := (List.range 3).filter (stepLoser s failed)
      let s := modPar s fun x => { x with untested := left, deferredAt := none }
      losers.foldl (fun s i => excludeLane s i 3) s
    else s)

/-- PAR_RES. -/
def parRes (c : Code) (s : State) : State := modPar s fun x => { x with res := c }

/-- The right of PAR_CMD. -/
def parRight (w : Win) : State → Bool := rightOne w rMaint

/-- The code of SWAP. -/
def swapCode (s : State) : Code :=
  firstCode [when_ (!pairUp s || !s.par.pReady) .notPresent,
    when_ (!paired s || s.par.ctr == 0 || !(s.emb.mode == .standby || s.emb.mode == .maintenance) || !allOpen s) .refusedMode,
    when_ s.par.swapAt.isSome .busy]

/-- SWAP: release, then wait for the partner's frames to show HOLDS with the next term. -/
def swapReq (w : Win) (s : State) : Code × State :=
  acceptLong (parRight w) parRes swapCode (fun s =>
    let s := modPar s fun x => { x with swapAt := some s.now, swapTerm := x.term + 1 }
    parRelease s) s

/-- SWAP_TIMEOUT: SWAP_TMO has passed. -/
def execSwapTimeout (s : State) : Out :=
  .next (
    match s.par.swapAt with
    | some t =>
      if s.now > t + 1000 * rdf s parTmo [] 15 0 then modPar s fun x => { x with swapAt := none, res := .expired } else s
    | none => s)

/-- CLR_CNT: PAR_ERR. -/
def opParClrCnt (s : State) : Code × State := okCmd (modPar s fun x => { x with crc := 0, foreign := 0 })

/-- PAR_CMD SWAP. -/
def execParSwap (w : Win) (s : State) : Out := .next (hostCmd w 0x150000 (swapReq w) s)

/-- PAR_CMD CLR_CNT. -/
def execParClrCnt (w : Win) (s : State) : Out := .next (hostCmd w 0x150000 (cmdReq (parRight w) parRes opParClrCnt) s)

/-! ### Start and registers -/

/-- The block at a start: TERM, PAR_CNT and PAR_HELD are retained, and every other register takes its reset value. DEDUCED
(assumption 62): SEQ goes on, and at Kindling, over which the SAF domain runs on, so do the time and the SEQ of the last
accepted frame. The restart on leaving CONFIGURE finds no lease and no claim, and the link goes on. -/
def parStart (s : State) (b : EngineBegin) : State :=
  let kept (x : Par) : Par :=
    { strapB := x.strapB, term := x.term, seq := x.seq, take := x.take, loss := x.loss, heldOph := x.heldOph }
  match b with
  | .cold => modPar s fun x => { kept x with safStart := s.now }
  | .kindling => modPar s fun x => { kept x with safStart := x.safStart, lastRx := x.lastRx, rxSeq := x.rxSeq }
  | .restart => s

/-- PAR_STAT. -/
def parStat (s : State) : Nat :=
  let x := s.par
  flag (leaseValid s) 31 + flag (paired s) 30 + flag (pairUp s) 29 + flag (witRunning s) 28 + flag x.pReady 27 +
    flag x.pHolds 26 + flag (x.claimLink || x.claimWit) 25 + flag (decide (x.untested ≠ 0)) 24 + flag x.conflict 23 +
    flag x.strapB 22 + place x.lastGrant 21 20 + x.ctr

/-- PAR_SILENT. -/
def parSilent (s : State) : Nat := min 0xFFFF ((s.now - s.par.lastRx.getD s.par.safStart) / 1000)

end Sys2Proof.Machine
end

