-- ==== Sys2Proof/Machine/Cord.lean ====
section
/-!
DEFINITION. The Cord loader (chapter 3): the image layout (R78 to R81), the four stages of a verification (R83 to R85),
the slots and the loader commands (R84, R87, R88, R89, R91).
-/

namespace Sys2Proof.Machine

/-! ### Register values that a Cord sets -/

/-- Give a register's writable bits a value at a start. -/
def regLoad (t : Tab Word) (a v : Nat) : Tab Word :=
  match famAt a with
  | some (f, ix) => if f.perWin then t else tset (wd (f.reset ix)) t a (wd (v.land f.rw))
  | none => t

/-- Reset values that differ by variant: TRC_J5CFG.TOL is 150 on -4M. -/
def variantRegs (s : State) : Tab Word :=
  if s.variant = .m4 then regLoad [] trcJ5cfg.base (place 60 25 16 + 150) else []

/-- POLICY and PROD of HST_RCFGr for a ring whose use the Memory billet sets (R54). -/
def useLoad (t : Tab Word) (p : Nat × RingUse) : Tab Word :=
  if p.1 < 52 ∨ p.1 ≥ 64 then t
  else
    let a := hstRcfg.addr [p.1]
    regLoad t a (putBits (tget (wd (hstRcfg.reset [p.1])) t a).toNat (mask 29 27) (place p.2.policy 29 28 + flag p.2.host 27))

/-- The values that a Cord's content sets, over those of the variant. -/
def contentRegs (s : State) (c : CordContent) : Tab Word :=
  c.ringUse.foldl useLoad (c.regs.foldl (fun t p => regLoad t p.1 p.2.toNat) (variantRegs s))

/-! ### Image layout -/

/-- CORD_SEQ of the image in a slot, 0 for an empty slot. -/
def Slot.seq (l : Slot) : Nat := if l.bytes.isEmpty then 0 else getLe l.bytes 12 4

/-- A billet as its header gives it (*Table: Billet header*); `ok` of its own fields, padding and CRC. -/
structure Billet where
  type : Nat
  flags : Nat
  index : Nat
  len : Nat
  target : Nat
  fmt : Nat
  reserved : Bool
  padOk : Bool
  crcOk : Bool
  trailerOk : Bool
  keySlot : Nat
  /-- the whole billet: header, padded payload and CRC -/
  bytes : List Byte
  deriving DecidableEq, Repr

/-- The billet at the front of a byte sequence of known length. -/
def readBillet (bs : List Byte) : Billet :=
  let len := getLe bs 4 4
  let body := bs.take (16 + padded len)
  let trailer := (bs.drop (16 + len - 104)).take 104
  { type := byteAt bs 0, flags := byteAt bs 1, index := getLe bs 2 2, len := len, target := getLe bs 8 2
    fmt := getLe bs 10 2
    reserved := ((bs.drop 12).take 4).all (· == 0)
    padOk := (body.drop (16 + len)).all (· == 0)
    crcOk := crc32c body == getLe bs (16 + padded len) 4
    trailerOk := decide (len ≥ 104) && trailerForm trailer
    keySlot := byteAt trailer 2
    bytes := bs.take (20 + padded len) }

/-- The billets between the header and the trailer, at most n of them: those whose LEN stays inside, and the number of
bytes left behind the last. -/
def readBillets : Nat → List Byte → List Billet × Nat
  | 0, bs => ([], bs.length)
  | n + 1, bs =>
    if bs.isEmpty then ([], 0)
    else
      let size := 20 + padded (getLe bs 4 4)
      if bs.length < 16 ∨ bs.length < size then ([], bs.length)
      else
        let (l, r) := readBillets n (bs.drop size)
        (readBillet bs :: l, r)

/-- How often a billet type appears and how many targets it has, 0 for the whole block (*Table: Billet types*). -/
def billetCount (ty : Nat) : Option (Nat × Nat × Nat) :=
  match ty with
  | 1 | 2 | 3 | 5 | 9 | 10 => some (1, 1, 0)
  | 4 => some (0, 16, 16)
  | 6 => some (0, 4, 4)
  | 7 => some (0, 64, 64)
  | 8 => some (0, 256, 256)
  | _ => none

/-- A key slot is programmed and not revoked (R502). -/
def keyActive (s : State) (k : Nat) : Bool := decide (k < 4) && tget 0 s.crd.keys k == 1

/-- The key in an OTP slot: the factory's in slot 0, else the one that KEY_PROG burnt (R502). -/
def slotKey (s : State) (k : Nat) : Option (Nat × Nat) :=
  match tget [] s.crd.keyData k with
  | [] => if k = 0 then some Config.factoryKey else none
  | bs => ecKey bs

/-- A trailer is well formed, names an ACTIVE slot and holds a valid signature over the bytes before it (R81). -/
def signedBy (s : State) (msg trailer : List Byte) : Bool :=
  trailerForm trailer && keyActive s (byteAt trailer 2) && sigValid (slotKey s (byteAt trailer 2)) msg trailer

/-- The Safety billet's own signature: over its header and its payload up to the trailer (R81). -/
def safetySigned (s : State) (b : Billet) : Bool :=
  decide (b.len ≥ 104) && signedBy s (b.bytes.take (16 + b.len - 104)) ((b.bytes.drop (16 + b.len - 104)).take 104)

/-- The sections of a Logic code payload as spans: the task header, the code, the variable map, the constant pool and the
I/O usage list (*Table: Logic task header*). -/
def taskSections (p : List Byte) : List (Nat × Nat) := (0, 64) :: [20, 28, 36, 44].map fun o => (getLe p o 4, getLe p (o + 4) 4)

/-- True when two spans of a list overlap. -/
def overlap : List (Nat × Nat) → Bool
  | [] => false
  | (b, l) :: t => t.any (fun p => decide (b < p.1 + p.2) && decide (p.1 < b + l)) || overlap t

/-- A Logic code payload (R359): its sections are aligned, lie inside LEN and do not overlap, and the I/O usage list holds
image addresses alone. DEDUCED (assumption 54): an offset counts from the start of the payload, and an empty section overlaps nothing. -/
def logicOk (b : Billet) : Bool :=
  let p := (b.bytes.drop 16).take b.len
  let l := (taskSections p).filter fun x => x.2 != 0
  decide (64 ≤ b.len) && !overlap l && l.all (fun x => x.1 % 4 == 0 && decide (x.1 + x.2 ≤ b.len)) &&
    (List.range (getLe p 48 4 / 4)).all fun i => imgAddrOk (getLe p (getLe p 44 4 + 4 * i) 4)

/-- A billet's own checks of stage 3: FMT known for its TYPE, CRC, INDEX, FLAGS, reserved bytes, padding, TARGET, the order
after the one before it, the Safety billet's own signature, and the sections of a Logic code billet. -/
def billetOk (s : State) (i : Nat) (prev : Option Billet) (b : Billet) : Bool :=
  let targetOk : Bool := match billetCount b.type with
    | some (_, _, 0) => b.target == 0xFFFF
    | some (_, _, n) => decide (b.target < n)
    | none => false
  let order : Bool := match prev with
    | some p => decide (p.type < b.type) || (p.type == b.type && decide (p.target < b.target))
    | none => true
  b.crcOk && b.index == i && b.reserved && b.padOk && targetOk && order && b.flags == (if b.type = 5 then 1 else 0) &&
    s.crd.fmts.contains (b.type, b.fmt) && (b.type != 5 || safetySigned s b) && (b.type != 4 || logicOk b)

/-- The positions of billets that fail their own checks. -/
def badBillets (s : State) : Nat → Option Billet → List Billet → List Nat
  | _, _, [] => []
  | i, p, b :: t => (if billetOk s i p b then [] else [i]) ++ badBillets s (i + 1) (some b) t

/-! ### The four stages (R83) -/

/-- A code that applies, with the billet it concerns. -/
abbrev Found := Code × Option Nat

/-- Stage 1. An image shorter than a header holds no TOTAL_LEN and no VARIANTS to check. -/
def stage1 (s : State) (img : List Byte) : List Found :=
  if img.length < 64 then [(.checkFail, none)]
  else
    let n := getLe img 6 2
    let total := getLe img 8 4
    let v := byteAt img 16
    let form := getLe img 0 4 == 0x44524F43 && getLe img 4 2 == 1 && crc32c (img.take 60) == getLe img 60 4 &&
      inR n 6 346 && decide (v < 8) && ((img.drop 17).take 43).all (· == 0)
    let len := total % 4 == 0 && decide (total ≤ 0x2000000) && total == img.length
    (if form then [] else [(.checkFail, none)]) ++ (if len then [] else [(.range, none)]) ++
      (if bitN v (variantCode s.variant - 1) then [] else [(.notPresent, none)])

/-- Stage 2: the Cord's signature over bytes 0 to TOTAL_LEN − 105 (R81). -/
def stage2 (s : State) (img : List Byte) : List Found :=
  let n := img.length - 104
  if decide (img.length ≥ 168) && signedBy s (img.take n) (img.drop n) then [] else [(.checkFail, none)]

/-- The billets of an image. -/
def billetsOf (img : List Byte) : List Billet × Nat :=
  readBillets (getLe img 6 2) ((img.take (img.length - 104)).drop 64)

/-- Stage 3. -/
def stage3 (s : State) (img : List Byte) : List Found :=
  let (bs, rest) := billetsOf img
  let n := getLe img 6 2
  let counts := (List.range 11).all fun ty =>
    match billetCount ty with
    | some (lo, hi, _) => inR (bs.filter fun b => b.type == ty).length lo hi
    | none => true
  let short : List Found := if bs.length < n ∧ rest > 0 then [(.checkFail, some bs.length)] else []
  let whole : List Found := if bs.length = n ∧ rest = 0 ∧ counts then [] else [(.checkFail, none)]
  (badBillets s 0 none bs).map (fun i => (.checkFail, some i)) ++ short ++ whole

/-- Size of a billet in the Kiln configuration memory, 0 for a billet that goes elsewhere (R80). -/
def kilnSize (b : Billet) : Nat :=
  if b.type = 1 ∨ b.type = 2 ∨ b.type = 3 ∨ b.type = 7 ∨ b.type = 9 ∨ b.type = 10 then 20 + padded b.len else 0

/-- The Kiln configuration memory that an image's billets occupy, in bytes. -/
def kilnBytes (img : List Byte) : Nat := ((billetsOf img).1.map kilnSize).foldl (· + ·) 0

/-- INDEX of the first billet of a type. -/
def billetIndex (bs : List Billet) (ty : Nat) : Option Nat := bs.findIdx? fun b => b.type == ty

/-- Maxima of the retained store partitions (*Table: Retained store partitions*), in the order of KLN_RSOFFp. -/
def retainedMax : List Nat := [14 * 0x100000, 6 * 0x100000, 4 * 0x100000, 0x100000, 0x40000]

/-- Granules and maxima of the retained partitions (R43). -/
def retainedOk (l : List (Nat × Nat)) : Bool :=
  decide (l.length = 6) && l.all (fun p => p.1 % 0x1000 == 0 && p.2 % 0x1000 == 0 && decide (p.1 + p.2 ≤ 0x2000000)) &&
    (List.zip l retainedMax).all (fun p => decide (p.1.2 ≤ p.2)) && decide ((l.getD 5 (0, 0)).2 ≥ 6912 * 1024)

/-- The default dispatch owner is a bound window with the dispatch right (R456, R537). -/
def ownerOk (c : CordContent) : Bool :=
  match c.windows[c.owner.val]? with
  | some b => b.transport != .none && bitN b.rights.toNat 2
  | none => false

/-- The codes of the register values that a Cord sets, each against the range and the relations of its register (R9,
R52, R101), with the INDEX of the billet that carries it (R85). `t` is the state that the values would leave. -/
def regsFound (t : State) (c : CordContent) : List Found :=
  c.regs.zipIdx.filterMap fun p => match famAt p.1.1 with
    | some (f, ix) =>
      let v := p.1.2.toNat.land f.rw
      let code := if f.base = hrpPer.base then rng (inR v 80000 8000000) else f.check t ix v
      if code = .ok then none else some (code, c.regBillet[p.2]?)
    | none => none

/-- An instance that the Structure billet enables; a bare module and the fabric's own parts need no enable. -/
def enabled (c : CordContent) (x : Nat × Nat) : Bool := !c.disabled.contains x

/-- The instances of which a variant fits fewer than four strings' worth (R5). -/
def stringParts : List (Nat × Nat) :=
  (List.range 4).flatMap (fun k => [(4, k), (8, k), (9, k), (10, k)]) ++ (List.range 8).map (fun j => (7, j)) ++
    (List.range 24).map (fun n => (6, n)) ++ (List.range 16).map (fun j => (11, j))

/-- R6: the Structure billet enables an instance that the variant does not fit. -/
def overFitted (s : State) (c : CordContent) : Bool :=
  stringParts.any fun x => !fits s.variant x.1 x.2 && enabled c x

/-- The instance that a producer names. -/
def prodPart : Producer → Option (Nat × Nat)
  | .channel n => some (6, n.val)
  | .current k | .cooling k | .heating k => some (4, k.val)
  | .context n => some (32, n.val)
  | .logicXq _ | .other _ => none

/-- The instance that a consumer names. -/
def consPart : Consumer → Option (Nat × Nat)
  | .loopInput n _ => some (32, n.val)
  | .estimator k => some (8, k.val)
  | .capture n => some (34, n.val)
  | .window _ | .logicXi _ | .ring _ | .other _ => none

/-- The instance that an event source names. -/
def srcPart : EvSource → Option (Nat × Nat)
  | .canState n | .hpb n _ => some (16, n.val)
  | .isoAlarm | .fioFault | .sched _ | .user _ | .lane _ | .other _ => none

/-- The instance that an event sink names. -/
def sinkPart : EvSink → Option (Nat × Nat)
  | .task t => some (14, t.val)
  | .capture n => some (34, n.val)
  | .health | .other _ => none

/-- The instance whose engine produces a ring. -/
def usePart (u : RingUse) : Option (Nat × Nat) :=
  if u.host then none
  else match u.engine with
    | .chain => some (4, u.inst)
    | .impedance => some (9, u.inst)
    | .estimator => some (8, u.inst)
    | .can => some (16, u.inst)
    | .logic => some (14, u.inst)
    | _ => none

/-- A route or an event that names an instance which is not enabled, or more of them than the fabric has: 256 routes of
at most 4 consumers (R33), 512 sources, 256 sinks and 4 sources a sink (R28). DESIGN CHOICE (assumption 22): CHECK_FAIL
for the fabric's sizes, for which the manual names no code. -/
def fabricBad (s : State) (c : CordContent) : Bool :=
  let on (x : Option (Nat × Nat)) : Bool := match x with | some y => fits s.variant y.1 y.2 && enabled c y | none => true
  let sinks := (c.events.map (·.2)).eraseDups
  c.routes.any (fun r => !on (prodPart r.producer) || r.consumers.any (fun x => !on (consPart x)) || decide (r.consumers.length > 4)) ||
    c.events.any (fun e => !on (srcPart e.1) || !on (sinkPart e.2)) || decide (c.routes.length > 256) || decide (sinks.length > 256) ||
    decide ((c.events.map (·.1)).eraseDups.length > 512) ||
    sinks.any fun k => decide ((c.events.filter fun e => e.2 == k).length > 4)

/-- A ring use that the module refuses: another use for one of rings 0 to 51 (R54), BLOCK for a module-produced ring of the
control plane or with a deadline (R52, R53), or the ring of an instance that is not enabled. -/
def useBad (s : State) (c : CordContent) (p : Nat × RingUse) : Bool :=
  if p.1 < 52 then p.2 != ringTable p.1
  else decide (p.1 ≥ 64) || (p.2.policy == 0 && !p.2.host && (p.2.plane == .control || p.2.deadline)) ||
    decide (p.2.policy > 2) ||
    match usePart p.2 with | some x => !(fits s.variant x.1 x.2 && enabled c x) | none => false

/-- No reaction is narrower than the function's default; SUM_LOST may be REPORT where no loop is supervised (R329). DESIGN CHOICE
(assumption 75): a narrower one fails stage 4 with RANGE. -/
def classesOk (b : SafetyBillet) : Bool :=
  (List.range b.funcs.length).all fun i =>
    let c := ((b.funcs[i]?).map (·.cls)).getD 3
    decide (defaultClass (i + 1) ≤ c) && decide (c ≤ 3) ||
      (i == 3 && c == 0 && b.loops.all fun l => l.snum == 0)

/-- The ranges of *Table: Safety parameters* (R326). -/
def safetyOk (b : SafetyBillet) : Bool :=
  decide (640 ≤ b.otTrip) && decide (b.otTrip ≤ 1360) && inR b.sumTmo 50 5000 && decide (50000 ≤ b.ocTrip) &&
    decide (b.ocTrip ≤ 780000) && inR b.ocN 1 40 && inR b.tpW 100 300 && inR b.tPre 100 30000 && inR b.kClose 10 500 &&
    decide (5000 ≤ b.vWeld) && decide (b.vWeld ≤ 500000) && inR b.tOpen 20 1000 && inR b.laneDegMaxH 1 720 &&
    classesOk b && b.inputs.all (fun x => inR x.tDisc 5 5000) && b.outputs.all (fun x => inR x.tpPer 1 60) &&
    b.conns.all fun x => x.dir == 0 || (x.dir == 1 && inR x.wd 5 2000) || (x.dir == 2 && inR x.pPer 1 1000)

/-- The parameters of a task (R355, R356); TWD 0 stands for its default (DESIGN CHOICE, assumption 30). -/
def taskOk (x : TaskImage) : Bool :=
  (x.cycle == 0 || inR x.cycle 250 10000000) && (x.twd == 0 || twdOk x.cycle x.twd) && (x.offset == 0 || decide (x.offset < x.cycle))

/-- At most one error task, and it is an event task (R379). -/
def errorTasksOk (c : CordContent) : Bool :=
  let l := c.tasks.filter fun p => p.2.errorTask
  decide (l.length ≤ 1) && l.all fun p => p.2.cycle == 0

/-- The ranges of an Estimator billet (R221). -/
def estOk (e : EstBillet) : Bool := inR e.soc0 0 65536 && inR e.cDef 3600000 4284000000

/-- The periods DIV × PER of the enabled contexts (R265). -/
def contextPeriods (t : State) : List Nat := ctxPeriods t fun j => rdf t hrpPer [j] 22 0

/-- Every channel that has a master names a PRIMARY one (R273). -/
def mastersOk (t : State) : Bool :=
  (List.range 16).all fun j =>
    rdf t hrpCfg [j] 29 28 == 0 || rdf t hrpCfg [rdf t hrpCfg [j] 19 16] 29 28 == 0

/-- PHS is below PER in every channel (R274). -/
def phasesOk (t : State) : Bool :=
  (List.range 16).all fun j => decide (rdf t hrpPhs [j] 22 0 < rdf t hrpPer [j] 22 0)

/-- The witness connections of a paired module that uses a witness: direction and length (R485). -/
def witnessOk (t : State) (c : CordContent) : Bool :=
  let conn (n dir : Nat) : Bool := match c.safety.conns[n]? with | some x => x.dir == dir && decide (x.dlen ≥ 5) | none => false
  !bitN (rd t parCfg []) 31 || !bitN (rd t parCfg []) 30 ||
    (conn (rdf t parCfg [] 19 16) 1 && conn (rdf t parCfg [] 11 8) 2)

/-- The tasks' data areas with 512 KB beside them fit the logic retained data partition (R369). -/
def retainedFits (c : CordContent) : Bool :=
  decide ((c.tasks.map fun p => p.2.dataLen).foldl (· + ·) 0 + 512 * 1024 ≤ (c.retained.getD 1 (0, 0)).2)

/-- A code of one billet unless a condition holds. -/
def unlessOk (ok : Bool) (c : Code) (i : Option Nat) : List Found := if ok then [] else [(c, i)]

/-- INDEX of the billet of a type for a target. -/
def targetIndex (bs : List Billet) (ty n : Nat) : Option Nat := bs.findIdx? fun b => b.type == ty && b.target == n

/-- INDEX of the billet that sets a register. -/
def carrier (c : CordContent) (a : Nat) : Option Nat :=
  match c.regs.findIdx? fun p => p.1 == a with | some i => c.regBillet[i]? | none => none

/-- Stage 4 (R83): the fitted instances, the parameter ranges and the retained store, the memory limits, the ring uses,
partitions, routes and events that the content names, and the codes that parts of it give which these terms do not hold
(R537). -/
def stage4 (s : State) (f : VerifyFacts) (c : CordContent) (img : List Byte) : List Found :=
  let bs := (billetsOf img).1
  let t := { s with regs := contentRegs s c, shadow := [], frozen := [], crd := { s.crd with content := some c } }
  let rings := ((List.range 64).map fun r => 32 * ringDepth t r).foldl (· + ·) 0
  let parts := !overlap (c.parts.map fun p => (p.base, p.len)) && !overlap c.retained && decide (c.parts.length ≤ 32) &&
    c.parts.all fun p => p.base % 0x1000 == 0 && p.len % 0x1000 == 0 && decide (p.base + p.len ≤ sramSize)
  let shut := decide ((rdf t thmLvl2 [] 15 0 : Int) < c.safety.otTrip)
  unlessOk (!overFitted s c) .notPresent (billetIndex bs 1) ++
  c.est.flatMap (fun e => unlessOk (fits s.variant 4 e.str.val) .notPresent (targetIndex bs 6 e.str.val) ++
    unlessOk (estOk e) .range (targetIndex bs 6 e.str.val)) ++
  regsFound t c ++
  unlessOk (retainedOk c.retained) .range (billetIndex bs 3) ++
  unlessOk (safetyOk c.safety) .range (billetIndex bs 5) ++
  unlessOk ((contextPeriods t).all fun d => decide (d ≥ 80000)) .range none ++
  unlessOk (phasesOk t) .range none ++
  unlessOk shut .range (carrier c thmLvl2.base) ++ unlessOk shut .range (billetIndex bs 5) ++
  c.tasks.flatMap (fun p => unlessOk (taskOk p.2) .range (targetIndex bs 4 p.1)) ++
  unlessOk (decide (kilnBytes img ≤ 3968 * 1024)) .full none ++
  unlessOk (bs.all fun b => b.type != 5 || decide (b.len ≤ 256 * 1024)) .full (billetIndex bs 5) ++
  unlessOk (decide (rings ≤ 0x400000)) .full (billetIndex bs 3) ++
  unlessOk (decide (((contextPeriods t).map fun d => 8000000000 / max 1 d).foldl (· + ·) 0 ≤ 6250000)) .full none ++
  unlessOk (retainedFits c) .full (billetIndex bs 3) ++
  unlessOk parts .checkFail (billetIndex bs 3) ++
  unlessOk (!c.ringUse.any (useBad s c)) .checkFail (billetIndex bs 3) ++
  unlessOk (!fabricBad s c) .checkFail (billetIndex bs 2) ++
  unlessOk (mastersOk t) .checkFail none ++
  unlessOk (witnessOk t c) .checkFail (billetIndex bs 5) ++
  unlessOk (errorTasksOk c) .checkFail (billetIndex bs 4) ++
  unlessOk (ownerOk c) .checkFail (billetIndex bs 9) ++
  f.content.filterMap fun p =>
    match p.1 with
    | 4 => some (.range, p.2)
    | 7 => some (.checkFail, p.2)
    | 8 => some (.notPresent, p.2)
    | 10 => some (.full, p.2)
    | _ => none

/-- The stage that fails and the codes that applied in it; stage 0 with none when the Cord passes. -/
def cordCheck (s : State) (f : VerifyFacts) (c : CordContent) (img : List Byte) : Nat × List Found :=
  let l1 := stage1 s img
  if !l1.isEmpty then (1, l1)
  else
    let l2 := stage2 s img
    if !l2.isEmpty then (2, l2)
    else
      let l3 := stage3 s img
      if !l3.isEmpty then (3, l3)
      else
        let l4 := stage4 s f c img
        if !l4.isEmpty then (4, l4) else (0, [])

/-- The codes in the order of R14. -/
def codeOrder : List Code :=
  [.refusedRights, .notPresent, .refusedMode, .frozen, .range, .checkFail, .busy, .full, .expired]

/-- The code reported of several (R14). -/
def reported (l : List Found) : Code := (codeOrder.find? fun c => l.any fun p => p.1 == c).getD .ok

/-- The lowest INDEX to which the reported code applies, or 0xFFFF (R85). -/
def reportedBillet (l : List Found) : Nat :=
  let c := reported l
  l.foldl (fun m p => if p.1 = c then min m (p.2.getD 0xFFFF) else m) 0xFFFF

/-- CRD_RESULT and CRD_CODES after a command without a verification. -/
def crdPlain (c : Code) (s : State) : State :=
  { s with crd := { s.crd with res := c, resBusy := false, stage := 0, billet := 0xFFFF, codes := 0 } }

/-- CRD_RESULT and CRD_CODES after a verification (R85). -/
def crdReport (s : State) (r : Nat × List Found) : State :=
  { s with crd := { s.crd with res := reported r.2, resBusy := false, stage := r.1, billet := reportedBillet r.2
                               codes := wd (bitsOf 11 fun i => r.2.any fun p => p.1.num == i) } }

/-! ### Views -/

/-- CRD_STATUS. -/
def crdStatus (s : State) : Nat :=
  flag s.crd.verifying.isSome 7 + flag s.crd.xferOpen 6 + flag s.crd.relayBusy 5 + flag s.crd.diverged 4 +
    flag s.crd.runBad 3 + flag s.crd.incValid 2 + flag (!s.crd.previous.bytes.isEmpty) 1 + flag (hasCord s) 0

/-- CRD_RESULT; RES reads BUSY until the command completes. -/
def crdResult (s : State) : Nat :=
  place (if s.crd.resBusy then 1 else s.crd.res.num) 31 24 + place s.crd.stage 19 16 + place s.crd.billet 15 0

/-- CRD_INC_ID. -/
def crdIncId (s : State) : Nat := if s.crd.incValid then s.crd.incoming.seq else 0

/-- INDEX in the running Cord of entry i of the Kiln configuration memory. -/
def kcmIndex (s : State) (i : Nat) : Nat :=
  (((rawOf s.crd.running.bytes).zipIdx.filter fun p => kilnType (byteAt p.1 0)).getD i ([], 0xFFFF)).2

/-- The Logic code, Estimator and Table billets go to their SRAM partitions (R79): one behind the other from the
partition's start, cut at its end (DESIGN CHOICE, assumption 71: the manual gives no places within them). -/
def loadBillets (s : State) (img : List Byte) : State :=
  [(PartUse.logic, 4), (PartUse.estimator, 6), (PartUse.tables, 8)].foldl (fun s p =>
    match partOf s p.1 with
    | some q => storeBytes .management s q.base ((billetBytes img p.2).take q.len)
    | none => s) s

/-- KLN_KCM: USED_KB, in KB begun (DESIGN CHOICE, assumption 71). -/
def klnKcm (s : State) : Nat := place (((s.crd.kcm.map (·.length)).foldl (· + ·) 0 + 1023) / 1024) 15 0

/-- KLN_RSOFFp and KLN_RSLENp: offset (false) or size (true) of partition p. -/
def klnRetained (s : State) (p : Nat) (size : Bool) : Nat :=
  match s.crd.content with
  | some c => let q := c.retained.getD p (0, 0); if size then q.2 else q.1
  | none => 0

/-! ### Loader commands -/

/-- A transmit session of the relay that reads the incoming slot (R501). -/
def txReadsIncoming (s : State) : Bool :=
  (List.range 2).any fun p => match tget none s.upd.tx p with | some x => !x.fromRunning | none => false

/-- The relay occupies the incoming slot (R87, R501). -/
def slotBusy (s : State) : Bool := s.crd.relayBusy || txReadsIncoming s

/-- Empty the incoming slot. -/
def clearIncoming (s : State) : State :=
  { s with crd := { s.crd with incoming := {}, incValid := false, nextBlock := 0, shortBlock := false } }

/-- CRD_CMD ERASE_INCOMING: opens a host transfer (R87). -/
def opEraseIncoming (s : State) : Code × State :=
  ifOk (when_ (slotBusy s) .busy) s fun s =>
    let s := clearIncoming s
    okCmd { s with crd := { s.crd with xferOpen := true } }

/-- LEN bytes of the staging buffer. -/
def stagingBytes (s : State) (n : Nat) : List Byte :=
  ((List.range ((n + 3) / 4)).flatMap fun i => leB 4 (rd s crdStageBuf [i])).take n

/-- Write a block behind those that the incoming slot holds. -/
def appendIncoming (s : State) (bs : List Byte) : State :=
  { s with crd := { s.crd with incoming := { bytes := s.crd.incoming.bytes ++ bs }, incValid := false
                               nextBlock := s.crd.nextBlock + 1, shortBlock := decide (bs.length < 4096) } }

/-- CRD_CMD WRITE_BLOCK (R88). -/
def opWriteBlock (s : State) : Code × State :=
  let blk := rdf s crdXferOff [] 31 12
  let len := rdf s crdXferLen [] 12 0
  let c := firstCode [when_ (!s.crd.xferOpen || blk != s.crd.nextBlock || s.crd.shortBlock) .range, when_ (slotBusy s) .busy]
  ifOk c s fun s => okCmd (appendIncoming s (stagingBytes s len))

/-- Begin a verification: CRD_RESULT.RES reads BUSY until it ends, and an open host transfer closes where R87 says. -/
def startVerify (v : VerifyFor) (closes : Bool) (s : State) : State :=
  { s with crd := { s.crd with verifying := some v, resBusy := true, xferOpen := s.crd.xferOpen && !closes } }

/-- CRD_CMD VERIFY_INCOMING. -/
def opVerifyIncoming (s : State) : Code × State := okCmd (startVerify .verifyIncoming true s)

/-- CRD_CMD VERIFY_RUNNING. -/
def opVerifyRunning (s : State) : Code × State := okCmd (startVerify .verifyRunning false s)

/-- CRD_CMD ACTIVATE (R89, R504). -/
def opCrdActivate (s : State) : Code × State :=
  ifOk (firstCode [when_ (s.emb.mode != .configure) .refusedMode, when_ (s.upd.confRun || s.upd.fbDue) .busy]) s fun s =>
    okCmd (startVerify .activate true s)

/-- CRD_CMD REVERT (R91). -/
def opRevert (s : State) : Code × State :=
  ifOk (firstCode [when_ s.crd.previous.bytes.isEmpty .notPresent, when_ (s.emb.mode != .configure) .refusedMode]) s
    fun s => okCmd (startVerify .revert false s)

/-- CRD_RESULT after a CRD_CMD write: a verification that runs keeps it (R84), and one that this command started reads
BUSY. -/
def crdRes (before : Bool) (c : Code) (s : State) : State :=
  if before then s else if s.crd.verifying.isSome then s else crdPlain c s

/-- A write of CRD_CMD: rights first, the codes of the operation, then BUSY while a verification runs (R14, R84). -/
def crdReq (w : Win) (f : State → Code × State) (s : State) : Code × State :=
  let running := s.crd.verifying.isSome
  cmdReq (rightOne w rCfg) (crdRes running) (fun s =>
    if running then ((f s).1.orElse .busy, s) else f s) s

/-- ERASE_INCOMING. -/
def execEraseIncoming (w : Win) (s : State) : Out := .next (hostCmd w 0x30004 (crdReq w opEraseIncoming) s)

/-- WRITE_BLOCK. -/
def execWriteBlock (w : Win) (s : State) : Out := .next (hostCmd w 0x30004 (crdReq w opWriteBlock) s)

/-- VERIFY_INCOMING. -/
def execVerifyIncoming (w : Win) (s : State) : Out := .next (hostCmd w 0x30004 (crdReq w opVerifyIncoming) s)

/-- VERIFY_RUNNING. -/
def execVerifyRunning (w : Win) (s : State) : Out := .next (hostCmd w 0x30004 (crdReq w opVerifyRunning) s)

/-- CRD ACTIVATE. -/
def execCrdActivate (w : Win) (s : State) : Out := .next (hostCmd w 0x30004 (crdReq w opCrdActivate) s)

/-- REVERT. -/
def execRevert (w : Win) (s : State) : Out := .next (hostCmd w 0x30004 (crdReq w opRevert) s)

/-- What EJECT does to the loader (R518, R539): a transfer and a verification end. -/
def crdEject (s : State) : State :=
  let s := { s with crd := { s.crd with xferOpen := false } }
  if s.crd.verifying.isSome then
    let s := crdPlain .refusedMode s
    { s with crd := { s.crd with verifying := none, incValid := false } }
  else s

/-- What PFAIL does to the loader (R539): a verification ends without a result. -/
def crdPfail (s : State) : State :=
  { s with crd := { s.crd with verifying := none, xferOpen := false
                               incValid := s.crd.incValid && s.crd.verifying.isNone } }

/-- The loader after a cold start or Kindling: CRD_RESULT reads its reset value (R12, R539). -/
def crdStart (s : State) (cold : Bool) : State :=
  let s := crdPlain .ok s
  if cold then
    { s with crd := { s.crd with verifying := none, xferOpen := false, relayBusy := false, diverged := false
                                 frozenWrites := 0 } }
  else s

end Sys2Proof.Machine
end

