-- ==== Sys2Proof/Machine/Fp.lean ====
section
/-!
DEFINITION. IEEE 754 binary32 and binary64 with rounding to nearest even, for REAL and LREAL (R361): unpacking, exact
arithmetic on the unpacked values, and one rounding.
-/

namespace Sys2Proof.Machine

/-- A format: exponent bits and fraction bits. -/
structure FpFmt where
  eb : Nat
  mb : Nat
  deriving DecidableEq, Repr

/-- binary32. -/
def fp32 : FpFmt := { eb := 8, mb := 23 }

/-- binary64. -/
def fp64 : FpFmt := { eb := 11, mb := 52 }

/-- An unpacked value; `fin` is ±m × 2^e. -/
inductive Fp where
  | nan
  | inf (neg : Bool)
  | fin (neg : Bool) (m : Nat) (e : Int)
  deriving DecidableEq, Repr

/-- Exponent bias. -/
def FpFmt.bias (f : FpFmt) : Nat := 2 ^ (f.eb - 1) - 1

/-- Width in bits. -/
def FpFmt.width (f : FpFmt) : Nat := 1 + f.eb + f.mb

/-- The value that a bit pattern stands for. -/
def FpFmt.unpack (f : FpFmt) (v : Nat) : Fp :=
  let frac := v % 2 ^ f.mb
  let ex := v / 2 ^ f.mb % 2 ^ f.eb
  let neg := bitN v (f.eb + f.mb)
  if ex = 2 ^ f.eb - 1 then (if frac = 0 then .inf neg else .nan)
  else if ex = 0 then .fin neg frac (1 - (f.bias : Int) - f.mb)
  else .fin neg (frac + 2 ^ f.mb) ((ex : Int) - f.bias - f.mb)

/-- The sign bit of a pattern. -/
def FpFmt.signBit (f : FpFmt) (neg : Bool) : Nat := flag neg (f.eb + f.mb)

/-- The pattern of an infinity. -/
def FpFmt.infBits (f : FpFmt) (neg : Bool) : Nat := f.signBit neg + (2 ^ f.eb - 1) * 2 ^ f.mb

/-- n / d rounded to the nearest integer, halves to even. -/
def divEven (n d : Nat) : Nat :=
  let q := n / d
  let r := 2 * (n % d)
  if r > d then q + 1 else if r < d then q else q + q % 2

/-- The non-zero magnitude n / d rounded into the format, as exponent field and fraction together. -/
def FpFmt.roundMag (f : FpFmt) (n d : Nat) : Nat :=
  let guess : Int := (Nat.log2 n : Int) - Nat.log2 d
  let below : Bool := if guess ≥ 0 then decide (n < d * 2 ^ guess.toNat) else decide (n * 2 ^ (-guess).toNat < d)
  let top := if below then guess - 1 else guess
  let low : Int := 1 - (f.bias : Int)
  let q := max top low - f.mb
  let m := if q ≥ 0 then divEven n (d * 2 ^ q.toNat) else divEven (n * 2 ^ (-q).toNat) d
  let field := (max top low - low).toNat
  let bits := if m < 2 ^ f.mb then m else m + field * 2 ^ f.mb
  min bits ((2 ^ f.eb - 1) * 2 ^ f.mb)

/-- The pattern of ± n / d rounded to nearest even. -/
def FpFmt.ratio (f : FpFmt) (neg : Bool) (n d : Nat) : Nat :=
  f.signBit neg + (if n = 0 then 0 else f.roundMag n d)

/-- The pattern of an unpacked value; none for a NaN. -/
def FpFmt.pack (f : FpFmt) : Fp → Option Nat
  | .nan => none
  | .inf neg => some (f.infBits neg)
  | .fin neg m e => some (if e ≥ 0 then f.ratio neg (m * 2 ^ e.toNat) 1 else f.ratio neg m (2 ^ (-e).toNat))

/-- The signed integer m of value m × 2^b for a common exponent b ≤ e. -/
def alignTo (b : Int) (neg : Bool) (m : Nat) (e : Int) : Int :=
  let v : Int := m * 2 ^ (e - b).toNat
  if neg then -v else v

/-- Negation. -/
def Fp.neg : Fp → Fp
  | .nan => .nan
  | .inf s => .inf (!s)
  | .fin s m e => .fin (!s) m e

/-- Absolute value. -/
def Fp.abs : Fp → Fp
  | .nan => .nan
  | .inf _ => .inf false
  | .fin _ m e => .fin false m e

/-- Exact sum; an exact zero of opposite signs is +0. -/
def Fp.add : Fp → Fp → Fp
  | .nan, _ => .nan
  | _, .nan => .nan
  | .inf a, .inf b => if a = b then .inf a else .nan
  | .inf a, _ => .inf a
  | _, .inf b => .inf b
  | .fin sa ma ea, .fin sb mb eb =>
    let b := min ea eb
    let v := alignTo b sa ma ea + alignTo b sb mb eb
    if v = 0 then .fin (sa && sb) 0 b else .fin (decide (v < 0)) v.natAbs b

/-- Exact product. -/
def Fp.mul : Fp → Fp → Fp
  | .nan, _ => .nan
  | _, .nan => .nan
  | .inf a, .inf b => .inf (a != b)
  | .inf a, .fin sb mb _ => if mb = 0 then .nan else .inf (a != sb)
  | .fin sa ma _, .inf b => if ma = 0 then .nan else .inf (sa != b)
  | .fin sa ma ea, .fin sb mb eb => .fin (sa != sb) (ma * mb) (ea + eb)

/-- Pattern of the rounded quotient; none for a NaN. -/
def FpFmt.div (f : FpFmt) : Fp → Fp → Option Nat
  | .nan, _ => none
  | _, .nan => none
  | .inf _, .inf _ => none
  | .inf a, .fin s _ _ => some (f.infBits (a != s))
  | .fin s _ _, .inf b => some (f.signBit (s != b))
  | .fin sa ma ea, .fin sb mb eb =>
    if mb = 0 then (if ma = 0 then none else some (f.infBits (sa != sb)))
    else
      let d := ea - eb
      some (if d ≥ 0 then f.ratio (sa != sb) (ma * 2 ^ d.toNat) mb else f.ratio (sa != sb) ma (mb * 2 ^ (-d).toNat))

/-- Exact remainder of the truncated quotient, with the sign of the dividend. -/
def Fp.rem : Fp → Fp → Fp
  | .nan, _ => .nan
  | _, .nan => .nan
  | .inf _, _ => .nan
  | a, .inf _ => a
  | .fin sa ma ea, .fin _ mb eb =>
    if mb = 0 then .nan
    else
      let b := min ea eb
      .fin sa ((alignTo b false ma ea).natAbs % (alignTo b false mb eb).natAbs) b

/-- a < b; false with a NaN. -/
def Fp.lt : Fp → Fp → Bool
  | .nan, _ => false
  | _, .nan => false
  | .inf a, .inf b => a && !b
  | .inf a, .fin _ _ _ => a
  | .fin _ _ _, .inf b => !b
  | .fin sa ma ea, .fin sb mb eb =>
    let b := min ea eb
    decide (alignTo b sa ma ea < alignTo b sb mb eb)

/-- a = b; false with a NaN, true of the two zeros. -/
def Fp.eq : Fp → Fp → Bool
  | .nan, _ => false
  | _, .nan => false
  | .inf a, .inf b => a == b
  | .fin sa ma ea, .fin sb mb eb =>
    let b := min ea eb
    alignTo b sa ma ea == alignTo b sb mb eb
  | _, _ => false

/-- True of a NaN. -/
def Fp.isNan : Fp → Bool
  | .nan => true
  | _ => false

/-- An integer. -/
def Fp.ofInt (x : Int) : Fp := .fin (decide (x < 0)) x.natAbs 0

/-- The integer nearest to a finite value, halves to even; none of a NaN or an infinity. -/
def Fp.toInt : Fp → Option Int
  | .fin s m e =>
    let v : Int := if e ≥ 0 then (m * 2 ^ e.toNat : Nat) else (divEven m (2 ^ (-e).toNat) : Nat)
    some (if s then -v else v)
  | _ => none

/-- A quiet NaN with payload and sign taken from a free value (R361 gives none). -/
def FpFmt.nanBits (f : FpFmt) (free : Nat) : Nat :=
  f.infBits (bitN free 63) + 2 ^ (f.mb - 1) + free % 2 ^ (f.mb - 1)

end Sys2Proof.Machine
end

