-- ==== Sys2Proof/Machine/LgcIns.lean ====
section
/-!
DEFINITION. The logic engine's instructions (R360, R361, R365, R366): fetch, operand forms and types, images, and one
meaning per opcode of *Table: Instruction summary*. A row acts on task t when t is running and the instruction at its
code offset is that row's; otherwise it changes nothing. Where the manual leaves an operand's place open, the choices
are those of notes/assumptions/30.md.
-/

namespace Sys2Proof.Machine

/-- BLOCK code of LGC. -/
def bLGC : Byte := 0x0E

/-- A task. -/
def task (s : State) (t : Nat) : Task := tget {} s.lgc.tasks t

/-- Change the engine. -/
def modLgc (s : State) (f : Lgc → Lgc) : State := { s with lgc := f s.lgc }

/-- Change a task. -/
def modTask (s : State) (t : Nat) (f : Task → Task) : State := modLgc s fun l => { l with tasks := tmod {} l.tasks t f }

/-- The task images of the running Cord. -/
def tasksOf (s : State) : List (Nat × TaskImage) := match s.crd.content with | some c => c.tasks | none => []

/-- A task that is not loaded. -/
def noImage : TaskImage :=
  { cycle := 0, offset := 0, twd := 0, prio := 15, errorTask := false, stnMask := 0, dataLen := 0, code := [], vars := []
    iou := [] }

/-- The code billet of a task, if loaded. -/
def imgOf (s : State) (t : Nat) : Option TaskImage := ((tasksOf s).find? fun p => p.1 == t).map (·.2)

/-- The code billet of a task, or that of a task that is not loaded. -/
def img (s : State) (t : Nat) : TaskImage := (imgOf s t).getD noImage

/-! ### Instruction format (R360) -/

/-- A fetched instruction: word 0 by field, the extension words, and its length in words. -/
structure Ins where
  opc : Nat
  ty : Nat
  form : Nat
  w : Nat
  x : Nat
  e1 : Nat
  e2 : Nat
  len : Nat
  deriving DecidableEq, Repr

/-- Bits of a TYPE. -/
def tyBits : Nat → Nat
  | 0 => 1 | 1 => 8 | 2 => 16 | 3 => 32 | 4 => 64 | 5 => 8 | 6 => 16 | 7 => 32 | 8 => 64 | 9 => 32 | _ => 64

/-- True of the signed integer TYPEs; TIME counts µs with a sign. -/
def tySigned (ty : Nat) : Bool := inR ty 1 4 || ty == 11

/-- The format of REAL and LREAL. -/
def tyFp (ty : Nat) : Option FpFmt := if ty = 9 then some fp32 else if ty = 10 then some fp64 else none

/-- Bytes of a TYPE in the data area; a BOOL takes one. -/
def tyBytes (ty : Nat) : Nat := (tyBits ty + 7) / 8

/-- A value widened to 64 bits by TYPE. -/
def widen (ty v : Nat) : Nat := if tySigned ty then twos 64 (sgn (tyBits ty) v) else v % 2 ^ tyBits ty

/-- The integer that a 64-bit register holds under a TYPE. -/
def intVal (ty v : Nat) : Int := if tySigned ty then sgn (tyBits ty) v else ((v % 2 ^ tyBits ty : Nat) : Int)

/-- Extension words by opcode, form and TYPE. -/
def extWords (opc form ty : Nat) : Nat :=
  if opc = 0x03 then 2
  else match form with
    | 0 => 0
    | 3 => if tyBits ty = 64 then 2 else 1
    | _ => 1

/-- The instruction at a task's code offset; none when it reaches beyond the code. -/
def fetch (s : State) (t : Nat) : Option Ins :=
  let code := (img s t).code
  let pc := (task s t).pc
  match code[pc]? with
  | none => none
  | some w0 =>
    let v := w0.toNat
    let opc := fld v 31 24
    let ty := fld v 23 20
    let form := fld v 19 16
    let n := extWords opc form ty
    if pc + n < code.length then
      some { opc := opc, ty := ty, form := form, w := fld v 15 12, x := fld v 11 0
             e1 := (code.getD (pc + 1) 0).toNat, e2 := (code.getD (pc + 2) 0).toNat, len := n + 1 }
    else none

/-- Image address of an instruction. -/
def Ins.area (i : Ins) : Nat := fld i.e1 31 28

/-- A defined opcode and operand form (*Table: Instruction summary*). -/
def insOk (i : Ins) : Bool :=
  decide (i.ty ≤ 11) &&
  match i.opc with
  | 0x00 => i.form == 0
  | 0x01 => inR i.form 1 4 && (i.form != 2 || imgAddrOk i.e1)
  | 0x02 => (i.form == 1 || i.form == 4 || i.form == 2 && imgAddrOk i.e1 && i.area % 2 == 1)
  | 0x03 => i.form == 1
  | 0x18 => (i.form == 0 || i.form == 3) && decide (fld i.x 7 4 ≤ 5)
  | 0x24 => i.form == 0
  | 0x28 => i.form == 0 && decide (fld i.x 3 0 ≤ 11)
  | 0x30 => i.form == 1 && decide (i.x ≤ 2)
  | 0x31 => i.form == 1 && decide (i.x ≤ 1)
  | 0x32 => i.form == 1 && decide (i.x ≤ 2)
  | 0x34 => i.form == 0 && decide (fld i.x 9 8 ≤ 2)
  | 0x38 => i.form == 0 && decide (i.x ≤ 1)
  | 0x3F => i.form == 0
  | o =>
    if inR o 0x08 0x0E || inR o 0x10 0x17 then i.form == 0 || i.form == 3
    else if inR o 0x1C 0x1F then i.form == 0
    else inR o 0x20 0x23 && i.form == 5 && i.e1 % 4 == 0

/-! ### Images (R362, R363) -/

/-- Bits of an area; those of one station for SI and SQ. -/
def areaBits (a : Nat) : Nat :=
  match a with
  | 0 => 32 | 1 => 16 | 2 => 512 | 3 => 512 | 4 => 1024 | 5 => 1024 | 6 => 192 | 7 => 64 | _ => 0

/-- Bits that one listed or forced address of an area stands for: a point, a station byte, a word. -/
def areaUnit (a : Nat) : Nat := match a with | 2 => 8 | 3 => 8 | 4 => 32 | 5 => 32 | _ => 1

/-- First byte of an input area in a task's input image. -/
def inBase (area stn : Nat) : Nat :=
  match area with | 0 => 0 | 2 => 0x1000 + 64 * stn | 4 => 0x2000 | _ => 0x3000

/-- A bit of a task's input image. -/
def inBit (x : Task) (area stn b : Nat) : Bool :=
  decide (b < areaBits area) && bitN (tget 0 x.input (inBase area stn + b / 8)).toNat (b % 8)

/-- Key of an output bit. -/
def outKey (area stn b : Nat) : Nat := (16 * area + stn) * 65536 + b

/-- A bit of a task's output image. -/
def outBit (x : Task) (area stn b : Nat) : Bool := (tget none x.outBuf (outKey area stn b)).getD false

/-- n bits of an image at an address as a task sees them; of the inputs, only the listed addresses are in its input image
(R363), and any other reads 0 (DESIGN CHOICE, assumption 30). -/
def imgRead (iou : List Word) (x : Task) (a n : Nat) : Nat :=
  bitsOf n fun j =>
    let area := fld a 31 28
    if area % 2 = 0 then iou.contains (wd a) && inBit x area (fld a 27 24) (fld a 15 0 + j) else outBit x area (fld a 27 24) (fld a 15 0 + j)

/-- Store n bits into the task's output image at an address that its I/O usage list names. -/
def imgStore (iou : List Word) (x : Task) (a n v : Nat) : Task :=
  if iou.contains (wd a) then
    (List.range n).foldl (fun x j =>
      let b := fld a 15 0 + j
      if b < areaBits (fld a 31 28) then
        { x with outBuf := tset none x.outBuf (outKey (fld a 31 28) (fld a 27 24) b) (some (bitN v j)) }
      else x) x
  else x

/-- The output bits that an I/O usage list names, as keys. -/
def listedOuts (iou : List Word) : List Nat :=
  iou.flatMap fun e =>
    let a := e.toNat
    let area := fld a 31 28
    if area % 2 = 1 then
      ((List.range (areaUnit area)).map fun j => fld a 15 0 + j).filterMap fun b =>
        if b < areaBits area then some (outKey area (fld a 27 24) b) else none
    else []

/-- Every output bit of a task: listed, or stored at a listed address. -/
def outKeys (s : State) (t : Nat) : List Nat :=
  let l := listedOuts (img s t).iou
  l ++ ((task s t).outBuf.map (·.1)).filter fun k => !l.contains k

/-- Set bit i of a number. -/
def setBitN (v i : Nat) (b : Bool) : Nat := if bitN v i = b then v else if b then v + 2 ^ i else v - 2 ^ i

/-- Set an output bit of the live image, by key (R362). -/
def liveSet (s : State) (key : Nat) (b : Bool) : State :=
  let bit := key % 65536
  let stn := key / 65536 % 16
  modLgc s fun l =>
    match key / 0x100000 with
    | 1 => { l with fq := BitVec.ofNat 16 (setBitN l.fq.toNat bit b) }
    | 3 => { l with sq := tmod 0 l.sq (64 * stn + bit / 8) fun y => BitVec.ofNat 8 (setBitN y.toNat (bit % 8) b) }
    | 5 => { l with xq := tmod 0 l.xq (bit / 32) fun y => wd (setBitN y.toNat (bit % 32) b) }
    | 7 => { l with sysOut := BitVec.ofNat 64 (setBitN l.sysOut.toNat bit b) }
    | _ => l

/-- The forces of the table. -/
def forcesOf (s : State) : List Force := s.lgc.forces.filterMap (·.2)

/-- True of a force on an output address. -/
def Force.isOut (f : Force) : Bool := f.kind == 1 && fld f.addr.toNat 31 28 % 2 == 1

/-- The bits that an address force holds, as pairs of bit key and value. -/
def Force.bits (f : Force) : List (Nat × Bool) :=
  let a := f.addr.toNat
  (List.range f.size).map fun j => (outKey (fld a 31 28) (fld a 27 24) (fld a 15 0 + j), bitN f.val.toNat j)

/-- Forced output addresses carry their values to the live image (R370). -/
def applyOutForces (s : State) : State :=
  (forcesOf s).foldl (fun s f => if f.isOut then f.bits.foldl (fun s p => liveSet s p.1 p.2) s else s) s

/-- In MAINTENANCE the Cord's logic requests the connect sequence of a string for a live test, and withdraws it (R55,
R344). DESIGN CHOICE (assumption 72): the manual names no bit for the request; the model takes the SYS_OUT request of the
string's K+ output, SO(4k), while the key is in MAINT. -/
def liveTests (s : State) : State :=
  if s.emb.mode = .maintenance ∧ s.emb.rampSince.isNone ∧ s.emb.lotoSeen ∧ s.emb.loto = .maint then
    (strs s).foldl (fun s k =>
      let on := bitN s.lgc.sysOut.toNat (4 * k)
      let c := ctr s k
      if on && !c.want && c.pstate == 0 then connectString s k
      else if !on && c.want then openString s k
      else s) s
  else s

/-- AUX requests reach the outputs whose role is AUX (R338, R363), and the requests of live tests the contactors. -/
def syncAux (s : State) : State :=
  liveTests ((List.range 16).foldl (fun s j =>
    if isContactor s j then s else modSo s j fun o => { o with req := bitN s.lgc.sysOut.toNat j }) s)

/-- A forced variable takes its value in a data area at each cycle start (R370). -/
def holdVars (s : State) (t : Nat) (d : Tab Byte) : Tab Byte :=
  (forcesOf s).foldl (fun d f =>
    if f.kind = 2 ∧ f.task = t then memWrite d f.addr.toNat (leB ((f.size + 7) / 8) f.val.toNat) else d) d

/-! ### Faults (R357) -/

/-- Write a set of output bits to 0 in the live image; forces keep theirs. -/
def zeroOuts (s : State) (keys : List Nat) : State :=
  syncAux (applyOutForces (keys.foldl (fun s k => liveSet s k false) s))

/-- A task faults: it halts, its outputs go to 0, LOGIC_TASK_FAULT is recorded and the module goes to SAFE_STOP. -/
def taskFault (s : State) (t cause : Nat) : State :=
  let pc := (task s t).pc
  let s := zeroOuts s (outKeys s t)
  let s := modTask s t fun x => { x with state := 4, cause := cause, dueAt := none, again := false
                                         outBuf := x.outBuf.map fun p => (p.1, some false) }
  let s := if (img s t).errorTask then modLgc s fun l => { l with errStns := 0 } else s
  latchFault (stage s .logicTaskFault bLGC sevFault
    ([BitVec.ofNat 8 t, BitVec.ofNat 8 cause, 0, 0] ++ leB 4 (4 * pc))) 0x05

/-- A task's access lies outside its data area: a partition violation (R36, R357). -/
def taskViol (s : State) (t off : Nat) : State := taskFault (partViol s bLGC off) t 2

/-! ### Registers and operands -/

/-- A working register. -/
def wreg (x : Task) (n : Nat) : Nat := (tget 0 x.w n).toNat

/-- Go on behind the instruction. -/
def insNext (s : State) (t : Nat) (i : Ins) : State := modTask s t fun x => { x with pc := x.pc + i.len }

/-- Write W, note the field input it came from (number + 1, or 0), and go on. -/
def setW (s : State) (t : Nat) (i : Ins) (v fi : Nat) : State :=
  modTask s t fun x => { x with w := tset 0 x.w i.w (BitVec.ofNat 64 v), wFi := tset 0 x.wFi i.w fi, pc := x.pc + i.len }

/-- Set the condition flag and go on. -/
def setFlag (s : State) (t : Nat) (i : Ins) (b : Bool) : State := modTask s t fun x => { x with flag := b, pc := x.pc + i.len }

/-- The second operand: register X[3:0] or the immediate. -/
def srcVal (x : Task) (i : Ins) : Nat := if i.form = 3 then widen i.ty (i.e1 + 2 ^ 32 * i.e2) else wreg x (fld i.x 3 0)

/-- n bytes of the data area lie at an offset. -/
def inData (s : State) (t off n : Nat) : Bool := decide (off + n ≤ (img s t).dataLen)

/-- The data offset of forms 1 and 4. -/
def dataOff (x : Task) (i : Ins) : Nat := if i.form = 4 then (i.e1 + wreg x (fld i.x 3 0)) % 2 ^ 32 else i.e1

/-- Little-endian value at a data offset. -/
def dataGet (x : Task) (off n : Nat) : Nat := fromLe (memRead x.data off n)

/-- The bytes of a forced variable keep what they held before a store (R370). -/
def keepVars (s : State) (t : Nat) (old d : Tab Byte) : Tab Byte :=
  (forcesOf s).foldl (fun d f =>
    if f.kind = 2 ∧ f.task = t then memWrite d f.addr.toNat (memRead old f.addr.toNat ((f.size + 7) / 8)) else d) d

/-- Store bytes in the data area; a store to a forced variable has no effect (R370). -/
def dataPut (s : State) (t off : Nat) (bs : List Byte) : State :=
  modTask s t fun x => { x with data := keepVars s t x.data (memWrite x.data off bs) }

/-- A task runs, on an engine that has power. -/
def taskRuns (s : State) (t : Nat) : Bool :=
  (task s t).state == 2 && (s.emb.power == .on || s.emb.power == .flushing)

/-- Run an instruction's meaning when it is the next of the running task t. -/
def runIns (opc : Nat) (t : Fin 16) (f : State → Nat → Ins → State) (s : State) : Out :=
  .next (
    if taskRuns s t then
      match fetch s t with
      | some i => if i.opc = opc && insOk i then f s t i else s
      | none => s
    else s)

/-! ### Loads, stores and moves -/

/-- NOP: no effect. -/
def execLgcNop (t : Fin 16) (s : State) : Out := runIns 0x00 t insNext s

/-- Load from data, image or immediate. -/
def insLd (s : State) (t : Nat) (i : Ins) : State :=
  let x := task s t
  match i.form with
  | 3 => setW s t i (srcVal x i) 0
  | 2 => setW s t i (widen i.ty (imgRead (img s t).iou x i.e1 (tyBits i.ty))) (if i.area = 0 then fld i.e1 15 0 + 1 else 0)
  | _ =>
    if inData s t (dataOff x i) (tyBytes i.ty) then
      setW s t i (widen i.ty (dataGet x (dataOff x i) (tyBytes i.ty))) 0
    else taskViol s t (dataOff x i)

/-- LD: load, widened to 64 bits by TYPE. -/
def execLgcLd (t : Fin 16) (s : State) : Out := runIns 0x01 t insLd s

/-- Store to data or to the task's output image. -/
def insSt (s : State) (t : Nat) (i : Ins) : State :=
  let x := task s t
  let v := wreg x i.w % 2 ^ tyBits i.ty
  if i.form = 2 then insNext (modTask s t fun x => imgStore (img s t).iou x i.e1 (tyBits i.ty) v) t i
  else if inData s t (dataOff x i) (tyBytes i.ty) then
    insNext (dataPut s t (dataOff x i) (leB (tyBytes i.ty) v)) t i
  else taskViol s t (dataOff x i)

/-- ST: store, narrowed by TYPE. -/
def execLgcSt (t : Fin 16) (s : State) : Out := runIns 0x02 t insSt s

/-- Copy X bytes from the offset in the first extension word to that in the second. -/
def insMovb (s : State) (t : Nat) (i : Ins) : State :=
  if !inData s t i.e1 i.x then taskViol s t i.e1
  else if !inData s t i.e2 i.x then taskViol s t i.e2
  else insNext (dataPut s t i.e2 (memRead (task s t).data i.e1 i.x)) t i

/-- MOVB: block copy within the data area. -/
def execLgcMovb (t : Fin 16) (s : State) : Out := runIns 0x03 t insMovb s

/-! ### Arithmetic (R361) -/

/-- Write an integer result: it wraps modulo 2^n of TYPE and sets OVF when it does. -/
def setInt (s : State) (t : Nat) (i : Ins) (r : Int) : State :=
  let v := widen i.ty (twos (tyBits i.ty) r)
  let s := if intVal i.ty v = r then s else modTask s t fun x => { x with ovf := true }
  setW s t i v 0

/-- Write a REAL or LREAL pattern; a NaN has a free payload. -/
def setFp (s : State) (t : Nat) (i : Ins) (f : FpFmt) : Option Nat → State
  | some v => setW s t i v 0
  | none =>
    let (free, s) := drawFree s
    setW s t i (f.nanBits free) 0

/-- Arithmetic by TYPE. -/
def insArith (fi : Int → Int → Int) (ff : FpFmt → Fp → Fp → Option Nat) (s : State) (t : Nat) (i : Ins) : State :=
  let a := wreg (task s t) i.w
  let b := srcVal (task s t) i
  match tyFp i.ty with
  | some f => setFp s t i f (ff f (f.unpack (a % 2 ^ f.width)) (f.unpack (b % 2 ^ f.width)))
  | none => setInt s t i (fi (intVal i.ty a) (intVal i.ty b))

/-- ADD. -/
def execLgcAdd (t : Fin 16) (s : State) : Out :=
  runIns 0x08 t (insArith (· + ·) fun f a b => f.pack (a.add b)) s

/-- SUB. -/
def execLgcSub (t : Fin 16) (s : State) : Out :=
  runIns 0x09 t (insArith (· - ·) fun f a b => f.pack (a.add b.neg)) s

/-- MUL. -/
def execLgcMul (t : Fin 16) (s : State) : Out :=
  runIns 0x0A t (insArith (· * ·) fun f a b => f.pack (a.mul b)) s

/-- A division or modulo of integers: a divisor of 0 gives 0 and sets DIV0. -/
def insDivide (fi : Int → Int → Int) (ff : FpFmt → Fp → Fp → Option Nat) (s : State) (t : Nat) (i : Ins) : State :=
  if (tyFp i.ty).isNone && intVal i.ty (srcVal (task s t) i) == 0 then
    setW (modTask s t fun x => { x with div0 := true }) t i 0 0
  else insArith fi ff s t i

/-- DIV: truncated toward zero. -/
def execLgcDiv (t : Fin 16) (s : State) : Out := runIns 0x0B t (insDivide Int.tdiv FpFmt.div) s

/-- MOD: the remainder of the truncated quotient. -/
def execLgcMod (t : Fin 16) (s : State) : Out :=
  runIns 0x0C t (insDivide Int.tmod fun f a b => f.pack (a.rem b)) s

/-- NEG of the second operand. -/
def execLgcNeg (t : Fin 16) (s : State) : Out :=
  runIns 0x0D t (insArith (fun _ b => -b) fun f _ b => f.pack b.neg) s

/-- ABS of the second operand. -/
def execLgcAbs (t : Fin 16) (s : State) : Out :=
  runIns 0x0E t (insArith (fun _ b => (b.natAbs : Int)) fun f _ b => f.pack b.abs) s

/-! ### Bitwise operations -/

/-- A bitwise operation on the n bits of TYPE. -/
def insBits (f : Nat → Nat → Nat → Nat) (s : State) (t : Nat) (i : Ins) : State :=
  let n := tyBits i.ty
  setW s t i (widen i.ty (f n (wreg (task s t) i.w % 2 ^ n) (srcVal (task s t) i) % 2 ^ n)) 0

/-- AND. -/
def execLgcAnd (t : Fin 16) (s : State) : Out := runIns 0x10 t (insBits fun _ a b => a.land b) s

/-- OR. -/
def execLgcOr (t : Fin 16) (s : State) : Out := runIns 0x11 t (insBits fun _ a b => a.lor b) s

/-- XOR. -/
def execLgcXor (t : Fin 16) (s : State) : Out := runIns 0x12 t (insBits fun _ a b => Nat.xor a b) s

/-- NOT of the second operand. -/
def execLgcNot (t : Fin 16) (s : State) : Out := runIns 0x13 t (insBits fun n _ b => 2 ^ n - 1 - b % 2 ^ n) s

/-- SHL: zeros enter; a count of n or more gives 0. -/
def execLgcShl (t : Fin 16) (s : State) : Out :=
  runIns 0x14 t (insBits fun n a c => if c < n then a * 2 ^ c else 0) s

/-- SHR: zeros enter; a count of n or more gives 0. -/
def execLgcShr (t : Fin 16) (s : State) : Out :=
  runIns 0x15 t (insBits fun n a c => if c < n then a / 2 ^ c else 0) s

/-- ROL within n bits. -/
def execLgcRol (t : Fin 16) (s : State) : Out :=
  runIns 0x16 t (insBits fun n a c => a * 2 ^ (c % n) + a / 2 ^ (n - c % n)) s

/-- ROR within n bits. -/
def execLgcRor (t : Fin 16) (s : State) : Out :=
  runIns 0x17 t (insBits fun n a c => a / 2 ^ (c % n) + a * 2 ^ (n - c % n)) s

/-! ### Comparison and selection -/

/-- a < b and a = b by TYPE. -/
def tyLtEq (ty a b : Nat) : Bool × Bool :=
  match tyFp ty with
  | some f =>
    let u := f.unpack (a % 2 ^ f.width)
    let v := f.unpack (b % 2 ^ f.width)
    (u.lt v, u.eq v)
  | none => (decide (intVal ty a < intVal ty b), intVal ty a == intVal ty b)

/-- A NaN under TYPE. -/
def tyNan (ty a : Nat) : Bool := match tyFp ty with | some f => (f.unpack (a % 2 ^ f.width)).isNan | none => false

/-- The relation X[7:4]: EQ, NE, LT, LE, GT, GE. -/
def relation (r ty a b : Nat) : Bool :=
  let (lt, eq) := tyLtEq ty a b
  let ordered := !tyNan ty a && !tyNan ty b
  match r with
  | 0 => eq
  | 1 => !eq
  | 2 => lt
  | 3 => lt || eq
  | 4 => ordered && !lt && !eq
  | _ => ordered && !lt

/-- CMP: sets the condition flag. -/
def insCmp (s : State) (t : Nat) (i : Ins) : State :=
  setFlag s t i (relation (fld i.x 7 4) i.ty (wreg (task s t) i.w) (srcVal (task s t) i))

/-- CMP. -/
def execLgcCmp (t : Fin 16) (s : State) : Out := runIns 0x18 t insCmp s

/-- A choice between the registers X[3:0] and X[7:4]; with a NaN operand the result is a NaN of free payload. -/
def insChoose (f : Nat → Nat → Nat) (s : State) (t : Nat) (i : Ins) : State :=
  let a := wreg (task s t) (fld i.x 3 0)
  let b := wreg (task s t) (fld i.x 7 4)
  match tyFp i.ty with
  | some g => setFp s t i g (if tyNan i.ty a || tyNan i.ty b then none else some (f a b % 2 ^ g.width))
  | none => setW s t i (widen i.ty (f a b)) 0

/-- MIN. -/
def execLgcMin (t : Fin 16) (s : State) : Out :=
  runIns 0x1C t (fun s t i => insChoose (fun a b => if (tyLtEq i.ty b a).1 then b else a) s t i) s

/-- MAX. -/
def execLgcMax (t : Fin 16) (s : State) : Out :=
  runIns 0x1D t (fun s t i => insChoose (fun a b => if (tyLtEq i.ty a b).1 then b else a) s t i) s

/-- LIMIT: W held between the minimum X[3:0] and the maximum X[7:4]. -/
def insLimit (s : State) (t : Nat) (i : Ins) : State :=
  let v := wreg (task s t) i.w
  if tyNan i.ty v then
    match tyFp i.ty with
    | some g => setFp s t i g none
    | none => insNext s t i
  else insChoose (fun lo hi =>
    let m := if (tyLtEq i.ty v lo).1 then lo else v
    if (tyLtEq i.ty hi m).1 then hi else m) s t i

/-- LIMIT. -/
def execLgcLimit (t : Fin 16) (s : State) : Out := runIns 0x1E t insLimit s

/-- SEL: X[3:0] when W is 0 as a BOOL, else X[7:4]. -/
def execLgcSel (t : Fin 16) (s : State) : Out :=
  runIns 0x1F t (fun s t i =>
    setW s t i (widen i.ty (wreg (task s t) (if bitN (wreg (task s t) i.w) 0 then fld i.x 7 4 else fld i.x 3 0))) 0) s

/-! ### Control flow -/

/-- Go to the label. -/
def jumpTo (s : State) (t : Nat) (i : Ins) : State := modTask s t fun x => { x with pc := i.e1 / 4 }

/-- JMP. -/
def execLgcJmp (t : Fin 16) (s : State) : Out := runIns 0x20 t jumpTo s

/-- JC: jump when the condition flag is set. -/
def execLgcJc (t : Fin 16) (s : State) : Out :=
  runIns 0x21 t (fun s t i => if (task s t).flag then jumpTo s t i else insNext s t i) s

/-- JNC: jump when the condition flag is clear. -/
def execLgcJnc (t : Fin 16) (s : State) : Out :=
  runIns 0x22 t (fun s t i => if (task s t).flag then insNext s t i else jumpTo s t i) s

/-- CALL: depth at most 16; a deeper call is not a defined form. -/
def execLgcCall (t : Fin 16) (s : State) : Out :=
  runIns 0x23 t (fun s t i =>
    if (task s t).stack.length ≥ 16 then taskFault s t 3
    else jumpTo (modTask s t fun x => { x with stack := (x.pc + i.len) :: x.stack }) t i) s

/-- RET: back behind the last CALL; without one it is not a defined form. -/
def execLgcRet (t : Fin 16) (s : State) : Out :=
  runIns 0x24 t (fun s t _ =>
    match (task s t).stack with
    | [] => taskFault s t 3
    | r :: rest => modTask s t fun x => { x with pc := r, stack := rest }) s

/-- UNDEFINED_INSTRUCTION: the running task meets an opcode or operand form that the summary does not define (R357). -/
def execUndefinedInstruction (t : Fin 16) (s : State) : Out :=
  .next (
    if taskRuns s t then
      match fetch s t with
      | some i => if insOk i then s else taskFault s t 3
      | none => taskFault s t 3
    else s)

/-! ### Conversion -/

/-- CVT of W from the TYPE X[3:0] to TYPE: REAL to integer rounds to nearest even; what has no integer is free. -/
def insCvt (s : State) (t : Nat) (i : Ins) : State :=
  let v := wreg (task s t) i.w
  let src := fld i.x 3 0
  match tyFp src, tyFp i.ty with
  | some f, some g => setFp s t i g (g.pack (f.unpack (v % 2 ^ f.width)))
  | none, some g => setFp s t i g (g.pack (Fp.ofInt (intVal src v)))
  | none, none => if i.ty = 0 then setW s t i (flag (intVal src v != 0) 0) 0 else setInt s t i (intVal src v)
  | some f, none =>
    match (f.unpack (v % 2 ^ f.width)).toInt with
    | some n => if i.ty = 0 then setW s t i (flag (n != 0) 0) 0 else setInt s t i n
    | none =>
      let (free, s) := drawFree s
      setW (modTask s t fun x => { x with ovf := true }) t i (widen i.ty free) 0

/-- CVT. -/
def execLgcCvt (t : Fin 16) (s : State) : Out := runIns 0x28 t insCvt s

/-! ### Timers, triggers and counters (R365) -/

/-- The instant that a timer takes as its start: the edge stamp of the field input that W was loaded from, or the
input copy; the copy too where no such edge has been caught since the engines started (DEDUCED, assumption 54: there is no stamp). -/
def stampOf (x : Task) (w : Nat) (rising : Bool) : Nat :=
  match tget 0 x.wFi w with
  | 0 => x.copyAt
  | n + 1 =>
    let e := tget {} x.edges n
    let at_ := if rising then e.riseAt else e.fallAt
    if at_ = 0 then x.copyAt else at_

/-- A timer instance: start, preset and elapsed time in µs, output, last input, running. -/
structure TmrInst where
  start : Nat
  pt : Nat
  et : Nat
  q : Bool
  prev : Bool
  run : Bool

/-- Read a timer instance (25 bytes). -/
def TmrInst.read (bs : List Byte) : TmrInst :=
  let f := byteAt bs 24
  { start := getLe bs 0 8, pt := getLe bs 8 8, et := getLe bs 16 8, q := bitN f 0, prev := bitN f 1, run := bitN f 2 }

/-- Write a timer instance. -/
def TmrInst.bytes (m : TmrInst) : List Byte :=
  leB 8 m.start ++ leB 8 m.pt ++ leB 8 m.et ++ [BitVec.ofNat 8 (flag m.q 0 + flag m.prev 1 + flag m.run 2)]

/-- Evaluate TON (0), TOF (1) or TP (2) at logic time `now`, with the stamps of the last rising and falling edge. -/
def TmrInst.eval (m : TmrInst) (kind : Nat) (input : Bool) (now rise fall : Nat) : TmrInst :=
  let fresh := match kind with
    | 0 => input && !m.prev
    | 1 => !input && m.prev
    | _ => input && !m.prev && !m.run
  let start := if fresh then (if kind = 1 then fall else rise) else m.start
  let run := match kind with
    | 0 => input
    | 1 => !input && (m.run || fresh)
    | _ => m.run || fresh
  let el := min m.pt (now - start)
  let done := decide (el ≥ m.pt)
  match kind with
  | 0 => { m with start := start, prev := input, run := run, et := if run then el else 0, q := run && done }
  | 1 =>
    if input then { m with start := start, prev := true, run := false, et := 0, q := true }
    else { m with start := start, prev := false, run := run, et := if run then el else m.et, q := run && !done }
  | _ =>
    if run && done && !input then { m with start := start, prev := false, run := false, et := 0, q := false }
    else { m with start := start, prev := input, run := run, et := if run then el else 0, q := run && !done }

/-- TMR. -/
def insTmr (s : State) (t : Nat) (i : Ins) : State :=
  if inData s t i.e1 25 then
    let x := task s t
    let m := (TmrInst.read (memRead x.data i.e1 25)).eval i.x (bitN (wreg x i.w) 0) s.lgc.time
      (stampOf x i.w true) (stampOf x i.w false)
    setFlag (dataPut s t i.e1 m.bytes) t i m.q
  else taskViol s t i.e1

/-- TMR: TON, TOF or TP under R365. -/
def execLgcTmr (t : Fin 16) (s : State) : Out := runIns 0x30 t insTmr s

/-- TRIG: an instance byte with the last input in bit 0 and the output in bit 1. -/
def insTrig (s : State) (t : Nat) (i : Ins) : State :=
  if inData s t i.e1 1 then
    let x := task s t
    let inp := bitN (wreg x i.w) 0
    let old := bitN (dataGet x i.e1 1) 0
    let q := if i.x = 0 then inp && !old else !inp && old
    setFlag (dataPut s t i.e1 [BitVec.ofNat 8 (flag inp 0 + flag q 1)]) t i q
  else taskViol s t i.e1

/-- TRIG: R_TRIG or F_TRIG. -/
def execLgcTrig (t : Fin 16) (s : State) : Out := runIns 0x31 t insTrig s

/-- CTR: CTU (0), CTD (1), CTUD (2). The instance holds CV and PV (INT), a byte of the inputs CU, CD, R, LD, a byte of
the last CU and CD, and a byte of QU and QD. -/
def insCtr (s : State) (t : Nat) (i : Ins) : State :=
  if inData s t i.e1 7 then
    let x := task s t
    let cv := sgn 16 (dataGet x i.e1 2)
    let pv := sgn 16 (dataGet x (i.e1 + 2) 2)
    let inp := dataGet x (i.e1 + 4) 1
    let old := dataGet x (i.e1 + 5) 1
    let up := i.x != 1 && bitN inp 0 && !bitN old 0
    let down := i.x != 0 && bitN inp 1 && !bitN old 1
    let cv' :=
      if i.x ≠ 1 ∧ bitN inp 2 then 0
      else if i.x ≠ 0 ∧ bitN inp 3 then pv
      else satS 16 (if up = down then cv else if up then cv + 1 else cv - 1)
    let qu := decide (cv' ≥ pv)
    let qd := decide (cv' ≤ 0)
    let s := dataPut s t i.e1 (leI 2 cv')
    let s := dataPut s t (i.e1 + 5) [BitVec.ofNat 8 (inp % 4), BitVec.ofNat 8 (flag qu 0 + flag qd 1)]
    setFlag s t i (if i.x = 1 then qd else qu)
  else taskViol s t i.e1

/-- CTR. -/
def execLgcCtr (t : Fin 16) (s : State) : Out := runIns 0x32 t insCtr s

/-- RDEDGE: the task's view of input X[4:0] as it stood at the copy: the counts (X[9:8] = 0), or the stamp of the last
rising (1) or falling edge (2) (R366). -/
def insRdedge (s : State) (t : Nat) (i : Ins) : State :=
  let e := tget {} (task s t).edges (fld i.x 4 0)
  setW s t i (match fld i.x 9 8 with
    | 0 => e.rise + 256 * e.fall
    | 1 => e.riseAt
    | _ => e.fallAt) 0

/-- RDEDGE. -/
def execLgcRdedge (t : Fin 16) (s : State) : Out := runIns 0x34 t insRdedge s

/-- SYS: X = 0 reads the logic time base; X = 1 raises the user event source W[4:0] (R362). -/
def insSys (s : State) (t : Nat) (i : Ins) : State :=
  if i.x = 0 then setW s t i s.lgc.time 0
  else
    let n := wreg (task s t) i.w % 32
    insNext (raise s (.user (Fin.ofNat 32 n))) t i

/-- SYS. -/
def execLgcSys (t : Fin 16) (s : State) : Out := runIns 0x38 t insSys s

end Sys2Proof.Machine
end

