-- ==== Sys2Proof/Machine/Lgc.lean ====
section
/-!
DEFINITION. The logic engine (chapter 13): tasks and lanes, input copy and END, retention, forces, the carry-over of an
online change, and the remote I/O stations. Times are in the logic time base (R365) unless a name says otherwise.
-/

namespace Sys2Proof.Machine

/-! ### Status words the tasks read -/

/-- At least one force is active (R371). -/
def forcesActive (s : State) : Bool := !(forcesOf s).isEmpty

/-- EMB_STATUS (chapter 2). -/
def embStatus (s : State) : Nat :=
  let loto := match s.emb.lotoRaw with | .between => 0 | .run => 1 | .maint => 2 | .lock => 3
  flag (!hasCord s) 10 + flag (startupOk s) 9 + flag (forcesActive s && !s.emb.forceAcked) 8 + flag (forcesActive s) 7 +
    flag s.emb.pfail 6 + flag s.emb.holdupOk 5 + flag s.emb.eject 4 + flag s.emb.present 3 + loto

/-- A station. -/
def stn (s : State) (n : Nat) : Stn := tget {} s.lgc.stns n

/-- Change a station. -/
def modStn (s : State) (n : Nat) (f : Stn → Stn) : State := modLgc s fun l => { l with stns := tmod {} l.stns n f }

/-- The station is declared. -/
def stnOn (s : State) (n : Nat) : Bool := bitN (rd s lgcStncfg [n]) 31

/-- Mask of the stations that are LOST. -/
def lostMask (s : State) : Nat := bitsOf 16 fun n => (stn s n).state == 3

/-! ### Lanes and priorities (R354 to R356) -/

/-- Cycles may start: the engine runs, no PFAIL, no online change in its switch. -/
def lgcRuns (s : State) : Bool :=
  awake s && !s.lgc.stopped && !s.emb.pfail && decide (s.lgc.holdUntil ≤ s.lgc.time)

/-- A task is loaded and enabled. -/
def taskOn (s : State) (t : Nat) : Bool := (imgOf s t).isSome && bitN (rd s lgcTcfg [t]) 31

/-- The error task, if the Cord has one that is enabled (R379). -/
def errTask (s : State) : Option Nat := ((tasksOf s).find? fun p => p.2.errorTask && taskOn s p.1).map (·.1)

/-- Priority of a task; that of the error task is 0 for the loss of a station. -/
def prioOf (s : State) (t : Nat) : Nat :=
  if errTask s = some t ∧ (s.lgc.errPend ||| s.lgc.errStns) ≠ 0 then 0 else rdf s lgcTcfg [t] 27 24

/-- A task is held back until the error task has ended (R379). -/
def heldBack (s : State) (t : Nat) : Bool :=
  (errTask s).isSome && errTask s != some t && decide ((img s t).stnMask &&& (s.lgc.errPend ||| s.lgc.errStns) ≠ 0)

/-- No task is running or preempted (R374). -/
def quietInstant (s : State) : Bool := (List.range 16).all fun t => !inR (task s t).state 2 3

/-- A task waits for a lane: due and not started, or preempted. -/
def startable (s : State) (t : Nat) : Bool :=
  let x := task s t
  x.state == 3 || x.state == 1 && x.dueAt.isSome && !heldBack s t

/-- Task a comes before task b: priority, then due instant, then number. -/
def comesBefore (s : State) (a b : Nat) : Bool :=
  let da := ((task s a).dueAt).getD 0
  let db := ((task s b).dueAt).getD 0
  decide (prioOf s a < prioOf s b) ||
    prioOf s a == prioOf s b && (decide (da < db) || da == db && decide (a ≤ b))

/-- The first of the tasks that wait for a lane. -/
def firstDue (s : State) : Option Nat :=
  let l := (List.range 16).filter (startable s)
  l.find? fun a => l.all (comesBefore s a)

/-- The running tasks. -/
def runningTasks (s : State) : List Nat := (List.range 16).filter fun t => (task s t).state == 2

/-- The task that a due task would preempt: of the lowest priority, and among equals the highest number. -/
def victim (s : State) : Option Nat :=
  let l := runningTasks s
  l.find? fun a => l.all fun b => decide (prioOf s b < prioOf s a) || prioOf s b == prioOf s a && decide (b ≤ a)

/-- TASK_DUE: a cyclic task falls due at OFFSET + m × CYCLE of the logic time base; while it is still due, running or
preempted, it skips the instant and OVR counts (R354, R356). -/
def execTaskDue (t : Fin 16) (s : State) : Out :=
  .next (
    let x := task s t
    let cyc := rdf s lgcTcfg [t.val] 23 0
    let off := rdf s lgcToff [t.val] 23 0
    let now := s.lgc.time
    if !taskOn s t || !lgcRuns s || cyc == 0 || decide (now < off) || (now - off) % cyc != 0 || x.lastDue == some now then s
    else modTask s t fun x =>
      let x := { x with lastDue := some now }
      if x.state = 1 ∧ x.dueAt = none then { x with dueAt := some now }
      else if inR x.state 1 3 then { x with ovr := inc16 x.ovr }
      else x)

/-- A trigger of an event task (R354): due, or due once more after the present cycle. -/
def triggerTask (s : State) (t : Nat) : State :=
  modTask s t fun x =>
    if x.state = 1 ∧ x.dueAt = none then { x with dueAt := some s.lgc.time }
    else if inR x.state 1 3 then { x with again := true }
    else x

/-- EVENT_TASK_TRIGGER: the event task's sink receives an event (R28, R354). -/
def execEventTaskTrigger (t : Fin 16) (s : State) : Out :=
  .next (
    if !s.kln.evPend.contains (.task t) || !awake s then s
    else
      let s := { s with kln := { s.kln with evPend := s.kln.evPend.erase (.task t) } }
      if taskOn s t && rdf s lgcTcfg [t.val] 23 0 == 0 then triggerTask s t else s)

/-! ### The start of a cycle (R363, R366, R378) -/

/-- A station's input byte as tasks read it: live, or its substitute while the station is LOST. -/
def siByte (s : State) (n b : Nat) : Byte :=
  let held := tget 0 s.lgc.si (64 * n + b)
  if (stn s n).state = 3 ∧ bitN (rd s lgcSubm [n, b / 32]) (b % 32) then
    BitVec.ofNat 8 (fld (rd s lgcSubv [n, b / 4]) (8 * (b % 4) + 7) (8 * (b % 4)))
  else held

/-- The system input area: mode, start cause, LOST mask, EMB_STATUS, SAF_FDEM, LEASE_VALID, outcome of the task's last
mode request, logic time base. -/
def sysIn (s : State) (x : Task) : List Byte :=
  [BitVec.ofNat 8 s.emb.mode.num, BitVec.ofNat 8 x.startCause] ++ leB 2 (lostMask s) ++ leB 4 (embStatus s) ++
    leB 4 s.saf.dem.toNat ++ [BitVec.ofNat 8 (flag (leaseValid s) 0), BitVec.ofNat 8 x.reqRes.num, 0, 0] ++
    leB 8 s.lgc.time

/-- A force on an input address acts on an input copy (R370). -/
def forceInput (d : Tab Byte) (f : Force) : Tab Byte :=
  let a := f.addr.toNat
  if f.kind = 1 ∧ fld a 31 28 % 2 = 0 then
    (List.range f.size).foldl (fun d j =>
      let b := fld a 15 0 + j
      if b < areaBits (fld a 31 28) then
        tmod 0 d (inBase (fld a 31 28) (fld a 27 24) + b / 8) fun y =>
          BitVec.ofNat 8 (setBitN y.toNat (b % 8) (bitN f.val.toNat j))
      else d) d
  else d

/-- What the inputs read at one instant, forces included (R363, R370); LD reads of it what the task's list names. -/
def inputCopy (s : State) (x : Task) : Tab Byte :=
  let d : Tab Byte := memWrite [] 0 (leB 4 s.lgc.fi.toNat)
  let d := ((List.range 16).filter (stnOn s)).foldl (fun d n =>
    memWrite d (0x1000 + 64 * n) ((List.range (rdf s lgcStncfg [n] 30 24)).map (siByte s n))) d
  let d := s.lgc.xi.foldl (fun d p => memWrite d (0x2000 + 4 * p.1) (leB 4 p.2.toNat)) d
  let d := memWrite d 0x3000 (sysIn s x)
  (forcesOf s).foldl forceInput d

/-- A cycle of task t starts; the task's shadowed fields commit at it. -/
def startCycle (s : State) (t : Nat) : State :=
  let s := commitFree s 14 t
  let s := if errTask s = some t then modLgc s fun l => { l with errStns := l.errPend, errPend := 0 } else s
  let s := xbarTaken (fun q => match q with | .logicXi _ => true | _ => false) s
  modTask s t fun x =>
    { x with
      state := 2, pc := 0, flag := false, stack := [], startAt := s.lgc.time, copyAt := s.lgc.time
      input := inputCopy s x
      edges := x.newEdges
      newEdges := (x.newEdges.map fun p => (p.1, { p.2 with rise := 0, fall := 0 })).filter fun p => p.2 != {}
      data := holdVars s t x.data, lostStns := 0 }

/-- TASK_START: the first task in order starts or resumes on a free lane, or preempts the running task of the lowest
priority when that is below its own (R355). -/
def execTaskStart (t : Fin 16) (s : State) : Out :=
  .next (
    if firstDue s ≠ some t.val then s
    else
      let free := decide ((runningTasks s).length < 8)
      if (task s t).state = 3 then
        if free && s.emb.power == .on then modTask s t fun x => { x with state := 2 } else s
      else if !lgcRuns s then s
      else if free then startCycle s t
      else match victim s with
        | some v =>
          if prioOf s t < prioOf s v then startCycle (modTask s v fun x => { x with state := 3 }) t else s
        | none => s)

/-- TASK_WATCHDOG: the cycle exceeds TWD (R356, R357). -/
def execTaskWatchdog (t : Fin 16) (s : State) : Out :=
  .next (
    let x := task s t
    if inR x.state 2 3 && decide (s.lgc.time > x.startAt + rd s lgcTwd [t.val]) then taskFault s t 1 else s)

/-! ### Retention (R367 to R369) -/

/-- Writes to the retained partition are open. -/
def lgcNvOpen (s : State) : Bool := s.emb.holdupOk && boardOk s && !s.lgc.nvDefer

/-- The number of 64-byte granules in which two data areas differ. -/
def granules (a b : Tab Byte) : Nat :=
  let ks := ((a.map (·.1)) ++ (b.map (·.1))).filter fun k => tget 0 a k != tget 0 b k
  ((ks.map (· / 64)).eraseDups).length

/-- Write a task's data of its END: 64 bytes take 2 µs; an END during a write of the previous one merges with it. -/
def nvWrite (s : State) (t : Nat) (d : Tab Byte) : State :=
  let x := task s t
  let now := s.lgc.time
  let us := 2 * granules x.wrData d
  if now < x.nvUntil then
    modTask (modLgc s fun l => { l with lag := inc16 l.lag }) t fun x =>
      { x with wrData := d, nvUntil := x.nvUntil + us, nvPend := none }
  else modTask s t fun x => { x with kept := x.wrData, wrData := d, nvUntil := now + us, nvPend := none }

/-- The retained write at an END; while writes are deferred, the data stays marked. -/
def nvEnd (s : State) (t : Nat) : State :=
  if s.emb.pfail then s
  else if lgcNvOpen s then nvWrite s t (task s t).data
  else
    modTask (lgcDeferNote s) t fun x => { x with nvPend := some x.data }

/-- LGC_NV_RESUME: HOLDUP_OK and the board back within its range; what was marked is written (R233, R369). -/
def execLgcNvResume (s : State) : Out :=
  .next (
    if awake s && s.lgc.nvDefer && s.emb.holdupOk && decide (-368 ≤ s.thm.board) && decide (s.thm.board ≤ 1328) then
      (List.range 16).foldl (fun s t =>
        match (task s t).nvPend with
        | some d => nvWrite s t d
        | none => s) (modLgc s fun l => { l with nvDefer := false })
    else s)

/-- Retained data after the engine stops: a write already started completes. `drop` says that SRAM goes, and with it the
changes that a deferral has kept there, which the next cold start records (R369). DEDUCED (assumption 54): EMBER and a cold start with
the supply present lose them as a power loss does. -/
def lgcSettle (s : State) (drop : Bool) : State :=
  modLgc s fun l =>
    { l with
      deferLost := l.deferLost || (drop && l.tasks.any fun p => p.2.nvPend.isSome)
      tasks := l.tasks.map fun p =>
        (p.1, { p.2 with kept := p.2.wrData, nvUntil := 0, nvPend := if drop then none else p.2.nvPend }) }

/-! ### END (R363, R364) -/

/-- The value of n bits of a task's output image in an area without stations. -/
def outVal (x : Task) (area b n : Nat) : Nat := bitsOf n fun j => outBit x area 0 (b + j)

/-- The stations whose outputs a set of keys holds. -/
def keyStns (keys : List Nat) : List Nat :=
  (List.range 16).filter fun n => keys.any fun k => decide (k / 0x100000 = 3) && decide (k / 65536 % 16 = n)

/-- A station is LOST, or became LOST since task t's input copy: the outputs of its END for it are discarded (R378). -/
def stnAway (s : State) (t n : Nat) : Bool := (stn s n).state == 3 || bitN (task s t).lostStns.toNat n

/-- An output set that is discarded counts; a station that is back takes outputs again (R378, R380). -/
def stnOutputs (t : Nat) (s : State) (n : Nat) : State :=
  if stnAway s t n then modStn s n fun y => { y with disc := inc16 y.disc } else modStn s n fun y => { y with noData := false }

/-- Queue the mode request of an END, unless the same request already waits. -/
def reqLogic (s : State) (t : Fin 16) (target : Mode) : State :=
  if s.emb.reqs.any fun r => r.src == .logic t && r.target == target then s else reqMode s target (.logic t)

/-- The outputs of an END enter the live image at one instant, with their effects. -/
def writeOutputs (s : State) (t : Fin 16) : State :=
  let x := task s t
  let keys := outKeys s t
  let before := s.lgc.sysOut.toNat
  let kept := keys.filter fun k => !(decide (k / 0x100000 = 3) && stnAway s t (k / 65536 % 16))
  let s := kept.foldl (fun s k => liveSet s k ((tget none x.outBuf k).getD false)) s
  let s := syncAux (applyOutForces s)
  let s := (keyStns keys).foldl (stnOutputs t) s
  let named := bitsOf 16 fun j => keys.contains (outKey 1 0 j)
  let s := modLgc s fun l => { l with fqNamed := l.fqNamed ||| BitVec.ofNat 16 named }
  let s := (List.finRange 32).foldl (fun s (n : Fin 32) =>
    if keys.any fun k => decide (k / 0x100000 = 5) && decide (k % 65536 / 32 = n.val) then
      xbar s (.logicXq n) (tget 0 s.lgc.xq n)
    else s) s
  let s := if bitN (outVal x 7 19 1) 0 then reqLogic s t (modeOf (outVal x 7 16 3)) else s
  let s := if bitN (outVal x 7 20 1) 0 then activity s else s
  (List.finRange 32).foldl (fun s n =>
    if keys.contains (outKey 7 0 (32 + n.val)) && bitN s.lgc.sysOut.toNat (32 + n.val) && !bitN before (32 + n.val) then
      raise s (.user n)
    else s) s

/-- The cycle ends: outputs, retained data, times, and the next trigger. -/
def endCycle (s : State) (t : Fin 16) : State :=
  let s := nvEnd (writeOutputs s t) t
  let s := if errTask s = some t.val then modLgc s fun l => { l with errStns := 0 } else s
  modTask s t fun x =>
    let dur := min 0xFFFF ((s.lgc.time - x.startAt) / 10)
    { x with
      state := 1, dueAt := if x.again then some s.lgc.time else none, again := false, stack := [], startCause := 0
      maxT := max x.maxT dur, lastT := dur, cycles := x.cycles + 1 }

/-- END: ends the cycle; outputs are written. -/
def execLgcEnd (t : Fin 16) (s : State) : Out := runIns 0x3F t (fun s _ _ => endCycle s t) s

/-! ### The cycles that still run when the engine stops (R536) -/

/-- The instructions by opcode (*Table: Instruction summary*). -/
def insTable : List (Nat × (Fin 16 → State → Out)) :=
  [(0x00, execLgcNop), (0x01, execLgcLd), (0x02, execLgcSt), (0x03, execLgcMovb), (0x08, execLgcAdd), (0x09,
   execLgcSub), (0x0A, execLgcMul), (0x0B, execLgcDiv), (0x0C, execLgcMod), (0x0D, execLgcNeg), (0x0E,
   execLgcAbs), (0x10, execLgcAnd), (0x11, execLgcOr), (0x12, execLgcXor), (0x13, execLgcNot), (0x14,
   execLgcShl), (0x15, execLgcShr), (0x16, execLgcRol), (0x17, execLgcRor), (0x18, execLgcCmp), (0x1C,
   execLgcMin), (0x1D, execLgcMax), (0x1E, execLgcLimit), (0x1F, execLgcSel), (0x20, execLgcJmp), (0x21,
   execLgcJc), (0x22, execLgcJnc), (0x23, execLgcCall), (0x24, execLgcRet), (0x28, execLgcCvt), (0x30,
   execLgcTmr), (0x31, execLgcTrig), (0x32, execLgcCtr), (0x34, execLgcRdedge), (0x38, execLgcSys), (0x3F,
   execLgcEnd)]

/-- The state that an instruction leaves. -/
def outState (s : State) : Out → State | .next t => t | _ => s

/-- The running task t's next instruction, or its fault. -/
def taskInstr (t : Fin 16) (s : State) : State :=
  let f : Fin 16 → State → Out := match fetch s t with
    | some i =>
      match insTable.find? fun p => p.1 == i.opc && insOk i with
      | some p => p.2
      | none => execUndefinedInstruction
    | none => execUndefinedInstruction
  outState s (f t s)

/-- A cycle of task t runs to its END; one that does not come to it in the instructions given meets its watchdog
(DESIGN CHOICE, assumption 75: no time passes here). -/
def runToEnd (t : Fin 16) : Nat → State → State
  | 0, s => taskFault s t 1
  | n + 1, s => if (task s t).state = 2 then runToEnd t n (taskInstr t s) else s

/-- No cycle starts, and those that run or are preempted end: the running ones first, each kind in the order of the
task numbers (DESIGN CHOICE, assumption 75). -/
def lgcFinish (s : State) : State :=
  let s := { s with lgc := { s.lgc with stopped := true } }
  let run (s : State) (t : Fin 16) : State := if (task s t).state = 2 then runToEnd t 65536 s else s
  let s := (List.finRange 16).foldl run s
  (List.finRange 16).foldl (fun s (t : Fin 16) =>
    if (task s t).state = 3 then run (modTask s t fun x => { x with state := 2 }) t else s) s

/-- Halted tasks start again at their next due instant, with their retained data, once the acknowledge of R61 is accepted
(R357); an error task that a station waits for is due at once (R379). -/
def resumeTasks (s : State) : State :=
  let err := if s.lgc.errPend ≠ 0 then errTask s else none
  modLgc s fun l =>
    { l with tasks := l.tasks.map fun p =>
        (p.1, if p.2.state = 4 then
            { p.2 with state := 1, cause := 0, data := p.2.nvPend.getD p.2.wrData
                       dueAt := if err = some p.1 then some l.time else none }
          else p.2) }

/-! ### Commands and forces (R370 to R372) -/

/-- LGC_RES. -/
def lgcRes (c : Code) (s : State) : State := modLgc s fun l => { l with res := c }

/-- The variable map entry of a SYMID, with its task. -/
def varOf (s : State) (sym : Word) : Option (Nat × VarEntry) :=
  (tasksOf s).findSome? fun p => (p.2.vars.find? fun v => v.symid == sym).map fun v => (p.1, v)

/-- A forcible image address (*Table: Image areas*). -/
def forcible (a : Nat) : Bool :=
  let area := fld a 31 28
  let b := fld a 15 0
  let stnFree := area == 2 || area == 3
  fld a 23 16 == 0 && (stnFree || fld a 27 24 == 0) &&
    (if area = 7 then decide (b < 16) else area != 6 && decide (b < areaBits area))

/-- What FORCE_SET would put into the table, or its code. -/
def forceTarget (s : State) : Option Force :=
  let a := rd s lgcFaddr []
  let v := rd s lgcFval []
  if a = 0xFFFFFFFF then
    match varOf s (wd (rd s lgcFsym [])) with
    | some (t, e) =>
      if e.ty = 4 ∨ e.ty = 8 ∨ e.ty ≥ 10 then none
      else some { kind := 2, orphan := false, overlap := false, task := t, addr := wd e.off, sym := e.symid
                  val := wd (v % 2 ^ tyBits e.ty), size := tyBits e.ty }
    | none => none
  else if forcible a then
    let n := areaUnit (fld a 31 28)
    some { kind := 1, orphan := false, overlap := false, task := 0, addr := wd a, sym := 0, val := wd (v % 2 ^ n), size := n }
  else none

/-- The entry that a force takes: that of the same target, or the first empty one. -/
def forceEntry (s : State) (f : Force) : Option Nat :=
  match s.lgc.forces.find? fun p => match p.2 with
    | some g => g.kind == f.kind && g.task == f.task && g.addr == f.addr && g.sym == f.sym
    | none => false with
  | some p => some p.1
  | none => (List.range 256).find? fun e => (tget none s.lgc.forces e).isNone

/-- The FORCE attention event and the record of a set or clear (R371). -/
def noteForce (s : State) (e : Nat) (f : Force) (set : Bool) : State :=
  allEvent (stage s .logicForce bLGC sevWarning
    ([BitVec.ofNat 8 e, BitVec.ofNat 8 (flag set 0)] ++ leB 4 (if f.kind = 2 then f.sym else f.addr).toNat ++
      leB 4 f.val.toNat)) 6 e

/-- FORCE_SET. -/
def opForceSet (s : State) : Code × State :=
  match forceTarget s with
  | none => refuse (firstCode [when_ (s.emb.mode != .maintenance) .refusedMode, .range]) s
  | some f =>
    let e := forceEntry s f
    let c := firstCode [when_ (s.emb.mode != .maintenance) .refusedMode, when_ e.isNone .full]
    ifOk c s fun s =>
      let e := e.getD 0
      let s := modLgc s fun l => { l with forces := tset none l.forces e (some f), entry := e }
      let s := syncAux (applyOutForces s)
      (.ok, noteForce { s with emb := { s.emb with forceAcked := false } } e f true)

/-- Clear one entry. -/
def clearForce (s : State) (e : Nat) : State :=
  match tget none s.lgc.forces e with
  | some f => noteForce (modLgc s fun l => { l with forces := tset none l.forces e none }) e f false
  | none => s

/-- FORCE_CLR; an empty entry is no force to clear. -/
def opForceClr (e : Nat) (s : State) : Code × State :=
  ifOk (when_ (tget none s.lgc.forces e).isNone .range) s fun s => (.ok, clearForce s e)

/-- FORCE_CLR_ALL. -/
def opForceClrAll (s : State) : Code × State :=
  okCmd ((s.lgc.forces.map (·.1)).foldl clearForce s)

/-- CLR_CNT: OVF, DIV0, OVR, LAG, DISC, BADFR, and the longest cycle. -/
def opLgcClrCnt (s : State) : Code × State :=
  okCmd (modLgc s fun l =>
    { l with
      lag := 0
      tasks := l.tasks.map fun p => (p.1, { p.2 with ovf := false, div0 := false, ovr := 0, maxT := 0 })
      stns := l.stns.map fun p => (p.1, { p.2 with disc := 0, badFr := 0 }) })

/-- OLC_APPLY: the verification of the incoming slot begins; its completion goes on with R373. -/
def opOlcApply (w : Win) (s : State) : Code × State :=
  let modeOk := s.emb.mode == .standby || s.emb.mode == .connected || s.emb.mode == .maintenance || s.emb.mode == .safeStop
  let c := firstCode
    [when_ (!modeOk) .refusedMode, when_ (s.lgc.olc.isSome || s.crd.verifying.isSome || s.upd.confRun || s.upd.fbDue) .busy]
  ifOk c s fun s => (.busy, { s with crd := { s.crd with verifying := some (.olc w) } })

/-- Right for OP of LGC_CMD (R371, R373). -/
def lgcRight (w : Win) (op : Nat) : State → Bool := if inR op 1 3 then rightOne w rMaint else rightOne w rCfg

/-- FORCE_SET. -/
def execForceSet (w : Win) (s : State) : Out := .next (hostCmd w 0xE0000 (cmdReq (lgcRight w 1) lgcRes opForceSet) s)

/-- FORCE_CLR. -/
def execForceClr (w : Win) (index : Byte) (s : State) : Out :=
  .next (hostCmd w 0xE0000 (cmdReq (lgcRight w 2) lgcRes (opForceClr index.toNat)) s)

/-- FORCE_CLR_ALL. -/
def execForceClrAll (w : Win) (s : State) : Out :=
  .next (hostCmd w 0xE0000 (cmdReq (lgcRight w 3) lgcRes opForceClrAll) s)

/-- OLC_APPLY as a request: accepted with LGC_RES reading BUSY until the change ends. -/
def olcReq (w : Win) (s : State) : Code × State :=
  if lgcRight w 4 s then
    let free := s.lgc.olc.isNone && s.crd.verifying.isNone && !s.upd.confRun && !s.upd.fbDue
    let (c, t) := opOlcApply w s
    (if c = .busy ∧ free then .ok else c, lgcRes c t)
  else (.refusedRights, lgcRes .refusedRights s)

/-- OLC_APPLY. -/
def execOlcApply (w : Win) (s : State) : Out := .next (hostCmd w 0xE0000 (olcReq w) s)

/-- LGC_CMD CLR_CNT. -/
def execLgcClrCnt (w : Win) (s : State) : Out := .next (hostCmd w 0xE0000 (cmdReq (lgcRight w 5) lgcRes opLgcClrCnt) s)

/-! ### Online change (R374, R375) -/

/-- The whole initial data of a map. -/
def initData (vars : List VarEntry) : Tab Byte := vars.foldl (fun d v => memWrite d v.off (padTo v.size v.init)) []

/-- Carry variables whose SYMID and TYPE are in both maps to their new offsets; the others start from the map. -/
def carry (old new : List VarEntry) (d : Tab Byte) : Tab Byte :=
  if old = new then d
  else new.foldl (fun r v =>
    match old.find? fun o => o.symid == v.symid && o.ty == v.ty with
    | some o => memWrite r v.off (memRead d o.off (min v.size o.size))
    | none => r) (initData new)

/-- TWD of a task header; 0 stands for the default: 2 × CYCLE, and 10 ms for an event task (R356). -/
def taskWatch (i : TaskImage) : Nat := if i.twd ≠ 0 then i.twd else if i.cycle = 0 then 10000 else 2 * i.cycle

/-- LGC_TCFG, LGC_TWD and LGC_TOFF of a task, from its header (R359). -/
def loadTaskRegs (s : State) (t : Nat) (i : TaskImage) : State :=
  wr (wr (wr s lgcTcfg 0 [t] (2 ^ 31 + place i.prio 27 24 + place i.cycle 23 0)) lgcTwd 0 [t] (taskWatch i)) lgcToff 0 [t]
    (place i.offset 23 0)

/-- The variable map of a task in a list of images. -/
def mapOf (l : List (Nat × TaskImage)) (t : Nat) : List VarEntry :=
  match l.find? fun p => p.1 == t with | some p => p.2.vars | none => []

/-- The entry of the new map for a variable whose SYMID and TYPE are in both maps (R374). -/
def survivor (old new : List VarEntry) (sym : Word) : Option VarEntry :=
  match old.find? fun o => o.symid == sym with
  | some o => new.find? fun v => v.symid == sym && v.ty == o.ty
  | none => none

/-- A force on a variable after an online change: moved, or orphaned, with OVERLAP where the new map covers it. -/
def moveForce (old new : List (Nat × TaskImage)) (f : Force) : Force :=
  if f.kind ≠ 2 then f
  else
    let vars := mapOf new f.task
    match if f.orphan then none else survivor (mapOf old f.task) vars f.sym with
    | some v => { f with addr := wd v.off }
    | none =>
      let lo := f.addr.toNat
      { f with orphan := true
               overlap := vars.any fun v => decide (v.off < lo + (f.size + 7) / 8) && decide (lo < v.off + v.size) }

/-- One task at the switch. -/
def switchTask (old new : List (Nat × TaskImage)) (s : State) (t : Nat) : State :=
  let o := (old.find? fun p => p.1 == t).map (·.2)
  let n := (new.find? fun p => p.1 == t).map (·.2)
  match n with
  | none =>
    if o.isNone then s
    else modTask (wr s lgcTcfg 0 [t] (place 15 27 24)) t fun x => { x with state := 0, dueAt := none, outBuf := [] }
  | some i =>
    if o = some i then s
    else
      let s := loadTaskRegs s t i
      let keys := listedOuts i.iou
      let now := lgcNvOpen s
      modTask s t fun x =>
        let d := carry x.vars i.vars x.data
        let old := carry x.vars i.vars x.wrData
        { x with
          state := if x.state = 4 then 4 else 1
          startCause := 3, data := d, wrData := if now then d else old, kept := if now then d else old
          nvPend := if now then none else some d, vars := i.vars, nvUntil := 0
          outBuf := x.outBuf.filter fun p => keys.contains p.1
          dueAt := if i.cycle = 0 then x.dueAt else none }

/-- The switch of an online change, all tasks at one quiet instant; the billets of the new Cord are in place. -/
def lgcSwitch (s : State) (old new : List (Nat × TaskImage)) : State :=
  let oldOuts := (List.range 16).flatMap fun t => (task s t).outBuf.map (·.1)
  let listed := old.flatMap fun p => listedOuts p.2.iou
  let newOuts := new.flatMap fun p => listedOuts p.2.iou
  let gone := (listed ++ oldOuts).eraseDups.filter fun k => !newOuts.contains k
  let s := (List.range 16).foldl (switchTask old new) s
  let s := modLgc s fun l => { l with forces := l.forces.map fun p => (p.1, p.2.map (moveForce old new)) }
  let carried := (new.map fun p => p.2.dataLen).foldl (· + ·) 0
  let s := modLgc s fun l => { l with holdUntil := l.time + 20 + carried / 8192, olcGen := (l.olcGen + 1) % 256 }
  zeroOuts s gone

/-! ### Remote I/O stations (R376 to R380) -/

/-- A station's change of state on its ring: 1 LOST, 2 RUNNING, 3 STARTED. -/
def stnEvent (s : State) (n type : Nat) : State :=
  ringPush s (44 + n / 4) (inlineDesc type n [BitVec.ofNat 8 n])

/-- SPER in µs. -/
def sper (s : State) (n : Nat) : Nat := 1000 * rdf s lgcStncfg [n] 6 0

/-- SWD in µs. -/
def swd (s : State) (n : Nat) : Nat := rdf s lgcStncfg [n] 16 13 * sper s n

/-- CRC of a station frame: over STN_ID and the bytes before it. -/
def stnCrc (s : State) (n : Nat) (body : List Byte) : Nat := crc32c (leB 4 (rd s lgcStnid [n]) ++ body)

/-- STATION_OUTPUT_FRAME: every SPER, with NO_DATA until an END has written the station's outputs (R376, R380). -/
def execStationOutputFrame (n : Fin 16) (s : State) : Out :=
  .next (
    let y := stn s n
    if !stnOn s n || !awake s || y.state == 0 || decide (s.now < y.lastTx + sper s n) then s
    else
      let len := rdf s lgcStncfg [n.val] 23 17
      let q := (y.txSeq + 1) % 65536
      let body := [BitVec.ofNat 8 n.val, 1] ++ leB 2 q ++ [BitVec.ofNat 8 len, BitVec.ofNat 8 (flag y.noData 0), 0, 0] ++
        memRead s.lgc.sq (64 * n.val) len
      send (modStn s n fun y => { y with txSeq := q, lastTx := s.now }) (ifStn n.val) (body ++ leB 4 (stnCrc s n body)))

/-- A frame is acceptable: CRC, kind, station, declared length, newer SEQ (R352, R377). -/
def stnFrameOk (s : State) (n : Nat) (bytes : List Byte) : Bool :=
  let len := rdf s lgcStncfg [n] 30 24
  let q := getLe bytes 2 2
  let newer := match (stn s n).rxSeq with
    | none => true
    | some o => inR ((q + 65536 - o) % 65536) 1 32767
  bytes.length == 12 + len && byteAt bytes 0 == n && byteAt bytes 1 == 2 && byteAt bytes 4 == len &&
    getLe bytes (8 + len) 4 == stnCrc s n (bytes.take (8 + len)) && newer

/-- Inputs of a station enter the live image; one that is LOST keeps what tasks read until it is RUNNING. -/
def stnInputs (s : State) (n : Nat) (d : List Byte) : State :=
  modLgc s fun l =>
    let live := memWrite l.siLive (64 * n) d
    { l with siLive := live, si := if (tget {} l.stns n).state = 3 then l.si else memWrite l.si (64 * n) d }

/-- STATION_INPUT_FRAME: accepted, or discarded and counted; the second consecutive one makes the station RUNNING. -/
def execStationInputFrame (n : Fin 16) (bytes : List Byte) (s : State) : Out :=
  .next (
    if !stnOn s n || !awake s || (stn s n).state == 0 then s
    else if !stnFrameOk s n bytes then modStn s n fun y => { y with badFr := inc16 y.badFr, run := 0 }
    else
      let y := stn s n
      let nowRuns := y.state != 2 && decide (y.run + 1 ≥ 2)
      let s := modStn s n fun y =>
        { y with rxSeq := some (getLe bytes 2 2), last := s.now, run := min 2 (y.run + 1)
                 state := if nowRuns then 2 else y.state }
      let s := if bitN (byteAt bytes 5) 0 then s
        else stnInputs s n ((bytes.drop 8).take (rdf s lgcStncfg [n.val] 30 24))
      if nowRuns then stnEvent s n 2 else s)

/-- STATION_LOST: SWD has passed without an accepted frame; the error task falls due (R377 to R379). As in R352, the next
frame with a correct CRC sets the last accepted SEQ (DEDUCED, assumption 54). -/
def execStationLost (n : Fin 16) (s : State) : Out :=
  .next (
    let y := stn s n
    if !stnOn s n || !awake s || !inR y.state 1 2 || decide (s.now < y.last + swd s n) then s
    else
      let s := modStn s n fun y => { y with state := 3, lostCnt := inc16 y.lostCnt, run := 0, noData := true, rxSeq := none }
      let s := modLgc s fun l => { l with tasks := l.tasks.map fun p =>
        (p.1, if inR p.2.state 2 3 then { p.2 with lostStns := p.2.lostStns ||| BitVec.ofNat 16 (2 ^ n.val) } else p.2) }
      let s := stage (stnEvent s n 1) .logicStationLost bLGC sevWarning [BitVec.ofNat 8 n.val]
      match errTask s with
      | none => s
      | some t =>
        let s := modLgc s fun l => { l with errPend := l.errPend ||| BitVec.ofNat 16 (2 ^ n.val) }
        modTask s t fun x =>
          if x.state = 1 then { x with dueAt := some ((x.dueAt).getD s.lgc.time) }
          else if inR x.state 2 3 then { x with again := true }
          else x)

/-! ### Registers that only the engine writes -/

/-- LGC_STAT. -/
def lgcStat (s : State) : Nat :=
  let run := (List.range 16).any fun t => taskOn s t && inR (task s t).state 1 3
  flag (run && awake s && !s.lgc.stopped) 31 + flag s.lgc.olc.isSome 30 +
    flag (s.lgc.nvDefer || !s.emb.holdupOk || !boardOk s) 29 + place (forcesOf s).length 24 16 +
    ((forcesOf s).filter (·.orphan)).length

/-- LGC_OLC. -/
def lgcOlc (s : State) : Nat := s.lgc.olcRes.num * 2 ^ 24 + place s.lgc.olcWait 23 8 + s.lgc.olcGen

/-- LGC_NV. -/
def lgcNv (s : State) : Nat := s.lgc.lag * 65536 + s.lgc.deferCnt

/-- LGC_TSTATt. -/
def lgcTstat (s : State) (t : Nat) : Nat :=
  let x := task s t
  place x.state 31 28 + place x.cause 27 24 + flag x.ovf 23 + flag x.div0 22 + x.ovr

/-- LGC_TTIMEt. -/
def lgcTtime (s : State) (t : Nat) : Nat := (task s t).maxT * 65536 + (task s t).lastT

/-- LGC_STNSTATs. -/
def lgcStnstat (s : State) (n : Nat) : Nat := place (stn s n).state 31 28 + (stn s n).lostCnt

/-- LGC_STNCNTs. -/
def lgcStncnt (s : State) (n : Nat) : Nat := (stn s n).disc * 65536 + (stn s n).badFr

/-- Word i of force table entry e. -/
def lgcFtab (s : State) (e i : Nat) : Nat :=
  match tget none s.lgc.forces e with
  | none => 0
  | some f =>
    match i with
    | 0 => place f.kind 31 28 + flag f.orphan 27 + flag f.overlap 26 + place f.task 19 16
    | 1 => f.addr.toNat
    | 2 => f.sym.toNat
    | _ => f.val.toNat

/-! ### Start of the engines -/

/-- What a start of the engine leaves of a task: its retained data; a restart keeps the counts and what a deferral holds. -/
def Task.clean (x : Task) (b : EngineBegin) : Task :=
  if b = .restart then
    { kept := x.kept, wrData := x.kept, vars := x.vars, nvPend := x.nvPend, ovf := x.ovf, div0 := x.div0, ovr := x.ovr
      maxT := x.maxT, lastT := x.lastT, cycles := x.cycles, reqRes := x.reqRes }
  else { kept := x.kept, wrData := x.kept, vars := x.vars }

/-- A task as the engine starts, with its retained data (R358, R367). -/
def startTask (s : State) (t : Nat) (i : TaskImage) (b : EngineBegin) : State :=
  modTask s t fun x =>
    let d := carry x.vars i.vars x.kept
    { x with
      state := if bitN (rd s lgcTcfg [t]) 31 then 1 else 0
      data := (x.nvPend.map (carry x.vars i.vars)).getD d, nvPend := x.nvPend.map (carry x.vars i.vars)
      kept := d, wrData := d, vars := i.vars
      startCause := if b = .cold then 1 else 2
      outBuf := (listedOuts i.iou).foldl (fun o k => tset none o k (some false)) [] }

/-- A declared station starts (R377). -/
def startStn (s : State) (n : Nat) : State :=
  if stnOn s n then stnEvent (modStn s n fun _ => { state := 1, last := s.now }) n 3 else s

/-- The engine starts. Retained data, forces, the time base and LGC_NV stay; forces present at a cold start wait for
FORCE_ACK (R372). -/
def lgcStart (s : State) (b : EngineBegin) : State :=
  let l := s.lgc
  let base : Lgc :=
    { tasks := l.tasks.map fun p => (p.1, p.2.clean b)
      forces := l.forces, time := l.time, lag := l.lag, deferCnt := l.deferCnt
      deferLost := l.deferLost && b != .cold, olcGen := if b = .cold then 0 else l.olcGen }
  let s := { s with lgc := if b = .restart then
    { base with res := l.res, entry := l.entry, nvDefer := l.nvDefer, olcRes := l.olcRes, olcWait := l.olcWait
                codeTop := l.codeTop, fi := l.fi, xi := l.xi } else base }
  let s := (tasksOf s).foldl (fun s p => startTask s p.1 p.2 b) s
  let s := if l.deferLost ∧ b = .cold then stage s .logicNvLost bLGC sevFault [] else s
  let s := (List.range 16).foldl startStn s
  let s := lgcDeferNote (syncAux (applyOutForces s))
  if b = .cold then { s with emb := { s.emb with forceAcked := !forcesActive s } } else s

end Sys2Proof.Machine
end

