-- ==== Sys2Proof/Machine/Fio.lean ====
section
/-!
DEFINITION. Isolated field inputs and outputs (chapter 14): the section behind the isolation link, debounce and edge
catchers, overload, FL+ monitoring, and the live FI image.
-/

namespace Sys2Proof.Machine

/-- BLOCK code of FIO. -/
def bFIO : Byte := 0x0F

/-- Change the block. -/
def modFio (s : State) (f : Fio → Fio) : State := { s with fio := f s.fio }

/-- A field input. -/
def fin (s : State) (n : Nat) : FioIn := tget {} s.fio.ins n

/-- Change a field input. -/
def modFin (s : State) (n : Nat) (f : FioIn → FioIn) : State := modFio s fun x => { x with ins := tmod {} x.ins n f }

/-- A field output. -/
def fout (s : State) (j : Nat) : FioOut := tget {} s.fio.outs j

/-- Change a field output. -/
def modFout (s : State) (j : Nat) (f : FioOut → FioOut) : State := modFio s fun x => { x with outs := tmod {} x.outs j f }

/-- The section's engine runs on the module side: awake and not stopped under R37. -/
def fioStopped (s : State) : Bool := s.kln.stopped.contains .fieldIo

/-- Inputs take substitutes: before the link's first eight frames, in a section fault, without FL+, after an internal
fault (R37, R389, R392, R394). -/
def fioSubst (s : State) : Bool := !s.fio.live || s.fio.linkFlt || s.fio.flMissing || fioStopped s

/-- The live FI image (R391). -/
def liveFi (s : State) : Nat :=
  let subst := fioSubst s
  bitsOf 32 fun n =>
    if subst then (if bitN (rd s fioSubm []) n then bitN (rd s fioSubv []) n else bitN s.fio.hold.toNat n)
    else (fin s n).deb

/-- Bring the live FI image up to date. -/
def refreshFi (s : State) : State := modLgc s fun l => { l with fi := BitVec.ofNat 32 (liveFi s) }

/-! ### Debounce and edges (R383, R384) -/

/-- DB of an input in µs. -/
def fioDbUs (s : State) (n : Nat) : Nat :=
  match rdf s fioDb [n] 17 16 with
  | 1 => rdf s fioDb [n] 15 0
  | 2 => 1000 * rdf s fioDb [n] 15 0
  | _ => 0

/-- The debounced value becomes the raw value; the edge is stamped at the start of the stable run. -/
def debounced (s : State) (n : Nat) : State :=
  let x := fin s n
  let stamp := s.lgc.time - (s.now - x.runStart.getD s.now)
  modFin s n fun x =>
    if x.raw then { x with deb := true, runStart := none, rise := min 15 (x.rise + 1), riseAt := stamp }
    else { x with deb := false, runStart := none, fall := min 15 (x.fall + 1), fallAt := stamp }

/-- DEBOUNCE_CHANGE: the raw value has differed from the debounced value for DB (R383). -/
def execDebounceChange (n : Fin 32) (s : State) : Out :=
  .next (
    let x := fin s n
    match x.runStart with
    | some t => if awake s && !fioStopped s && x.raw != x.deb && decide (s.now ≥ t + fioDbUs s n) then debounced s n else s
    | none => s)

/-- A run that has lasted for DB by the instant t changes the debounced value. -/
def settleRun (t : Nat) (s : State) (n : Nat) : State :=
  let x := fin s n
  match x.runStart with
  | some r => if x.raw != x.deb && decide (t ≥ r + fioDbUs s n) then debounced s n else s
  | none => s

/-- A raw sample at the instant t: it starts or ends a run; with debounce off the debounced value follows at once. -/
def rawSample (t : Nat) (raw : BitVec 32) (s : State) (n : Nat) : State :=
  let v := bitN raw.toNat n
  let s := modFin (settleRun t s n) n fun x =>
    { x with raw := v, runStart := if v = x.deb then none else some (x.runStart.getD t) }
  if v != (fin s n).deb && fioDbUs s n == 0 then debounced s n else s

/-- One sample of every input. -/
def rawSamples (s : State) (p : Nat × BitVec 32) : State :=
  (List.range 32).foldl (rawSample (s.now - p.1) p.2) s

/-- An input's edges reach every task's view (R366). -/
def viewEdges (x : FioIn) (e : EdgeView) : EdgeView :=
  { rise := min 255 (e.rise + x.rise), fall := min 255 (e.fall + x.fall)
    riseAt := if x.rise > 0 then x.riseAt else e.riseAt
    fallAt := if x.fall > 0 then x.fallAt else e.fallAt }

/-- The inputs with edges since the last frame. -/
def edgeInputs (s : State) : List Nat := (s.fio.ins.filter fun p => p.2.rise + p.2.fall > 0).map (·.1)

/-- The edges of the frame enter the views; in a section fault they do not. -/
def deliverEdges (s : State) : State :=
  let ns := edgeInputs s
  let s := if s.fio.linkFlt || !s.fio.live then s
    else (tasksOf s).foldl (fun s p =>
      modTask s p.1 fun x =>
        { x with newEdges := ns.foldl (fun l n => tmod {} l n (viewEdges (fin s n))) x.newEdges }) s
  ns.foldl (fun s n => modFin s n fun x => { x with rise := 0, fall := 0 }) s

/-- The edges of a frame that never arrives are lost (R384). -/
def loseEdges (s : State) : State :=
  let ns := edgeInputs s
  if ns.isEmpty then s
  else modFio (ns.foldl (fun s n => modFin s n fun x => { x with rise := 0, fall := 0 }) s) fun x =>
    { x with edgeLost := true }

/-! ### The isolation link (R388 to R390) -/

/-- The output bits of the module's next frame (R37, R389, R390, R394). -/
def fioOutBits (s : State) : BitVec 16 :=
  if s.fio.linkFlt || s.fio.fltHeld || fioStopped s then 0 else s.lgc.fq &&& s.lgc.fqNamed

/-- The section lets output j be on: commanded in the latest accepted frame, link and field supply there. -/
def outAllowed (s : State) (j : Nat) : Bool := bitN s.fio.txOut.toNat j && !s.fio.secOff && !s.fio.flMissing

/-- Switch an output; a retry under way that ends before it has held falls due again (R386). -/
def FioOut.switch (o : FioOut) (now : Nat) (v : Bool) : FioOut :=
  { o with on := v, onAt := if v && !o.on then now else o.onAt, tryAt := if o.ovl && o.on && !v then some now else o.tryAt }

/-- The section drives one output from the latest accepted frame; an overloaded one waits for its retry. -/
def driveOut (s : State) (j : Nat) : State :=
  modFout s j fun o => o.switch s.now (outAllowed s j && (!o.ovl || o.on))

/-- The section drives every output. -/
def driveOuts (s : State) : State := (List.range 16).foldl driveOut s

/-- FIO_FRAME_SEND: every 25 µs. The shadowed fields commit at it, and the live image follows the substitutes. The section switches its outputs off at the third frame in a row that does not arrive,
and follows again from the frame after the eighth accepted one. -/
def execFioFrameSend (arrives : Bool) (s : State) : Out :=
  .next (
    let due := match s.fio.lastTx with
      | some t => decide (s.now ≥ t + 25)
      | none => true
    if !awake s || !due then s
    else
      let s := refreshFi (commitFree s 15 0)
      let out := fioOutBits s
      let q := s.fio.txSeq + 1
      let body := q :: leB 2 out.toNat
      let s := send (modFio s fun x => { x with txSeq := q, lastTx := some s.now }) ifFio (body ++ leB 2 (crc16 body))
      if arrives then
        driveOuts (modFio s fun x =>
          { x with secOff := x.secOff && decide (x.secGoodRun < 8), secGoodRun := min 8 (x.secGoodRun + 1), secBadRun := 0
                   txOut := out })
      else
        driveOuts (modFio s fun x =>
          let bad := min 3 (x.secBadRun + 1)
          { x with secBadRun := bad, secGoodRun := 0, secOff := x.secOff || decide (bad ≥ 3) }))

/-- A bad or missing frame; at the third in a row a section fault is declared (R389). DEDUCED (assumption 77) from the worked example, in
which no edge is named: EDGE_LOST sets with the section fault. -/
def fioBad (s : State) : State :=
  let s := loseEdges (modFio s fun x => { x with badRun := min 3 (x.badRun + 1), goodRun := 0, slots := x.slots + 1 })
  if s.fio.badRun ≥ 3 ∧ s.fio.live ∧ !s.fio.linkFlt then
    let s := modFio s fun x => { x with linkFlt := true, fltCnt := inc16 x.fltCnt, edgeLost := true }
    stage (raise (refreshFi s) .fioFault) .fioLinkFault bFIO sevFault []
  else s

/-- FIO_FRAME_MISSING: none has ended within 27 µs of the last accepted one, once for each 25 µs slot. -/
def execFioFrameMissing (s : State) : Out :=
  .next (
    if !awake s || s.fio.lastSeq.isNone || decide (s.now < s.fio.lastAt + 27 + 25 * s.fio.slots) then s
    else fioBad (modFio s fun x => { x with miss := inc16 x.miss }))

/-- The sequence number expected in the present slot. -/
def fioExpected (s : State) : Option Nat :=
  s.fio.lastSeq.map fun q => (q + (s.now - s.fio.lastAt + 12) / 25) % 256

/-- Diagnostics of one output at an accepted frame: HIGH_OFF, and the end of an overload whose retry has held. -/
def outDiag (s : State) (readback : BitVec 16) (j : Nat) : State :=
  let high := bitN readback.toNat j
  let cmd := bitN s.fio.txOut.toNat j
  let ovlT := 1000 * rdf s fioCfg [] 22 16
  modFout s j fun o =>
    let hr := if high && !cmd then min 4 (o.highRun + 1) else 0
    let lr := if high then 0 else min 4 (o.lowRun + 1)
    { o with highRun := hr, lowRun := lr, highOff := decide (hr ≥ 4) || o.highOff && decide (lr < 4)
             ovl := o.ovl && !(o.on && decide (s.now ≥ o.ovlAt + ovlT)) }

/-- FL+ as a frame reports it, in 10 mV (R392). -/
def flMeasure (s : State) (v : Nat) : State :=
  let since (b : Bool) (o : Option Nat) : Option Nat := if b then some (o.getD s.now) else none
  let s := modFio s fun x =>
    { x with vfl := v, lowRun := if v < 1000 then min 4 (x.lowRun + 1) else 0
             lowSince := since (decide (v < 1920)) x.lowSince, okSince := since (decide (v ≥ 1920)) x.okSince
             ok18Since := since (decide (v ≥ 1800)) x.ok18Since }
  if s.fio.lowRun ≥ 4 ∧ !s.fio.flMissing then
    driveOuts (stage (modFio s fun x => { x with flMissing := true }) .fioFlMissing bFIO sevWarning (leB 2 v))
  else s

/-- The section fault clears at the eighth accepted frame in a row, when the section reports eight as well (R390); at
the start of the link the inputs go live at the eighth (R394). -/
def fioGood (s : State) : State :=
  if s.fio.linkFlt ∧ s.fio.goodRun ≥ 8 ∧ s.fio.secGoodRun ≥ 8 then
    let s := modFio s fun x => { x with linkFlt := false, fltHeld := bitN (rd s fioCfg []) 31 }
    stage s .fioLinkRestored bFIO sevInfo []
  else if !s.fio.live ∧ s.fio.goodRun ≥ 8 then modFio s fun x => { x with live := true }
  else s

/-- FIO_FRAME_RECEIVE: a frame of the section is accepted, or bad (R388). -/
def execFioFrameReceive (f : FioFrame) (s : State) : Out :=
  .next (
    if !awake s || fioStopped s then s
    else
      let s := rawSamples (f.samples.foldl rawSamples s) (0, f.raw)
      let seqOk := match fioExpected s with
        | none => true
        | some q => q == f.seq.toNat
      if !f.crcOk || !f.lenOk || !seqOk then fioBad (modFio s fun x => { x with bad := inc16 x.bad })
      else
        let s := modFio s fun x =>
          { x with lastSeq := some f.seq.toNat, lastAt := s.now, slots := 0, badRun := 0, goodRun := min 8 (x.goodRun + 1) }
        let s := flMeasure ((List.range 16).foldl (fun s j => outDiag s f.readback j) s) f.vfl
        let s := fioGood (deliverEdges s)
        let s := if fioSubst s then s
          else modFio s fun x => { x with hold := BitVec.ofNat 32 (bitsOf 32 fun n => (tget {} x.ins n).deb) }
        refreshFi s)

/-! ### FL+ and overloads (R386, R392) -/

/-- FL_LOW_DETECT: FL+ below 19.2 V for 10 ms. -/
def execFlLowDetect (s : State) : Out :=
  .next (
    match s.fio.lowSince with
    | some t =>
      if awake s && !s.fio.flLow && decide (s.now ≥ t + 10000) then
        stage (modFio s fun x => { x with flLow := true }) .fioFlLow bFIO sevWarning (leB 2 s.fio.vfl)
      else s
    | none => s)

/-- FL_RECOVER: FL+ at its threshold for 100 ms. -/
def execFlRecover (s : State) : Out :=
  .next (
    let done (o : Option Nat) : Bool := match o with
      | some t => decide (s.now ≥ t + 100000)
      | none => false
    if !awake s then s
    else
      let s := modFio s fun x =>
        { x with flMissing := x.flMissing && !done x.ok18Since, flLow := x.flLow && !done x.okSince }
      refreshFi s)

/-- OUTPUT_OVERLOAD: an output has stayed in current limit for OVL_T, and so has been on for that time. -/
def execOutputOverload (j : Fin 16) (s : State) : Out :=
  .next (
    let o := fout s j
    if !awake s || !o.on || decide (s.now < o.onAt + 1000 * rdf s fioCfg [] 22 16) then s
    else
      let retry := rdf s fioCfg [] 9 0
      let s := modFout s j fun o =>
        { o with on := false, ovl := true, ovlAt := s.now
                 tryAt := if retry = 0 then none else some (s.now + 100000 * retry) }
      if o.ovl then s else stage s .fioOverload bFIO sevWarning [BitVec.ofNat 8 j.val])

/-- Switch an overloaded output on again: at once while the image commands it on, else as soon as it does (R386). -/
def retryOut (s : State) (j : Nat) : State :=
  modFout s j fun o =>
    if !o.ovl || o.on then o
    else if outAllowed s j then { o with on := true, onAt := s.now, ovlAt := s.now, tryAt := none }
    else { o with tryAt := some s.now }

/-- OUTPUT_RETRY: RETRY after the overload, while the image still commands the output on. -/
def execOutputRetry (j : Fin 16) (s : State) : Out :=
  .next (
    match (fout s j).tryAt with
    | some t => if awake s && outAllowed s j && decide (s.now ≥ t) then retryOut s j else s
    | none => s)

/-! ### Commands -/

/-- FIO_RES. -/
def fioRes (c : Code) (s : State) : State := modFio s fun x => { x with res := c }

/-- The right of FIO_CMD. -/
def fioRight (w : Win) : State → Bool := rightOne w rMaint

/-- FLT_ACK. -/
def opFltAck (s : State) : Code × State :=
  ifOk (when_ s.fio.linkFlt .refusedMode) s fun s => okCmd (modFio s fun x => { x with fltHeld := false })

/-- OVL_ACK. -/
def opOvlAck (mask : Nat) (s : State) : Code × State :=
  okCmd (((List.range 16).filter (bitN mask)).foldl retryOut s)

/-- CLR_CNT. -/
def opFioClrCnt (s : State) : Code × State := okCmd (modFio s fun x => { x with bad := 0, miss := 0, fltCnt := 0 })

/-- FIO_CMD FLT_ACK (R390). -/
def execFltAck (w : Win) (s : State) : Out := .next (hostCmd w 0xF0000 (cmdReq (fioRight w) fioRes opFltAck) s)

/-- FIO_CMD OVL_ACK (R386). -/
def execOvlAck (w : Win) (mask : BitVec 16) (s : State) : Out :=
  .next (hostCmd w 0xF0000 (cmdReq (fioRight w) fioRes (opOvlAck mask.toNat)) s)

/-- FIO_CMD CLR_CNT. -/
def execFioClrCnt (w : Win) (s : State) : Out := .next (hostCmd w 0xF0000 (cmdReq (fioRight w) fioRes opFioClrCnt) s)

/-! ### Registers that only the block writes -/

/-- FIO_STAT. -/
def fioStat (s : State) : Nat :=
  let x := s.fio
  flag x.linkFlt 31 + flag x.fltHeld 30 + flag x.flMissing 29 + flag x.flLow 28 + flag x.edgeLost 27 +
    flag (x.live && !x.linkFlt && awake s) 26 + x.fltCnt

/-- FIO_FIRAW. -/
def fioFiraw (s : State) : Nat := bitsOf 32 fun n => (fin s n).raw

/-- FIO_FQ. -/
def fioFq (s : State) : Nat := bitsOf 16 fun j => (fout s j).on

/-- FIO_OSTAT. -/
def fioOstat (s : State) : Nat :=
  bitsOf 16 (fun j => (fout s j).highOff) * 65536 + bitsOf 16 fun j => (fout s j).ovl

/-- FIO_LERR. -/
def fioLerr (s : State) : Nat := s.fio.bad * 65536 + s.fio.miss

/-- A write of 1 to EDGE_LOST clears it. -/
def fioStatClr (s : State) (v : Nat) : State := if bitN v 27 then modFio s fun x => { x with edgeLost := false } else s

/-- The section starts with every output off and every input substituted (R394). FLTCNT counts since the cold start, and the
restart from CONFIGURE (R58) leaves what the registers count and report. -/
def fioStart (s : State) (b : EngineBegin) : State :=
  let x := s.fio
  let new : Fio := match b with
    | .cold => {}
    | .kindling => { fltCnt := x.fltCnt }
    | .restart => { fltCnt := x.fltCnt, res := x.res, edgeLost := x.edgeLost, bad := x.bad, miss := x.miss, vfl := x.vfl }
  refreshFi { s with fio := new }

/-- Every field output is off: the isolated converter goes off on entry into EMBER (R381), and after PFAIL the module holds
every output off (R75). -/
def fioOff (s : State) : State :=
  (List.range 16).foldl (fun s j => modFout s j fun o => { o with on := false }) (modFio s fun x => { x with live := false })

end Sys2Proof.Machine
end

