-- ==== Sys2Proof/Machine/Chain.lean ====
section
/-!
DEFINITION. The chain ports and the chain protocol (chapter 4): frames received, transactions and their timeouts, the
queue of a loop, enumeration, location, delay measurement and the operations of CHN_CMD.
-/

namespace Sys2Proof.Machine

/-- CHN_RES. -/
def chnRes (c : Code) (s : State) : State := { s with chn := { s.chn with res := c } }

/-- RES of an operation that runs on: BUSY from its acceptance. -/
def busyRes (res : Code → State → State) (c : Code) (s : State) : State := res (if c = .ok then .busy else c) s

/-- End of a host's operation on a loop: RES reads OK unless a later command wrote it. -/
def chnDone (s : State) (k : Nat) : State :=
  if (lp s k).hostOp then
    let s := modLp s k fun l => { l with hostOp := false }
    if s.chn.res = .busy then chnRes .ok s else s
  else s

/-! ### Frames received (R107 to R116) -/

/-- The parts of an accepted frame. -/
structure RxFrame where
  typ : Nat
  hop : Nat
  alm : Bool
  opc : Nat
  tag : Nat
  payload : List Byte
  deriving DecidableEq, Repr

/-- A frame with a correct CRC and length, none otherwise (R107 to R109). -/
def rxFrame (bs : List Byte) : Option RxFrame :=
  let n := bs.length
  if n < 6 ∨ byteAt bs 3 + 6 ≠ n ∨ byteAt bs 3 > 64 ∨ crc16 (bs.take (n - 2)) ≠ getLe bs (n - 2) 2 then none
  else some
    { typ := byteAt bs 0 / 64, hop := byteAt bs 0 % 64, alm := bitN (byteAt bs 1) 7, opc := byteAt bs 1 % 64
      tag := byteAt bs 2, payload := (bs.drop 4).take (byteAt bs 3) }

/-- Position of a responder from its RHOP (R112, R116), 0 beyond the loop. -/
def posOf (l : LoopS) (fromA : Bool) (rhop : Nat) : Nat := if fromA then rhop else l.n + 1 - rhop

/-- Count a discarded frame in DISC. -/
def disc (s : State) (j : Nat) : State := modPort s j fun x => { x with disc := inc16 x.disc }

/-- The LIMIT with which the sweep reads a loop from an end (R137). -/
def sweepLimit (l : LoopS) (fromA : Bool) : Nat :=
  if fromA then (if l.state = .rerouted then l.aLast else l.n)
  else if l.state = .rerouted then l.n + 1 - l.bFirst else l.bLim

/-- ALM in a response: ALM_SEEN, and one READ_ALARM in the sweep period (R134). -/
def noteAlm (s : State) (k : Nat) (fromA : Bool) : State :=
  modLp s k fun l =>
    { l with almSeen := true, almPend := l.almPend || !l.almDone
             almFromA := if l.almPend || l.almDone then l.almFromA else fromA
             almLimit := if l.almPend || l.almDone then l.almLimit else sweepLimit l fromA }

/-! ### What a response of each opcode does -/

/-- Trigger an open-wire test (R151, R152): a trigger for a unit already waiting is merged with it. -/
def owTrigger (s : State) (k p : Nat) : State :=
  modLp s k fun l => if l.owWait.contains p then l else { l with owWait := l.owWait ++ [p] }

/-- A READ_ALARM response: an occurrence of each reported type, and WIRE triggers a test (R151, R167). -/
def takeAlarm (s : State) (k p : Nat) (b : List Byte) : State :=
  let al := getLe b 1 2
  let cells := getLe b 3 2
  let th := byteAt b 5 % 16
  let s := ((List.range 11).filter (bitN al)).foldl (fun s a =>
    let c := if a = 0 ∨ a = 1 ∨ a = 5 ∨ a = 10 then cells else 0
    let t := if a = 2 ∨ a = 3 ∨ a = 4 ∨ a = 7 then th else 0
    alarmOcc s k p a c t) s
  if bitN al 10 then owTrigger s k p else s

/-- Mask of the fitted cells of a unit. -/
def cellMask (s : State) (k p : Nat) : Nat := rdf s swpCmask [k, p - 1] 15 0

/-- A READ_BAL response: the increments of R161, or the counters themselves after a power loss or a change of unit,
with BAL_LOST (R162). -/
def takeBal (s : State) (k p : Nat) (b : List Byte) : State :=
  let u := unitAt (lp s k) p
  let lost := bitN (byteAt b 0) 7 || (u.balSeen && u.balUid != u.uid)
  let incs := (List.range 16).map fun c =>
    let v := getLe b (1 + 3 * c) 3
    if lost then v else (v + 2 ^ 24 - tget 0 u.prevBal c) % 2 ^ 24
  let total := incs.foldl (· + ·) 0
  let s := modUnit s k p fun u =>
    { u with prevBal := (List.range 16).foldl (fun t c => tset 0 t c (getLe b (1 + 3 * c) 3)) []
             balSeen := true, balUid := u.uid }
  let s := modLp s k fun l =>
    { l with balQ := l.balQ + wd ((l.balAcc + total) / 1000), balAcc := (l.balAcc + total) % 1000 }
  let s := (List.range 16).foldl (fun s c => addBleed s (cellIdx k p c) (1000 * incs.getD c 0)) s
  if lost then alarmOcc s k p 0x25 (cellMask s k p) 0 else s

/-- The bleeds that an accepted BAL_SET leaves: durations in s by cell; those running end at once (R158). -/
def takeBalSet (s : State) (k p : Nat) (cmd : ChainCmd) : State :=
  modUnit s k p fun u =>
    { u with balUntil := (List.range 16).foldl (fun t c =>
               let d := getLe cmd.payload (1 + 2 * c) 2
               tset 0 t c (if d > 0 then s.now + 1000000 * d else min (tget 0 u.balUntil c) s.now)) [] }

/-- BAL_AUTO replaces the durations that still run. -/
def takeBalAuto (s : State) (k p : Nat) : State :=
  modUnit s k p fun u =>
    { u with balUntil := (List.range 16).foldl (fun t c => tset 0 t c (min (tget 0 u.balUntil c) s.now)) [] }

/-- What one accepted response means for the module, by the opcode answered. The BAL_SET of an open-wire test (rank 60) ends
no duration that the module keeps: the unit resumes by itself at PHASE 0 (R160). -/
def respEffect (s : State) (k p rank : Nat) (cmd : ChainCmd) (b : List Byte) : State :=
  let done := byteAt b 0 % 16 == 0
  let s := noteIqPor s k p b
  match cmd.opc with
  | 0x04 => if done then modUnit s k p fun u => { u with comp := true, por := false } else s
  | 0x06 => if b.length = 6 then takeAlarm s k p b else s
  | 0x07 => if done && rank != 60 then takeBalSet s k p cmd else s
  | 0x08 => if done then takeBalAuto s k p else s
  | 0x09 => if b.length = 49 then takeBal s k p b else s
  | 0x0C => if b.length = 53 then takeIq s k p b else s
  | _ => s

/-! ### Enumeration (R119 to R121) -/

/-- The outcome of the two READ_ID broadcasts (*Table: Enumeration outcomes*). -/
structure EnumOutcome where
  n : Nat
  state : LoopState
  a : Nat
  b : Nat
  countMismatch : Bool := false
  tooMany : Bool := false
  idConflict : Bool := false
  deriving DecidableEq, Repr

/-- The identifier reported at a hop count. -/
def idAt (l : List (Nat × Word64)) (r : Nat) : Option Word64 := (l.find? fun x => x.1 == r).map (·.2)

/-- True when no identifier appears twice. -/
def distinctIds : List (Nat × Word64) → Bool
  | [] => true
  | x :: t => (t.all fun y => y.2 != x.2) && distinctIds t

/-- R121. DESIGN CHOICE (assumption 73): where exactly one broadcast arrived and no unit answered, two rows of the table
match, and the model takes DOWN with ID_CONFLICT. -/
def enumOutcome (expN : Nat) (l : LoopS) : EnumOutcome :=
  let a := l.listA.length
  let b := l.listB.length
  let down : EnumOutcome := { n := 0, state := .down, a := 0, b := 0 }
  if (l.listA ++ l.listB).any fun x => decide (x.1 > 32) then { down with tooMany := true }
  else if l.arrA && l.arrB then
    let same := (List.range a).all fun i => idAt l.listA (i + 1) == idAt l.listB (a - i) && (idAt l.listA (i + 1)).isSome
    if a = b ∧ same ∧ distinctIds l.listA then
      { n := a, state := .closed, a := a, b := b, countMismatch := expN != 0 && a != expN }
    else { down with idConflict := true }
  else if l.arrA || l.arrB then { down with idConflict := true }
  else if a + b = 0 then { n := expN, state := .lost, a := 0, b := 0 }
  else
    { n := if a + b ≤ expN then expN else a + b, state := .rerouted, a := a, b := b
      countMismatch := expN == 0 || decide (a + b > expN) }

/-- The expected count of a loop. -/
def expN (s : State) (k : Nat) : Nat := rdf s chnLcfg [k] 21 16

/-- The outcome of the loop's present enumeration. -/
def outcomeOf (s : State) (k : Nat) : EnumOutcome := enumOutcome (expN s k) (lp s k)

/-- The positions that answered, in rising order. -/
def answered (o : EnumOutcome) : List Nat :=
  ((List.range o.n).map (· + 1)).filter fun p => decide (p ≤ o.a) || decide (p + o.b > o.n)

/-- The UID read at a position. -/
def uidAt (o : EnumOutcome) (l : LoopS) (p : Nat) : Word64 :=
  if p ≤ o.a then (idAt l.listA p).getD 0 else (idAt l.listB (o.n + 1 - p)).getD 0

/-- Rank of the commands that belong to an enumeration. -/
def rankEnum : Nat := 10

/-- The 16 ECHO commands to a position from each end it is reached from (R122). -/
def echoCmds (n a b p : Nat) : List (Nat × ChainCmd) :=
  let one (fromA : Bool) (h : Nat) : List (Nat × ChainCmd) :=
    List.replicate 16 (p, { opc := 0x02, fromA := fromA, hop := h, payload := [] })
  (if p ≤ a then one true p else []) ++ (if p + b > n then one false (n + 1 - p) else [])

/-- SET_COMP of a position in a loop of n units, from an end (R113, R122). -/
def setCompFrom (u : UnitS) (n a p : Nat) : ChainCmd :=
  { opc := 0x04, fromA := decide (p ≤ a), hop := if p ≤ a then p else n + 1 - p
    payload := [BitVec.ofNat 8 p, BitVec.ofNat 8 (n + 1 - p)] ++ leB 2 (compOf u.da) ++ leB 2 (compOf u.db) }

/-- Go on after both READ_ID broadcasts: the delays of the units that answered, or nothing more (R120 steps 3 and 4). -/
def enumRead (s : State) (k : Nat) : State :=
  let o := outcomeOf s k
  if o.state = .closed ∨ o.state = .rerouted then
    modLp s k fun l => { l with op := .enumDelay, echo := [], queue :=
      { rank := rankEnum, cmds := (answered o).flatMap (echoCmds o.n o.a o.b) } :: l.queue }
  else modLp s k fun l => { l with readBoth := true }

/-- Set a unit's UID, clearing what belonged to another unit's position. -/
def setUid (s : State) (k p : Nat) (uid : Word64) : State := modUnit s k p fun u => { u with uid := uid }

/-- Set UIDs of the whole loop: 0 where no unit answered (CHN_UID). -/
def setUids (s : State) (k : Nat) (f : Nat → Word64) : State :=
  (List.range 32).foldl (fun s i => setUid s k (i + 1) (f (i + 1))) s

/-- The mode holds balancing off (R160). -/
def balModeStop (s : State) : Bool := s.emb.mode == .safeStop || s.emb.mode == .configure

/-- ENUMERATION_COMPLETE: N, the state and the flags of R121; the identifiers go to CHN_UID and the estimator (R120
step 6), and the units receive their configuration (R166). -/
def execEnumerationComplete (k : Str) (s : State) : Out :=
  .next (
    let l := lp s k
    if l.state ≠ .enum ∨ !l.readBoth ∨ l.tx.isSome ∨ l.queue.any (fun i => i.rank == rankEnum) then s
    else
      let o := outcomeOf s k
      let s := modLp s k fun l =>
        { l with n := o.n, op := .idle, readBoth := false, countMismatch := o.countMismatch, tooMany := o.tooMany
                 idConflict := o.idConflict, cellsBad := false, lastEcho := s.now, echo := [] }
      let s := if o.state = .closed then setLoopState s k .closed o.n (o.n + 1)
        else if o.state = .rerouted then setLoopState s k .rerouted o.a (o.n + 1 - o.b)
        else setLoopState s k o.state 0 (if o.state = .lost then o.n + 1 else 0)
      let sweeping := sweeps (lp s k)
      let ps := answered o
      let s := setUids s k fun p => if sweeping && ps.contains p then uidAt o l p else 0
      let s := if sweeping then
          let s := ps.foldl (fun s p => compareUnit s k p (uidAt o l p)) s
          let cfg := ps.flatMap fun p => (cfgWrites s k p).map fun c => (p, c)
          let s := if cfg.isEmpty then s else enqueueOwn s k { rank := 40, cmds := cfg }
          if balModeStop s then sendBalZero s k else s
        else s
      chnDone s k)

/-! ### Location (R135, R136, R139) -/

/-- Consecutive responses from RHOP 1 upward. -/
def runLen (l : List (Nat × Word64)) : Nat → Nat → Nat
  | 0, r => r
  | f + 1, r => if (idAt l (r + 1)).isSome then runLen l f (r + 1) else r

/-- LOCATE_COMPLETE: R136. Leaving CLOSED pauses impedance sweeps (R253); leaving the sweeping states abandons an
open-wire test (R155). -/
def execLocateComplete (k : Str) (s : State) : Out :=
  .next (
    let l := lp s k
    if l.op ≠ .locateB ∨ !l.readBoth ∨ l.tx.isSome then s
    else
      let a := runLen l.listA 63 0
      let b := runLen l.listB 63 0
      let s := modLp s k fun l => { l with op := .idle, readBoth := false, suspect := false, rejoin := 0 }
      let s := if a = l.n ∧ l.arrA then setLoopState s k .closed l.n (l.n + 1)
        else
          let changed : Bool := decide (a + b > l.n) || (l.arrA && decide (a < l.n))
          let s := if changed then modLp s k fun l => { l with countMismatch := true, cellsBad := true } else s
          if a = 0 ∧ b = 0 then setLoopState s k .lost 0 (l.n + 1)
          else setLoopState s k .rerouted a (l.n + 1 - b)
      let st := (lp s k).state
      let s := if st = .closed ∧ (l.state = .rerouted ∨ l.state = .lost) then
        stage s .chainClosed bCHN sevInfo [BitVec.ofNat 8 k] else s
      let s := if st ≠ .closed ∧ l.state = .closed then impPause s k 2 else s
      let s := if !sweeps (lp s k) then owAbort s k else if !sweeps l && balModeStop s then sendBalZero s k else s
      let seen := ((List.range l.n).map (· + 1)).filter fun p =>
        decide (p ≤ a) || decide (p + b > l.n)
      let s := seen.foldl (fun s p =>
        let uid := if p ≤ a then (idAt l.listA p).getD 0 else (idAt l.listB (l.n + 1 - p)).getD 0
        if uid = (unitAt l p).uid then s else compareUnit (setUid s k p uid) k p uid) s
      chnDone s k)

/-- CHAIN_REJOIN: three A-end broadcasts in a row reached the B port of a broken loop (R139). -/
def execChainRejoin (k : Str) (s : State) : Out :=
  .next (
    let l := lp s k
    if l.rejoin < 3 ∨ (l.state ≠ .rerouted ∧ l.state ≠ .lost) then s
    else modLp s k fun l => { l with suspect := true, rejoin := 0 })

/-! ### Ends of transactions (R132, R135, R137) -/

/-- The identifiers of the responses to READ_ID. -/
def idList (t : ChainTx) : List (Nat × Word64) :=
  (t.resps.filter fun r => decide (r.payload.length = 9)).map fun r => (r.rhop, BitVec.ofNat 64 (getLe r.payload 1 8))

/-- A READ_SWEEP closes: the read from the B end follows where R137 asks for one, and none does where the sweep has been
abandoned meanwhile (R542). -/
def closeSweepRead (s : State) (k : Nat) (t : ChainTx) : State :=
  let l := lp s k
  if !l.sweepOpen then s
  else if t.cmd.fromA then
    let got := t.resps.length
    let b := if l.state = .rerouted then l.n + 1 - l.bFirst else if got < l.n then l.n - got else 0
    let short : Bool := l.state == .closed && (decide (got < l.n) || !t.arrived)
    let s := modLp s k fun l =>
      { l with resps := t.resps, fromB := [], gotA := got, bLim := b, suspect := l.suspect || short
               rejoin := if l.state = .closed then 0 else if t.arrived then satAdd 3 l.rejoin 1 else 0
               readDone := decide (b = 0) }
    if b > 0 then startTx s k 20 0 b (bcast false 0x05 [BitVec.ofNat 8 b]) else s
  else
    let new := t.resps.filter fun r => decide (1 ≤ r.pos) && !l.resps.any fun q => q.pos == r.pos
    modLp s k fun l => { l with resps := l.resps ++ new, fromB := new.map (·.pos), readDone := true }

/-- An OW_TEST is acknowledged: the current it applies or ends (R153), and the instant that R154 counts from, once no
command of the phase is left to send. -/
def owAck (s : State) (k : Nat) (t : ChainTx) : State :=
  let until_ := s.now + 10000 * byteAt t.cmd.payload 2
  modLp s k fun l =>
    { l with owAckAt := if l.owState = 0 ∨ (l.queue.any fun i => i.rank == 60) then none else some s.now
             owCur := if byteAt t.cmd.payload 1 = 0 then none
                      else some (t.pos, (match l.owCur with | some (_, a, u) => if s.now < u then a else s.now | none => s.now), until_) }

/-- A broadcast ends: what its opcode calls for, and the suspicion of R135 in a CLOSED loop. -/
def broadcastDone (s : State) (k : Nat) (t : ChainTx) : State :=
  let l := lp s k
  let s := modLp s k fun l => { l with tx := none }
  let enum := t.rank == rankEnum
  match l.op, enum, t.cmd.opc with
  | .enumA, true, 0x03 =>
    startTx (modLp s k fun l => { l with listA := idList t, arrA := t.arrived, op := .enumB }) k rankEnum 0 63
      (bcast false 0x03 [limAll])
  | .enumB, true, 0x03 => enumRead (modLp s k fun l => { l with listB := idList t, arrB := t.arrived }) k
  | .locateA, _, 0x03 =>
    startTx (modLp s k fun l => { l with listA := idList t, arrA := t.arrived, op := .locateB }) k 50 0 63
      (bcast false 0x03 [limAll])
  | .locateB, _, 0x03 => modLp s k fun l => { l with listB := idList t, arrB := t.arrived, readBoth := true }
  | _, _, 0x05 => closeSweepRead s k t
  | _, _, opc =>
    let few : Bool := opc != 0x0B && decide (t.resps.length < t.limit)
    let s := if !t.arrived || few then suspectBreak s k else s
    match opc with
    | 0x0A => owAck s k t
    | 0x0B => modImp s k fun i => if i.armed then i else { i with due := true }
    | 0x0C => if (l.queue.any fun i => i.rank == 61) then s else impComplete s k
    | _ => s

/-- An addressed transaction that no unit answers ends (R112, R115): an open-wire test of the position is abandoned. -/
def txGone (s : State) (k : Nat) (t : ChainTx) : State :=
  let s := modLp s k fun l => { l with tx := none }
  if t.cmd.opc = 0x0A then owAbort s k else s

/-- The time after its frame has begun to leave at which an addressed command without response has timed out, in ns: its
frame, the way to the unit and back, t_ur and 10 µs (R132). Before a delay has been measured the highest of R106 stands for
it (DESIGN CHOICE, assumption 73). -/
def timeoutNs (l : LoopS) (t : ChainTx) : Nat :=
  let u := unitAt l t.pos
  let d := if l.op = .enumDelay then 800 * t.cmd.hop else if t.cmd.fromA then u.da else u.db
  frameNs t.cmd.payload.length + 2 * d + 2000 + 10000

/-- An addressed command has no usable response: TMO counts, the command is sent again up to RETRY times, and then a
break is suspected (R132, R135) and an open-wire test is abandoned (R155). -/
def txTimeout (s : State) (k : Nat) (t : ChainTx) : State :=
  let j := sendPort k t.cmd.fromA
  let s := modPort s j fun x => { x with tmo := inc16 x.tmo }
  if t.retries < rdf s chnLcfg [k] 27 24 then
    let s := modLp s k fun l => { l with tx := some { t with retries := t.retries + 1, sentAt := s.now } }
    send s (ifChain j) (frame 0 t.cmd.hop t.cmd.opc t.tag.toNat t.cmd.payload)
  else suspectBreak (txGone s k t) k

/-- BROADCAST_READ_CLOSE: T_GAP has passed since the last response, or since the command when there was none (R132). -/
def execBroadcastReadClose (k : Str) (s : State) : Out :=
  .next (
    match (lp s k).tx with
    | none => s
    | some t =>
      let quiet := match t.lastEnd with
        | some e => decide (s.now ≥ e + 40)
        | none => decide (1000 * s.now ≥ 1000 * t.sentAt + frameNs t.cmd.payload.length + 40000)
      if awake s && t.pos == 0 && quiet then broadcastDone s k t else s)

/-- CHAIN_COMMAND_TIMEOUT: no response to an addressed command in time (R132). -/
def execChainCommandTimeout (k : Str) (s : State) : Out :=
  .next (
    match (lp s k).tx with
    | none => s
    | some t =>
      if awake s ∧ t.pos ≠ 0 ∧ 1000 * s.now ≥ 1000 * t.sentAt + timeoutNs (lp s k) t then txTimeout s k t else s)

/-! ### Frames at a port (R109, R112 to R115, R134, R135, R140) -/

/-- An addressed transaction ends with its response; an echo adds its round trip (R122). -/
def addressedDone (s : State) (k : Nat) (t : ChainTx) (b : List Byte) (rtt : Nat) : State :=
  let s := respEffect (modLp s k fun l => { l with tx := none }) k t.pos t.rank t.cmd b
  match t.cmd.opc with
  | 0x02 =>
    let key := 2 * t.pos + (if t.cmd.fromA then 0 else 1)
    modLp s k fun l => { l with echo := tmod (0, 0) l.echo key fun x => (x.1 + 1, x.2 + rtt) }
  | 0x0A => owAck s k t
  | _ => s

/-- A response, or an echo return `ns` after the ECHO left, that reached a port (R112, R114). A broadcast read closes with the
last response that its LIMIT permits (R132). -/
def takeResponse (s : State) (j : Nat) (f : RxFrame) (ns : Nat) : State :=
  let k := j / 2
  let fromA := j % 2 == 0
  let l := lp s k
  match l.tx with
  | none => disc s j
  | some t =>
    let p := if t.pos = 0 then posOf l fromA f.hop else t.pos
    let wrongHop := t.pos ≠ 0 ∧ f.hop ≠ t.cmd.hop
    let again := t.pos = 0 ∧ t.resps.any (fun r => r.rhop == f.hop)
    let wrongTyp := (f.typ = 3) ≠ (t.cmd.opc = 0x02)
    if t.cmd.fromA ≠ fromA ∨ t.cmd.opc ≠ f.opc ∨ t.tag.toNat ≠ f.tag ∨ wrongHop ∨ again ∨ wrongTyp then disc s j
    else
      let s := if f.alm then noteAlm s k fromA else s
      let s := if f.opc = 0x05 ∧ f.payload.length = 46 then safSummary s k p (getLe f.payload 44 2) else s
      if t.pos ≠ 0 then addressedDone s k t f.payload ns
      else
        let r : ChainResp := { rhop := f.hop, pos := p, alm := f.alm, payload := f.payload }
        let t := { t with resps := t.resps ++ [r], lastEnd := some s.now }
        let s := respEffect (modLp s k fun l => { l with tx := some t }) k p t.rank t.cmd f.payload
        if f.hop ≥ t.limit ∨ t.resps.length ≥ t.limit then broadcastDone s k t else s

/-- A command of the module that passed the last unit and reached the opposite port (R115). `ns` is the time since the
sending port's reference instant, which a broadcast takes as DL (R123); one that is 10 µs later than DL has not arrived in
time (R135). -/
def takeArrival (s : State) (j : Nat) (f : RxFrame) (ns : Nat) : State :=
  let k := j / 2
  let l := lp s k
  match l.tx with
  | none => disc s j
  | some t =>
    if t.cmd.fromA = (j % 2 == 0) ∨ t.cmd.opc ≠ f.opc ∨ t.tag.toNat ≠ f.tag then disc s j
    else if f.hop = hopAll then
      let inTime := l.state ≠ .closed ∨ l.dl = 0 ∨ ns ≤ l.dl + 10000
      let s := modLp s k fun l =>
        { l with tx := some { t with arrived := decide inTime }, dl := if t.cmd.fromA then min 0xFFFF ns else l.dl }
      if f.opc = 0x0B then
        let s := modLp s k fun l => { l with tx := none }
        if inTime then modImp s k fun i => { i with armed := true }
        else suspectBreak (modImp s k fun i => { i with due := true }) k
      else s
    else if f.hop = 0 then disc s j
    else txGone s k t

/-- A frame that a port discards under R109 where the response to an addressed command is awaited counts as its timeout
(R132). -/
def badFrame (s : State) (j : Nat) : State :=
  match (lp s (j / 2)).tx with
  | some t => if t.pos ≠ 0 ∧ t.cmd.fromA = (j % 2 == 0) then txTimeout s (j / 2) t else s
  | none => s

/-- CHAIN_RESPONSE: a frame at a port. A port accepts it under R109, counts a discarded one, and hands an accepted one
on (R112, R114, R115, R134, R140). -/
def execChainResponse (j : Fin 8) (bytes : List Byte) (codeErr swapped : Bool) (sinceSendNs : Nat) (s : State) : Out :=
  .next (
    let k := j.val / 2
    if !awake s ∨ !loopOn s k then s
    else if codeErr then badFrame (modPort s j fun x => { x with code := inc16 x.code }) j
    else match rxFrame bytes with
      | none => badFrame (modPort s j fun x => { x with crc := inc16 x.crc }) j
      | some f =>
        let s := modPort s j fun x => { x with pol := swapped, lastAcc := some s.now }
        match f.typ with
        | 0 => takeArrival s j f sinceSendNs
        | 1 => takeResponse s j f sinceSendNs
        | 2 => s
        | _ => takeResponse s j { f with opc := 0x02 } sinceSendNs)

/-! ### The queue of a loop (R130, R542) -/

/-- A queued command as it would be sent now, none where its position cannot be reached (R112). -/
def resolve (l : LoopS) (p : Nat) (c : ChainCmd) : Option ChainCmd :=
  if p = 0 ∨ c.hop ≠ 0 then some c
  else (route l p).map fun r => { c with fromA := r.1, hop := r.2 }

/-- Drop the first command of the item at a place of the queue. -/
def popAt : List ChainItem → Nat → List ChainItem
  | [], _ => []
  | i :: t, 0 => if i.cmds.length ≤ 1 then t else { i with cmds := i.cmds.drop 1 } :: t
  | i :: t, n + 1 => i :: popAt t n

/-- The first item of a rank whose command passes a test: its place in the queue from n on, and the command. -/
def firstFit (ok : Nat → ChainCmd → Bool) (rank : Nat) : List ChainItem → Nat → Option (Nat × Nat × ChainCmd)
  | [], _ => none
  | i :: t, n =>
    match i.cmds with
    | (p, c) :: _ => if i.rank == rank && ok p c then some (n, p, c) else firstFit ok rank t (n + 1)
    | [] => firstFit ok rank t (n + 1)

/-- The number of responses that a broadcast's LIMIT permits. -/
def permitted (l : LoopS) (c : ChainCmd) : Nat :=
  if respLen c.opc = none then 0
  else
    let lim := byteAt c.payload 0
    let reach := if c.fromA then aLast l else l.n + 1 - bFirst l
    if lim = 0x3F then reach else min lim l.n

/-- Start the queued command at a place, or drop it with NOT_PRESENT when its position cannot be reached. An open-wire
test of such a position is abandoned. -/
def startQueued (s : State) (k at_ : Nat) (p : Nat) (c : ChainCmd) (rank : Nat) : State :=
  let l := lp s k
  let s := modLp s k fun l => { l with queue := popAt l.queue at_ }
  match resolve l p c with
  | some c => startTx s k rank p (permitted l c) c
  | none => if c.opc = 0x0A then owAbort s k else s

/-- The READ_IQ of a loop when its point's window has closed and a sweep after it was read (R250). -/
def iqDue (s : State) (k : Nat) : Bool :=
  let i := imps s k
  let l := lp s k
  i.epoch.isSome && !i.iqSent && decide (1000 * l.t0 + sweepLead s k ≥ i.winEnd) && !l.sweepOpen && l.state == .closed

/-- The number of positions that the loop reaches from its B end. -/
def bReach (l : LoopS) : Nat := if l.state = .closed then l.n else l.n + 1 - bFirst l

/-- The next ECHO of a refresh (R124): the commands of one unit, from every end it is reached from, in a gap between sweeps. -/
def echoStart (s : State) (k : Nat) : Option State :=
  let l := lp s k
  let fits (p : Nat) (c : ChainCmd) : Bool := fitsGap s k (predictNs l false p c)
  match l.echoCmds, l.echoTodo with
  | (p, c) :: rest, _ =>
    if fits p c then some (startTx (modLp s k fun l => { l with echoCmds := rest }) k 70 p 0 c) else none
  | [], p :: rest =>
    if l.echoGap then none
    else
      let s := modLp s k fun l => { l with echoTodo := rest, echoGap := true }
      match echoCmds l.n (aLast l) (bReach l) p with
      | (q, c) :: more =>
        if fits q c then some (startTx (modLp s k fun l => { l with echoCmds := more }) k 70 q 0 c)
        else some (modLp s k fun l => { l with echoCmds := (q, c) :: more })
      | [] => some s
  | [], [] => none

/-- An item of a rank that is ready and fits before the next SYNC: what starting it does (R130). -/
def itemStart (s : State) (k rank : Nat) : Option State :=
  let l := lp s k
  let open_ := l.sweepOpen && !l.readDone && l.readDue
  match rank with
  | 20 => if open_ then some (startTx s k 20 0 (aLast l) (bcast true 0x05 [BitVec.ofNat 8 (aLast l)])) else none
  | 30 =>
    let c := bcast l.almFromA 0x06 [BitVec.ofNat 8 l.almLimit]
    if l.almPend && !open_ && fitsGap s k (predictNs l true 0 c) then
      some (startTx (modLp s k fun l => { l with almPend := false, almDone := true }) k 30 0 l.almLimit c)
    else none
  | 50 =>
    let c := bcast true 0x03 [limAll]
    if l.suspect && fitsGap s k (2 * predictNs l true 0 c) then
      some (startTx (modLp s k fun l => { l with op := .locateA, listA := [], listB := [], readBoth := false }) k 50 0 63 c)
    else none
  | 61 =>
    let c := bcast true 0x0C [BitVec.ofNat 8 (aLast l)]
    if iqDue s k && fitsGap s k (predictNs l true 0 c) then
      some (startTx (modImp s k fun i => { i with iqSent := true }) k 61 0 (aLast l) c)
    else none
  | 62 =>
    if !l.sweepOpen && l.state == .closed && l.op == .idle then
      let t := impPrepare 16 s k
      let c := ncoSet t k
      if ncoReady (imps t k) && fitsGap t k (predictNs l true 0 c) then some (startTx t k 62 0 0 c)
      else if t = s then none else some t
    else none
  | 70 => echoStart s k
  | r =>
    match firstFit (fun p c => fitsGap s k (predictNs l (decide (p = 0)) p c)) r l.queue 0 with
    | some (n, p, c) => some (startQueued s k n p c r)
    | none => none

/-- The ranks of R130 in order, and those of the chapters' own work in item 6. -/
def ranks : List Nat := [20, 30, 40, 50, 60, 61, 62, 63, 70]

/-- The first of the ranks that starts something. -/
def firstStart (s : State) (k : Nat) : List Nat → State
  | [] => s
  | r :: t => match itemStart s k r with
    | some s' => s'
    | none => firstStart s k t

/-- CHAIN_LOOP_IDLE: a loop that carries no transaction starts the highest pending item that fits before the next SYNC
(R130). A loop in DOWN or LOST starts LOCATE alone, one in ENUM the commands of the enumeration (R542). -/
def execChainLoopIdle (k : Str) (s : State) : Out :=
  .next (
    let l := lp s k
    if !awake s ∨ !loopOn s k ∨ l.tx.isSome ∨ l.op = .locateA ∨ (l.op = .locateB ∧ l.readBoth) then s
    else match l.state with
      | .enum =>
        if l.op = .enumA then startTx s k rankEnum 0 63 (bcast true 0x03 [limAll])
        else match firstFit (fun _ _ => true) rankEnum l.queue 0 with
        | some (n, p, c) => startQueued s k n p c rankEnum
        | none => s
      | .down | .lost => (itemStart s k 50).getD s
      | .closed | .rerouted => firstStart s k ranks
      | .disabled => s)

/-! ### Delay measurement (R122 to R124) -/

/-- D from the sum of 16 round trips (R122). -/
def delayOf (sum : Nat) : Nat := (sum - 16 * 4000 + 16) / 32

/-- The delay that 16 exchanges from an end gave a position, none where they were not all answered. -/
def measured (l : LoopS) (p : Nat) (fromA : Bool) : Option Nat :=
  match tget (0, 0) l.echo (2 * p + (if fromA then 0 else 1)) with
  | (16, sum) => some (delayOf sum)
  | _ => none

/-- Take the means of one position: the new delays, and CHAIN_DELAY_STEP when one moved by more than 100 ns (R124). An end
from which the position was not measured keeps its last value. -/
def takeDelay (k : Nat) (first : Bool) (s : State) (p : Nat) : State :=
  let l := lp s k
  let u := unitAt l p
  let da := (measured l p true).getD u.da
  let db := (measured l p false).getD u.db
  let far (x y : Nat) : Bool := decide (x > y + 100) || decide (y > x + 100)
  let s := if !first && (far da u.da || far db u.db) then
    stage s .chainDelayStep bCHN sevNotice ([BitVec.ofNat 8 k, BitVec.ofNat 8 p] ++ leB 2 da ++ leB 2 db) else s
  modUnit s k p fun u => { u with da := min 0xFFFF da, db := min 0xFFFF db }

/-- True when every hop delay lies in 300 to 800 ns (R123), over the delays from one end in order of hop count. -/
def hopsOk (ds : List Nat) : Bool :=
  (ds.foldl (fun (ok, prev) d => (ok && decide (prev + 300 ≤ d) && decide (d ≤ prev + 800), d)) (true, 0)).1

/-- SPREAD and the checks of R123 over a loop of n units that reaches a from A and b from B. -/
def delayChecks (s : State) (k n a b : Nat) : State :=
  let l := lp s k
  let at_ (p : Nat) : UnitS := unitAt l p
  let fromA := (List.range a).map fun i => (at_ (i + 1)).da
  let fromB := (List.range b).map fun i => (at_ (n - i)).db
  let sums := (((List.range n).map (· + 1)).filter fun p => decide (p ≤ a) && decide (p + b > n)).map fun p =>
    (at_ p).da + (at_ p).db
  let spread := match sums.max?, sums.min? with | some x, some y => x - y | _, _ => 0
  modLp s k fun l =>
    { l with spread := min 0xFFFF spread, syncDegr := !(hopsOk fromA && hopsOk fromB && decide (spread ≤ 40)) }

/-- DELAY_MEASUREMENT_COMPLETE: every ECHO of the measurement has run. The means of the units measured (R122), the checks of
R123, and SET_COMP: in an enumeration to each unit that answered (R120 step 5), in a refresh to a unit whose compensation
changed (R124). -/
def execDelayMeasurementComplete (k : Str) (s : State) : Out :=
  .next (
    let l := lp s k
    if !awake s ∨ l.tx.isSome then s
    else if l.op = .enumDelay ∧ !l.readBoth ∧ !(l.queue.any fun i => i.rank == rankEnum) then
      let o := outcomeOf s k
      let ps := answered o
      let s := delayChecks (ps.foldl (takeDelay k true) s) k o.n o.a (if o.state = .closed then o.n else o.b)
      modLp s k fun l =>
        let comp := ps.map fun p => (p, setCompFrom (unitAt l p) o.n o.a p)
        { l with readBoth := true
                 queue := if comp.isEmpty then l.queue else { rank := rankEnum, cmds := comp } :: l.queue }
    else if l.refresh ∧ sweeps l ∧ l.echoTodo.isEmpty ∧ l.echoCmds.isEmpty then
      let ps := ((List.range l.n).map (· + 1)).filter fun p => (measured l p true).isSome || (measured l p false).isSome
      let s := delayChecks (ps.foldl (takeDelay k false) s) k l.n (aLast l) (bReach l)
      let s := modLp s k fun l => { l with refresh := false, echo := [] }
      let s := ps.foldl (fun s p =>
        let u := unitAt (lp s k) p
        let v := unitAt l p
        if compOf u.da = compOf v.da ∧ compOf u.db = compOf v.db then s
        else enqueueOwn s k { rank := 40, cmds := [(p, setComp (lp s k) p)] }) s
      chnDone s k
    else s)

/-- Begin a refresh: every unit reachable from an end is to be measured (R124). -/
def beginEcho (s : State) (k : Nat) : State :=
  modLp s k fun l =>
    { l with refresh := true, lastEcho := s.now, echoTodo := reachablePos l, echoCmds := [], echo := [] }

/-- ECHO_REFRESH_DUE: ECHO_PER has passed since the last measurement (R124); work that falls due on a loop that does
not sweep is not queued (R542). -/
def execEchoRefreshDue (k : Str) (s : State) : Out :=
  .next (
    let l := lp s k
    let per := rdf s chnLcfg [k] 15 0
    if !awake s ∨ !loopOn s k ∨ per = 0 ∨ s.now < l.lastEcho + 1000000 * per then s
    else if !sweeps l ∨ l.refresh ∨ queued l ≥ 16 then modLp s k fun l => { l with lastEcho := s.now }
    else beginEcho s k)

/-! ### CHN_CMD -/

/-- Rights of ENUMERATE and LOCATE: maintenance or configure; of the others: maintenance. -/
def chnRight (w : Win) (op : Nat) : State → Bool := if op ≤ 2 then rightAny w rMaint rCfg else rightOne w rMaint

/-- A loop leaves CLOSED or REROUTED: its impedance sweep pauses and its open-wire test is abandoned (R155, R253). -/
def leaveSweep (s : State) (k : Nat) : State := impPause (owAbort s k) k 2

/-- ENUMERATE (R119). -/
def opEnumerate (k : Nat) (s : State) : Code × State :=
  let busyMode := s.emb.mode == .precharge || s.emb.mode == .connected || s.emb.mode == .drowse
  ifOk (firstCode [when_ (!loopOn s k) .notPresent, when_ busyMode .refusedMode,
    when_ ((lp s k).state == .enum) .busy]) s fun s =>
      (.ok, startEnum (modLp (leaveSweep s k) k fun l => { l with hostOp := true }) k)

/-- LOCATE (R136): queued under R130, item 5. -/
def opLocate (k : Nat) (s : State) : Code × State :=
  let l := lp s k
  ifOk (firstCode [when_ (!loopOn s k) .notPresent,
    when_ (l.state == .enum || l.op == .locateA || l.op == .locateB) .busy,
    when_ (!l.suspect && decide (queued l ≥ 16)) .full]) s fun s =>
      (.ok, modLp s k fun l => { l with suspect := true, hostOp := true })

/-- ECHO_REFRESH (R124). -/
def opEchoRefresh (k : Nat) (s : State) : Code × State :=
  let l := lp s k
  ifOk (firstCode [when_ (!loopOn s k) .notPresent, when_ (!sweeps l) .notPresent, when_ l.refresh .busy,
    when_ (decide (queued l ≥ 16)) .full]) s fun s =>
      (.ok, beginEcho (modLp s k fun l => { l with hostOp := true }) k)

/-- CLEAR_COUNTERS of the loop's two ports. -/
def opChnClear (k : Nat) (s : State) : Code × State :=
  ifOk (when_ (!loopOn s k) .notPresent) s fun s =>
    let z (s : State) (j : Nat) : State := modPort s j fun x => { x with crc := 0, code := 0, tmo := 0, disc := 0 }
    (.ok, z (z s (2 * k)) (2 * k + 1))

/-- ENUMERATE. -/
def execEnumerate (w : Win) (k : Str) (s : State) : Out :=
  .next (hostCmd w 0x40000 (cmdReq (chnRight w 1) (busyRes chnRes) (opEnumerate k)) s)

/-- LOCATE. -/
def execLocate (w : Win) (k : Str) (s : State) : Out :=
  .next (hostCmd w 0x40000 (cmdReq (chnRight w 2) (busyRes chnRes) (opLocate k)) s)

/-- ECHO_REFRESH. -/
def execEchoRefresh (w : Win) (k : Str) (s : State) : Out :=
  .next (hostCmd w 0x40000 (cmdReq (chnRight w 3) (busyRes chnRes) (opEchoRefresh k)) s)

/-- CLEAR_COUNTERS. -/
def execChnClearCounters (w : Win) (k : Str) (s : State) : Out :=
  .next (hostCmd w 0x40000 (cmdReq (chnRight w 4) chnRes (opChnClear k)) s)

/-! ### Start-up and register views -/

/-- STATE code of CHN_LSTATk. -/
def LoopState.num : LoopState → Nat
  | .down => 0 | .enum => 1 | .closed => 2 | .rerouted => 3 | .lost => 4 | .disabled => 5

/-- What a unit keeps across a start: bleed counters (R161, R162), and across a Kindling the held cell flags and the cells
that call for a test (R155, R157). -/
def keptUnit (cold : Bool) (u : UnitS) : UnitS :=
  { prevBal := u.prevBal, balSeen := u.balSeen, balUid := u.balUid
    susp := if cold then 0 else u.susp, fault := if cold then 0 else u.fault
    trigCells := if cold then 0 else u.trigCells }

/-- The chain at a cold start or Kindling: the sweep timer starts, and each enabled loop is enumerated (R119, R143). -/
def chnStart (s : State) (cold : Bool) : State :=
  let s := { s with chn := { s.chn with timer0 := s.now, res := .ok, swpRes := .ok, ports := [] } }
  (List.range 4).foldl (fun s k =>
    let l := lp s k
    let s := modLp s k fun _ =>
      { state := if loopOn s k then .down else .disabled
        balQ := l.balQ, balAcc := l.balAcc, lastOwAll := s.now, lastBal := s.now, lastEcho := s.now, balFirst := true
        owWait := if cold then [] else l.owWait, owLast := if cold then 0 else l.owLast
        units := (l.units.map fun (p, u) => (p, keptUnit cold u)).filter fun x => x.2 != {} }
    if loopOn s k then startEnum s k else s) s

/-- Enumerate every enabled loop, at CONFIGURE → STANDBY (R119). -/
def chnReenumerate (s : State) : State :=
  (List.range 4).foldl (fun s k => if loopOn s k then startEnum (leaveSweep s k) k else
    modLp s k fun l => { l with state := .disabled, tx := none, sweepOpen := false }) s

/-- CHN_PSTAT. -/
def chnPstat (s : State) : Nat :=
  let act (j : Nat) : Bool := match (port s j).lastAcc with | some t => decide (s.now ≤ t + 100000) | none => false
  place (bitsOf 8 act) 15 8 + bitsOf 8 fun j => (port s j).pol

/-- CHN_LSTATk. -/
def chnLstat (s : State) (k : Nat) : Nat :=
  let l := lp s k
  place l.state.num 31 28 + flag l.almSeen 27 + flag l.syncDegr 26 + flag l.countMismatch 25 + flag l.tooMany 24 +
    flag l.idConflict 23 + place l.n 21 16 + place l.syncId.toNat 15 8 + min 0xFF l.skip

/-- CHN_BRKk. -/
def chnBrk (s : State) (k : Nat) : Nat :=
  let l := lp s k
  place l.brkCnt 31 16 + place (aLast l) 13 8 + place (bFirst l) 5 0

/-- CHN_DLYk. -/
def chnDly (s : State) (k : Nat) : Nat := place (lp s k).spread 31 16 + place (lp s k).dl 15 0

end Sys2Proof.Machine
end

