-- ==== Sys2Proof/Machine/Sweep.lean ====
section
/-!
DEFINITION. Cell sweeps, sense-wire faults and balancing (chapter 5): SYNC, the read and the close of a sweep with its
record, the open-wire test, the balancing sequencer and the operations of SWP_CMD.
-/

namespace Sys2Proof.Machine

/-- SWP_RES. -/
def swpRes (c : Code) (s : State) : State := { s with chn := { s.chn with swpRes := c } }

/-! ### SYNC and the read (R125, R131, R142 to R145, R154) -/

/-- True at a sweep instant of a loop: t0 is a whole multiple of the period plus OFFSET (R143). -/
def sweepInstant (s : State) (k : Nat) : Bool :=
  let p := max 1 (sweepPer s k)
  let o := s.chn.timer0 + 10 * rdf s swpLcfg [k] 8 0
  decide (o ≤ s.now) && (s.now - o) % p == 0 && (lp s k).lastSweep != some s.now

/-- The open-wire phase applied at the next sweep instant: the OW_TEST was acknowledged 2 ms before it (R154). -/
def owApplied (s : State) (k : Nat) : Bool :=
  let l := lp s k
  decide (1 ≤ l.owState ∧ l.owState ≤ 2) && match l.owAckAt with | some t => decide (t + 2000 ≤ s.now) | none => false

/-- Take string current and charge at a precision-path instant when it is nearer to t_s than the last one (R148); a sweep
that began in DROWSE keeps the counter's sample. -/
def sweepCapture (s : State) (k : Nat) : State :=
  let l := lp s k
  let d := ((1000 * s.mea.sampleAt : Int) - (1000 * l.t0 + 25 * rdf s chnLtim [k] 15 0 : Nat)).natAbs
  if !l.sweepOpen ∨ d ≥ l.istrDist then s
  else
    let q := (estr s k).q + if s.emb.mode = .drowse then (tget {} s.emb.qdrw k).q else 0
    modLp s k fun l =>
      { l with istr := if l.drwAtT0 then l.istr else (mstr s k).voted
               istrInvalid := !l.drwAtT0 && (mstr s k).invalid, qTs := q, istrDist := d }

/-- Send SYNC from both ends (R125) with the next SYNC_ID; t_s is in module time. -/
def sendSync (s : State) (k : Nat) : State :=
  let lead := rdf s chnLtim [k] 15 0
  let ow := owApplied s k
  let imp := (imps s k).armed && !ow
  let wire := if ow then 1 else if imp then 2 else 0
  let id := (lp s k).syncId + 1
  let ts := s.tim.now + BitVec.ofNat 64 (25 * lead)
  let s := modLp s k fun l =>
    { l with syncId := id, synced := true, sweepOpen := true, t0 := s.now, ts := ts, readDue := false, readDone := false
             kind := if ow then l.owState else 0, gotA := 0, bLim := 0, resps := [], fromB := []
             degrAtT0 := l.syncDegr, drwAtT0 := s.emb.mode == .drowse, istr := (tget {} s.emb.qdrw k).last
             almDone := false, echoGap := false, istrDist := 2 ^ 40, lastSweep := some s.now }
  let s := sweepCapture s k
  let s := if imp then impEpoch s k s.now ts id else s
  let f := frame 2 hopAll wire id.toNat (leB 2 lead)
  send (send s (ifChain (2 * k)) f) (ifChain (2 * k + 1)) f

/-- SWEEP_SYNC: at a sweep instant of a loop in CLOSED or REROUTED, outside EMBER (R142). While the previous read is
open the SYNC is skipped and counted (R131). -/
def execSweepSync (k : Str) (s : State) : Out :=
  .next (
    let l := lp s k
    if !awake s ∨ !loopOn s k ∨ !sweeps l ∨ !sweepInstant s k then s
    else if l.sweepOpen ∨ l.tx.isSome then
      modLp s k fun l => { l with skip := inc8 l.skip, skipped := true, lastSweep := some s.now }
    else sendSync s k)

/-- SWEEP_READ_START: RD_DLY after t0 the read of the sweep falls due (R144). It starts at once on an idle loop, else
when the loop falls idle (R130). -/
def execSweepReadStart (k : Str) (s : State) : Out :=
  .next (
    let l := lp s k
    if !awake s ∨ !l.sweepOpen ∨ l.readDue ∨ s.now < l.t0 + rdf s chnLtim [k] 31 16 then s
    else
      let s := modLp s k fun l => { l with readDue := true }
      if l.tx.isSome then s else (itemStart s k 20).getD s)

/-! ### A unit's block (R147 to R150) -/

/-- What one position gives in a sweep. -/
structure Block where
  noResp : Bool
  stale : Bool
  ustat : Nat
  full : Bool
  alm : Bool
  bEnd : Bool
  cells : List Nat
  therms : List Nat
  stack : Nat
  ssum : Nat

/-- Read the accepted response of a position, if any. -/
def blockOf (s : State) (k p : Nat) : Block :=
  let l := lp s k
  match l.resps.find? fun r => r.pos == p with
  | none =>
    { noResp := true, stale := false, ustat := 0, full := false, alm := false, bEnd := false
      cells := (List.range 16).map fun c => if fitted s k p c then 0xFFFF else 0
      therms := List.replicate 4 0x8000, stack := 0xFFFF, ssum := 0 }
  | some r =>
    let b := r.payload
    let full := decide (b.length = 46)
    { noResp := false, stale := full && byteAt b 1 != l.syncId.toNat, ustat := byteAt b 0, full := full, alm := r.alm
      bEnd := l.fromB.contains p
      cells := (List.range 16).map fun c =>
        if !fitted s k p c then 0 else if full then getLe b (2 + 2 * c) 2 else 0xFFFF
      therms := (List.range 4).map fun t => if full && thermFitted s k p t then getLe b (34 + 2 * t) 2 else 0x8000
      stack := if full then getLe b 42 2 else 0xFFFF, ssum := if full then getLe b 44 2 else 0 }

/-- SYNC_MISS or URES 0x4. -/
def Block.syncMiss (b : Block) : Bool := !b.noResp && (bitN b.ustat 6 || b.ustat % 16 == 4)

/-- The unit gave a usable sample in this sweep. -/
def Block.usable (b : Block) (bad : Bool) : Bool := !b.noResp && !b.syncMiss && !b.stale && b.full && !bad

/-- Fitted cells of a unit. -/
def fitCells (s : State) (k p : Nat) : List Nat := (List.range 16).filter (fitted s k p)

/-- Fitted cells with a usable reading. -/
def validCells (s : State) (k p : Nat) (b : Block) : List Nat :=
  if b.usable (lp s k).cellsBad then (fitCells s k p).filter fun c => b.cells.getD c 0xFFFF != 0xFFFF else []

/-- STACK_MISMATCH (R150). -/
def stackOff (s : State) (k p : Nat) (b : Block) : Bool :=
  let fit := fitCells s k p
  let sum := (fit.map fun c => b.cells.getD c 0).foldl (· + ·) 0
  decide ((validCells s k p b).length = fit.length) && b.usable false && b.stack != 0xFFFF &&
    decide (((20 * b.stack : Nat) - (sum : Nat) : Int).natAbs > 10 * rdf s swpStk [k] 15 0)

/-- UFLAGS (*Table: Unit flags*). -/
def unitFlags (s : State) (k p : Nat) (b : Block) : Nat :=
  let conv := b.full && ((fitCells s k p).any (fun c => b.cells.getD c 0 == 0xFFFF) || b.stack == 0xFFFF)
  let th := b.full && (List.range 4).any fun t => thermFitted s k p t && b.therms.getD t 0 == 0x8000
  flag b.noResp 15 + flag b.syncMiss 14 + flag b.stale 13 + flag (bitN b.ustat 7) 12 + flag (stackOff s k p b) 11 +
    flag conv 10 + flag th 9 + flag (bitN b.ustat 5) 8 + flag b.alm 7 + flag b.bEnd 6

/-- The open-wire test current was applied to a unit at the sample instant: since its acknowledge, until PHASE 0, HOLD or a
restart of the unit ends it (R153); the result is since when. -/
def owSince (s : State) (k p : Nat) (por : Bool) : Option Nat :=
  let l := lp s k
  match l.owCur with
  | some (q, a, u) => if (q = 0 ∨ q = p) ∧ a ≤ l.t0 ∧ l.t0 < u ∧ !por then some a else none
  | none => none

/-- A cell was bleeding in the 1 s before the SYNC, from the durations that BAL_SET gave it; the test current of a
phase stops every bleed (R153). -/
def bled (s : State) (k p c : Nat) (ow : Option Nat) : Bool :=
  let l := lp s k
  let e := tget 0 (unitAt l p).balUntil c
  let held := match ow with | some t => decide (t + 1000000 ≤ l.t0) | none => false
  e != 0 && decide (e + 1000000 > l.t0) && !held

/-- CFLAG[c] (*Table: Cell flags*). `auto` are the cells that autonomous balancing bled, which no response names. -/
def cellFlag (s : State) (k p : Nat) (b : Block) (auto c : Nat) : Nat :=
  let u := unitAt (lp s k) p
  let v := rd s swpVlim [k]
  if !fitted s k p c then 0x40
  else
    let ok := (validCells s k p b).contains c
    let x := b.cells.getD c 0
    let ow := owSince s k p (bitN b.ustat 7)
    flag (!ok) 7 + flag (bitN u.susp.toNat c) 5 + flag (bitN u.fault.toNat c) 4 +
      flag (bled s k p c ow || (bitN b.ustat 5 && bitN auto c)) 3 + flag ow.isSome 2 +
      flag (ok && decide (x ≥ fld v 31 16)) 1 + flag (ok && decide (x ≤ fld v 15 0)) 0

/-- Median × 2: the sum of the two middle values, or twice the middle one. -/
def median2 (l : List Nat) : Nat :=
  let s := l.mergeSort
  let n := s.length
  if n = 0 then 0 else if n % 2 = 1 then 2 * s.getD (n / 2) 0 else s.getD (n / 2 - 1) 0 + s.getD (n / 2) 0

/-- The cells that deviate from the unit's median by more than OW_DEV (R151). -/
def deviates (s : State) (k p : Nat) (b : Block) : List Nat :=
  let u := unitAt (lp s k) p
  let v := validCells s k p b
  let m := median2 (v.map fun c => b.cells.getD c 0)
  if v.length < 4 then []
  else v.filter fun c =>
    !bitN u.susp.toNat c && !bitN u.fault.toNat c &&
      decide (((2 * b.cells.getD c 0 : Nat) - (m : Nat) : Int).natAbs > 20 * rdf s swpOw [k] 21 12)

/-- Note a condition's onset, and raise its alarm type at the onset (R167). -/
def onsetAt (s : State) (k p bit type : Nat) (on : Bool) : State :=
  let u := unitAt (lp s k) p
  let was := bitN u.onset.toNat bit
  let m : BitVec 8 := BitVec.ofNat 8 (2 ^ bit)
  let s := modUnit s k p fun u => { u with onset := if on then u.onset ||| m else u.onset &&& ~~~ m }
  if on && !was then alarmOcc s k p type (cellMask s k p) 0 else s

/-- A unit that reported POR gets SET_COMP and its configuration again (R130 item 4, R139, R166). -/
def porWork (s : State) (k p : Nat) : State :=
  let l := lp s k
  if l.queue.any fun i => i.rank == 40 && i.cmds.any fun c => c.1 == p && c.2.opc == 0x04 then s
  else enqueueOwn s k { rank := 40, cmds := ((p, setComp l p) :: (cfgWrites s k p).map fun c => (p, c)) }

/-- Evaluate one position at the close of a sweep: its flags, alarms and triggers, and the bytes of its block. -/
def closeUnit (s : State) (k p : Nat) : State × List Byte × Nat :=
  let b := blockOf s k p
  let normal := (lp s k).kind == 0
  let (auto, s) := if bitN b.ustat 5 then drawFree s else (0, s)
  let uf := unitFlags s k p b
  let fl := (List.range 16).map (cellFlag s k p b auto)
  let por := bitN b.ustat 7
  let dev := deviates s k p b
  let off := stackOff s k p b
  let elig := bitsOf 16 fun c => decide (fl.getD c 0 / 16 = 0)
  let s := modUnit s k p fun u =>
    let runs := (List.range 16).foldl (fun t c =>
      tset 0 t c (if dev.contains c then satAdd 2 (tget 0 u.devRun c) 1 else 0)) []
    { u with ustat := BitVec.ofNat 8 b.ustat, uflags := BitVec.ofNat 16 uf, por := por
             comp := u.comp && !por, therms := b.therms.map (sgn 16), stack := b.stack, ssum := BitVec.ofNat 16 b.ssum
             cflags := fl.map (BitVec.ofNat 8), cells := if normal then b.cells else u.cells
             elig := if normal then BitVec.ofNat 16 elig else u.elig, stackBad := if normal then off else u.stackBad
             devRun := if normal then runs else u.devRun }
  let s := onsetAt s k p 0 0x20 b.noResp
  let s := onsetAt s k p 1 0x21 off
  let s := onsetAt s k p 4 0x24 por
  let s := if por then porWork s k p else s
  let trig := dev.filter fun c => decide (tget 0 (unitAt (lp s k) p).devRun c ≥ 2)
  let s := if normal && !trig.isEmpty then
      owTrigger (modUnit s k p fun u =>
        { u with trigCells := u.trigCells ||| BitVec.ofNat 16 (bitsOf 16 trig.contains) }) k p
    else s
  let bytes := [BitVec.ofNat 8 p, BitVec.ofNat 8 b.ustat] ++ leB 2 uf ++ b.cells.flatMap (leB 2) ++
    b.therms.flatMap (leB 2) ++ leB 2 b.stack ++ leB 2 b.ssum ++ fl.map (BitVec.ofNat 8)
  (s, bytes, (fl.filter fun f => bitN f 7).length)

/-! ### The open-wire test (R151 to R157) -/

/-- Readings of a unit in a test sweep, none unless every fitted cell is valid. -/
def testCells (s : State) (k p : Nat) : List Nat :=
  let b := blockOf s k p
  if (validCells s k p b).length = (fitCells s k p).length then b.cells else []

/-- The positions under test: those of the loop that can be addressed, or one. -/
def owUnits (l : LoopS) (pos : Nat) : List Nat := if pos = 0 then reachablePos l else [pos]

/-- 2 × m(j) of R156 in 100 µV, from ΔV by cell. -/
def nodeMove (dv : Nat → Int) (j : Nat) : Int :=
  if j = 0 then -(2 * dv 0) else if j = 16 then 2 * dv 15 else dv (j - 1) - dv j

/-- Evaluate one unit (R156): whether a node is open, whether a triggering cell stays unresolved, and the state. One without
all its cells in both sweeps has been tested all the same (R151) and keeps its flags. -/
def owUnit (s : State) (k p : Nat) : Bool × Bool × State :=
  let u := unitAt (lp s k) p
  if u.test1 = [] ∨ u.test2 = [] then
    (false, false, modUnit s k p fun u => { u with test1 := [], test2 := [], lastTest := s.now })
  else
    let dv (c : Nat) : Int := (u.test1.getD c 0 : Nat) - (u.test2.getD c 0 : Nat)
    let thr : Int := 10 * rdf s swpOw [k] 31 22
    let open_ (j : Nat) : Bool := decide (nodeMove dv j > 2 * thr)
    let low (j : Nat) : Bool := decide (nodeMove dv j ≤ thr)
    let fit := fitCells s k p
    let bad (c : Nat) : Bool := open_ c || open_ (c + 1)
    let susp := bitsOf 16 fun c =>
      fit.contains c && (bad c || (bitN u.susp.toNat c && !(low c && low (c + 1))))
    let trig := (fit.filter fun c => bitN u.trigCells.toNat c).filter fun c => !bad c
    let fault := bitsOf 16 fun c => bitN u.fault.toNat c || (trig.contains c && !u.stackBad)
    let newS := bitsOf 16 fun c => bitN susp c && !bitN u.susp.toNat c
    let newF := bitsOf 16 fun c => bitN fault c && !bitN u.fault.toNat c
    let s := modUnit s k p fun u =>
      { u with susp := BitVec.ofNat 16 susp, fault := BitVec.ofNat 16 fault, trigCells := 0, test1 := [], test2 := []
               lastTest := s.now, devRun := [] }
    let s := if newS ≠ 0 then alarmOcc s k p 0x22 newS 0 else s
    let s := if newF ≠ 0 then alarmOcc s k p 0x23 newF 0 else s
    ((List.range 17).any open_, u.stackBad && !trig.isEmpty, s)

/-- The end of a test: PHASE 0 and the evaluation (R153 step 5, R156). DESIGN CHOICE (assumption 73): OW_PER is counted from
the last due time of the periodic test, and anew from the end of any test of the whole loop, OW_RUN with POS 0 included. -/
def owEvaluate (s : State) (k : Nat) : State :=
  let s := owSend s k 0
  let ps := owUnits (lp s k) (lp s k).owPos
  let (found, unresolved, s) := ps.foldl (fun (f, u, s) p =>
    let (a, b, s) := owUnit s k p
    (f || a, u || b, s)) (false, false, s)
  let host := (lp s k).owHost
  let pos := (lp s k).owPos
  let s := modLp s k fun l =>
    { l with owState := 0, owLast := if found then 2 else 1, owAckAt := none, owHost := false
             lastOwAll := if l.owPos = 0 then s.now else l.lastOwAll }
  let s := if unresolved then stage s .owUnresolved bSWP sevWarning [BitVec.ofNat 8 k, BitVec.ofNat 8 pos] else s
  if host && s.chn.swpRes == .busy && !(List.range 4).any (fun j => (lp s j).owHost) then swpRes .ok s else s

/-- A point of impedance is being measured, which holds a test back (R152). -/
def owHeld (s : State) (k : Nat) : Bool := (imps s k).armed || (imps s k).epoch.isSome

/-- A unit that a test cannot use: it reported POR, or, where its response counts, it gave none (R155). -/
def owGone (l : LoopS) (response : Bool) (p : Nat) : Bool :=
  bitN (unitAt l p).uflags.toNat 12 || (response && bitN (unitAt l p).uflags.toNat 15)

/-- Take the open-wire test one step on at the close of a sweep (R153, R155): start a waiting one after a normal sweep,
keep the readings of a test sweep, abandon one whose unit is gone or has lost power. A phase that a full queue refused is
sent again. -/
def owClose (s : State) (k : Nat) : State :=
  let l := lp s k
  if l.owState ≠ 0 ∧ (owUnits l l.owPos).any (owGone l (l.kind != 0)) then owAbort s k
  else if l.owState = 0 then
    match l.owWait.find? fun p => (p == 0 || (route l p).isSome) && !(owUnits l p).any (owGone l true) with
    | none => s
    | some p =>
      if owHeld s k ∨ l.kind ≠ 0 ∨ queued l ≥ 16 then s
      else owSend (modLp s k fun l =>
        { l with owState := 1, owPos := p, owAckAt := none, owWait := l.owWait.erase p }) k 1
  else if l.kind = 0 then
    if l.owAckAt.isNone && !l.queue.any fun i => i.rank == 60 then owSend s k l.owState else s
  else
    let keep (s : State) (first : Bool) : State := (owUnits l l.owPos).foldl (fun s p =>
      let t := testCells s k p
      modUnit s k p fun u => if first then { u with test1 := t } else { u with test2 := t }) s
    if l.owState = 1 then owSend (modLp (keep s true) k fun l => { l with owState := 2, owAckAt := none }) k 2
    else owEvaluate (keep s false) k

/-! ### The record (R146, R147) -/

/-- RFLAGS. -/
def recFlags (l : LoopS) (nresp : Nat) : Nat :=
  flag l.drwAtT0 5 + flag l.countMismatch 4 + flag l.skipped 3 + flag (decide (nresp < l.n)) 2 +
    flag l.degrAtT0 1 + flag (decide (l.bLim > 0)) 0

/-- Write the sweep record and its descriptor; a descriptor that the ring drops leaves the buffer unchanged (R146).
DESIGN CHOICE (assumption 73): without a partition for the loop's sweeps the record is stored nowhere, and BUF is 0. -/
def putRecord (s : State) (k : Nat) (blocks : List Byte) (ninv : Nat) : State :=
  let l := lp s k
  let seq := BitVec.ofNat 32 l.records
  let nresp := (((List.range l.n).map (· + 1)).filter fun p => l.resps.any fun r => r.pos == p).length
  let len := 32 + 64 * l.n
  let istr := if l.istrInvalid then 0x80000000 else twos 32 l.istr
  let head := leB 4 seq.toNat ++ [BitVec.ofNat 8 k, l.syncId, BitVec.ofNat 8 l.kind,
      BitVec.ofNat 8 (recFlags l nresp)] ++ leB 8 l.ts.toNat ++
    [BitVec.ofNat 8 l.n, BitVec.ofNat 8 (aLast l), BitVec.ofNat 8 (bFirst l), BitVec.ofNat 8 nresp] ++ leB 4 istr ++
    leB 2 len ++ leB 2 ninv
  let crc := crc32c (head ++ leB 4 0 ++ blocks)
  let r := 16 + k
  let part := partOf s (.sweep ⟨k % 4, Nat.mod_lt k (by decide)⟩)
  let off := match part with
    | some p => p.base + 2080 * ((ring s r).head.toNat % max 1 (ringDepth s r))
    | none => 0
  let (ok, t) := ringPut s r { type := 1, src := k, buf := off, len := len }
  let t := if ok && part.isSome then engStore t .chain k off (head ++ leB 4 crc ++ blocks) else t
  modLp t k fun l => { l with seq := seq, records := l.records + 1, skipped := false, lastRecord := some l.t0 }

/-- SWEEP_CLOSE: the read of the sweep has ended (R137, R144). The units are evaluated, the record written, the
open-wire test goes on, and the estimator and the impedance unit take the sweep. -/
def execSweepClose (k : Str) (s : State) : Out :=
  .next (
    let l := lp s k
    if !l.sweepOpen ∨ !l.readDone ∨ l.tx.isSome then s
    else
      let (s, blocks, ninv) := ((List.range l.n).map (· + 1)).foldl (fun (s, bs, n) p =>
        let (s, b, i) := closeUnit s k p
        (s, bs ++ b, n + i)) (s, ([] : List Byte), 0)
      let s := putRecord s k blocks ninv
      let first := l.balFirst
      let s := modLp s k fun l => { l with sweepOpen := false, readDue := false, readDone := false, balFirst := false }
      let s := owClose (if first then enqueueOwn s k (readBalItem (lp s k)) else s) k
      impSweep (estSweepClose s k) k)

/-! ### Triggers and SWP_CMD -/

/-- Rights of SWP_CMD: maintenance or configure. -/
def swpRight (w : Win) : State → Bool := rightAny w rMaint rCfg

/-- OW_RUN (R151): a trigger that stays pending on a loop that does not sweep (R542). RES reads BUSY until the test
ends. -/
def opOwRun (k p : Nat) (s : State) : Code × State :=
  ifOk (firstCode [when_ (!loopOn s k || decide (p > (lp s k).n)) .notPresent]) s fun s =>
    (.ok, modLp (owTrigger s k p) k fun l => { l with owHost := true })

/-- BAL_HALT (R160). DESIGN CHOICE (assumption 73): in DROWSE, where R165 has the module send no BAL_SET, the BAL_SET of zero
durations waits for the end of DROWSE. -/
def opBalHalt (k : Nat) (s : State) : Code × State :=
  ifOk (when_ (!loopOn s k) .notPresent) s fun s =>
    let s := modLp s k fun l => { l with balHalted := true }
    (.ok, if s.emb.mode = .drowse then s else sendBalZero s k)

/-- BAL_RESUME (R160). -/
def opBalResume (k : Nat) (s : State) : Code × State :=
  ifOk (when_ (!loopOn s k) .notPresent) s fun s => (.ok, modLp s k fun l => { l with balHalted := false })

/-- OW_RUN. -/
def execOwRun (w : Win) (k : Str) (pos : BitVec 6) (s : State) : Out :=
  .next (hostCmd w 0x50000 (cmdReq (swpRight w) (busyRes swpRes) (opOwRun k pos.toNat)) s)

/-- BAL_HALT. -/
def execBalHalt (w : Win) (k : Str) (s : State) : Out :=
  .next (hostCmd w 0x50000 (cmdReq (swpRight w) swpRes (opBalHalt k)) s)

/-- BAL_RESUME. -/
def execBalResume (w : Win) (k : Str) (s : State) : Out :=
  .next (hostCmd w 0x50000 (cmdReq (swpRight w) swpRes (opBalResume k)) s)

/-- OW_PERIODIC: OW_PER has passed since the last test of the whole loop (R151). On a loop that does not sweep it takes
place at its next due time (R542). -/
def execOwPeriodic (k : Str) (s : State) : Out :=
  .next (
    let l := lp s k
    let per := rdf s swpOw [k] 11 0
    if !awake s ∨ !loopOn s k ∨ per = 0 ∨ s.now < l.lastOwAll + 60000000 * per then s
    else
      let s := modLp s k fun l => { l with lastOwAll := s.now }
      if sweeps l then owTrigger s k 0 else s)

/-- OW_SUSPECT_RETEST: a cell of the unit has been SENSE_SUSPECT for 60 s since its last test (R151). -/
def execOwSuspectRetest (k : Str) (pos : BitVec 6) (s : State) : Out :=
  .next (
    let l := lp s k
    let u := unitAt l pos.toNat
    if !awake s ∨ pos = 0 ∨ pos.toNat > l.n ∨ u.susp = 0 ∨ s.now < u.lastTest + 60000000 ∨
        (l.owState ≠ 0 ∧ (l.owPos = 0 ∨ l.owPos = pos.toNat)) then s
    else owTrigger s k pos.toNat)

/-! ### The balancing sequencer (R158 to R162) -/

/-- t_c of a cell in s (*Table: Balancing policies*, R159). -/
def balTime (s : State) (k p c : Nat) : Nat :=
  let cfg := rd s swpBcfg [k]
  let cap := 9 * fld cfg 11 0 / 10
  let u := unitAt (lp s k) p
  let hot : Bool := match (u.therms.filter fun t => t != -32768).max? with
    | some t => decide (t ≥ (rdf s swpBauto [k] 15 0 : Nat))
    | none => false
  if hot || !eligible s k p c then 0
  else match fld cfg 31 30 with
    | 0 => 0
    | 1 =>
      let v := u.cells.getD c 0
      if v > (vMin s k).getD v + 10 * fld cfg 23 16 then cap else 0
    | 2 => min ((cell s (cellIdx k p c)).eC / 200) cap
    | _ =>
      let w := rd s swpBdem [k, p - 1, c / 2]
      min (if c % 2 = 1 then fld w 31 16 else fld w 15 0) cap

/-- The BAL_SET of every unit that the module can address. -/
def balSetItem (s : State) (k : Nat) : ChainItem :=
  { rank := 63, cmds := (reachablePos (lp s k)).map fun p =>
      (p, toUnit 0x07 (limAll :: (List.range 16).flatMap fun c => leB 2 (balTime s k p c))) }

/-- True in the modes of R158. -/
def balMode (m : Mode) : Bool := m == .standby || m == .precharge || m == .connected || m == .maintenance

/-- BALANCE_RUN: every BAL_PER the bleed charge is read, and in the modes of R158, unless balancing is stopped (R160),
BAL_SET goes to each unit. In DROWSE only READ_BAL is sent (R161, R165). -/
def execBalanceRun (k : Str) (s : State) : Out :=
  .next (
    let l := lp s k
    let runs := balMode s.emb.mode && !balStopped s k && s.emb.emberAt.isNone
    if !awake s ∨ !loopOn s k ∨ s.now < l.lastBal + 1000000 * rdf s swpBcfg [k] 11 0 ∨
        (!runs ∧ s.emb.mode ≠ .drowse) then s
    else
      let s := modLp s k fun l => { l with lastBal := s.now }
      if !sweeps l then s
      else if runs then
        let s := supplyEc s k
        let s := enqueueOwn s k (readBalItem (lp s k))
        enqueueOwn s k (balSetItem s k)
      else enqueueOwn s k (readBalItem (lp s k)))

/-! ### Register views -/

/-- SWP_STATk. -/
def swpStat (s : State) (k : Nat) : Nat :=
  let l := lp s k
  flag (ring s (20 + k)).overflow 31 + place l.owState 30 28 + place l.owLast 27 26 + flag (balStopped s k) 25 +
    place (min 7 l.owWait.length) 24 22 + place l.owPos 21 16 + min 0xFFFF l.alost

/-- SWP_CFLAGk,p. -/
def swpCflag (s : State) (k p : Nat) : Nat :=
  let u := unitAt (lp s k) p
  place u.susp.toNat 31 16 + u.fault.toNat

/-- W1C of CELL_FAULT bits (R157). -/
def clrFault (s : State) (k p v : Nat) : State :=
  modUnit s k p fun u => { u with fault := u.fault &&& ~~~ (BitVec.ofNat 16 v) }

end Sys2Proof.Machine
end

