-- ==== Sys2Proof/Machine/Boot.lean ====
section
/-!
DEFINITION. Start and end of power (chapter 2): the register values of a start (R12, R99, R543), the cold start (R71,
R86, R536), Kindling (R66), PFAIL and the flush (R73 to R75, R540), the counters and the Ember coulomb counter (R69,
R70, R72, R76).
-/

namespace Sys2Proof.Machine

/-- BLOCK code of the Ember domain, which is the SRC of its records. -/
def bEMB : Byte := 0x02
/-- BLOCK code of the Cord loader. -/
def bCRD : Byte := 0x03

/-- Change the Ember domain. -/
def modEmb (s : State) (f : Emb → Emb) : State := { s with emb := f s.emb }

/-! ### Register values at a start -/

/-- The values that the running Cord sets, over those of the variant. -/
def cordRegs (s : State) : Tab Word :=
  match s.crd.content with
  | some c => contentRegs s c
  | none => variantRegs s

/-- True when the running Cord sets a register. -/
def cordSets (s : State) (a : Nat) : Bool :=
  match s.crd.content with
  | some c => c.regs.any fun p => p.1 == a
  | none => false

/-- Retained values that a host wrote: the Cord's value goes before one of them at a cold start (R543). -/
def keptRegs (s : State) (t : Tab Word) : Tab Word :=
  s.kept.foldl (fun t p => match p.2 with
    | some v => if cordSets s p.1 then t else regLoad t p.1 v.toNat
    | none => t) t

/-- The retained values behind a cold start (R543): a field that the Cord sets takes, and from then on keeps, the Cord's
value. -/
def keptNow (s : State) : Tab (Option Word) :=
  (cordRegs s).foldl (fun t p => match famAt p.1 with
    | some (f, _) => if f.kept ≠ 0 ∧ cordSets s p.1 then tset none t p.1 (some (wd (p.2.toNat.land f.kept))) else t
    | none => t) s.kept

/-- Frozen and retained fields that survive EMBER (R99, R543), over the Cord's value of the rest. A register that stands at
its reset value is carried too. -/
def carriedRegs (s : State) (t : Tab Word) : Tab Word :=
  ((s.regs.map (·.1)) ++ t.map (·.1)).foldl (fun t a => match famAt a with
    | some (f, ix) =>
      let m := f.frozen.lor f.kept
      if f.perWin ∨ m = 0 then t
      else regLoad t a (putBits (tget (wd (f.reset ix)) t a).toNat m (tget (wd (f.reset ix)) s.regs a).toNat)
    | none => t) t

/-- Registers at a start, of the instances that are enabled (R93). At a cold start: reset values, then the Cord's, then retained ones; at Kindling the Kiln configuration
memory still holds the frozen values. -/
def loadRegs (s : State) (cold : Bool) : State :=
  let base := keptRegs s (cordRegs s)
  let regs := (if cold then base else carriedRegs s (cordRegs s)).filter fun p => match famAt p.1 with
    | some (f, ix) => present s (f.part ix).1 (f.part ix).2
    | none => true
  { s with regs := regs, shadow := [], frozen := if cold then [] else s.frozen, kept := if cold then keptNow s else s.kept }

/-! ### Start of the blocks -/

/-- The windows and rings at a start: everything but the dispatch owner, which EMBER keeps (R456), and the error counters,
which a cold start clears. -/
def hstStart (s : State) (cold : Bool) : State :=
  let owner : Win := match s.crd.content with | some c => c.owner | none => 0
  let h := s.hst
  { s with hst := if cold then { ({} : Hst) with owner := owner } else
    { ({} : Hst) with owner := h.owner, qCrcA := h.qCrcA, qProtoA := h.qProtoA, qCrcB := h.qCrcB, qProtoB := h.qProtoB
                      usbErr := h.usbErr } }

/-- The fabric at a start; a stopped engine stays stopped until the next cold start (R37). -/
def klnStart (s : State) (cold : Bool) : State :=
  { s with kln := { ({} : Kln) with stopped := if cold then [] else s.kln.stopped
                                    engineFault := !cold && s.kln.engineFault } }

/-- The relay at a start: no session; the confirmation state is retained (R501, R505). -/
def updStart (s : State) (cold : Bool) : State :=
  let u := s.upd
  { s with upd := { ({} : Upd) with
      confRun := u.confRun, confirmed := u.confirmed, fellBack := u.fellBack, fbFail := u.fbFail, cleft := u.cleft
      fbDue := u.fbDue, frameErr := if cold then 0 else u.frameErr, nakCnt := if cold then 0 else u.nakCnt } }

/-- The panel at a start: its counters are retained, and so are a contact and the touch that woke the module. -/
def pnlStart (s : State) (cold : Bool) : State :=
  { s with pnl := { ({} : Pnl) with ejects := s.pnl.ejects, plost := s.pnl.plost
                                    touched := if cold then [] else s.pnl.touched
                                    consumed := if cold then 0 else s.pnl.consumed } }

/-- The blocks that depend on the installed Cord, in the order of *Table: Subsystems*; `calBad` are the copies of
calibration records that fail their CRC at this start. -/
def blocksStart (s : State) (cold : Bool) (b : BootFacts) : State :=
  let s := safStart (timStart s cold) cold
  let s := trcStart (meaStart s cold) cold b.calBad
  let s := chnStart s cold
  let s := estStart (impStart s b.impBad) cold b
  let s := thmStart (ctlStart s cold) cold
  let kind : EngineBegin := if cold then .cold else .kindling
  parStart (canStart (fioStart (lgcStart s kind) kind)) kind

/-- Registers of the tasks that the Cord loads (R359). -/
def taskRegs (s : State) : State :=
  match s.crd.content with
  | some c => (c.tasks.filter fun p => present s 14 p.1).foldl (fun s p => loadTaskRegs s p.1 p.2) s
  | none => s

/-! ### Cold start -/

/-- What a cold start follows: the supply, or one of R536. -/
inductive ColdWhy where
  | supply | activate | revert | fallback | kindling (billet : Nat)
  deriving DecidableEq, Repr

/-- Step 2 of R71 under R86: the running slot is verified, its content installed and its billets loaded into their
destinations (R79). The lanes take their copies as they start. -/
def install (s : State) (b : BootFacts) : State :=
  let s := { s with crd := { s.crd with content := none, runBad := false, kcm := [] } }
  if s.crd.running.bytes.isEmpty then s
  else
    let r := cordCheck s b.facts b.content s.crd.running.bytes
    if r.1 = 0 then
      let img := s.crd.running.bytes
      loadBillets { s with crd := { s.crd with content := some b.content, kcm := kcmOf img } } img
    else crdReport { s with crd := { s.crd with runBad := true } } r

/-- The mode and cause in which a cold start comes up (R56, R62): a module that lost power in SAFE_STOP keeps its cause;
a latch kept through a bare start gives the cause of its kind; behind an abandoned Kindling CAUSE reads 0 (R66). -/
def coldMode (s : State) (why : ColdWhy) : Mode × Nat :=
  if s.crd.content.isNone then (.configure, 0)
  else if s.emb.mode = .safeStop then (.safeStop, s.emb.cause)
  else if let .kindling _ := why then
    (if s.emb.latchFaults.isEmpty ∧ s.saf.latch = 0 then .standby else .safeStop, 0)
  else if s.emb.latchFaults.isEmpty ∧ s.saf.latch = 0 then (.standby, 0)
  else (.safeStop, if s.saf.latch.toNat = 2 ^ 15 then 6 else match s.emb.latchFaults with | c :: _ => c | [] => 5)

/-- The Ember domain at a cold start: what chapter 2 marks as retained stays. -/
def embCold (s : State) (b : BootFacts) (why : ColdWhy) : State :=
  let (m, c) := coldMode s why
  let e := s.emb
  modEmb s fun _ =>
    { ({} : Emb) with
      mode := m, cause := c, power := .on, present := b.present, eject := b.leverOpen, vsup := b.vsup10mv
      holdup := e.holdup, holdupOk := decide (e.holdup ≥ 135), oph := e.oph, ophAcc := e.ophAcc
      pwc := wrap 24 e.pwc, pfailCnt := e.pfailCnt, glitch := e.glitch, ticks := e.ticks, tickAcc := e.tickAcc
      forceAcked := e.forceAcked, latchFaults := e.latchFaults }

/-- The confirmation window as the cold start of an activation or a fallback leaves it (R90, R505, R506). -/
def confirmStart (s : State) (why : ColdWhy) : State :=
  match why with
  | .activate =>
    let run := !s.crd.previous.bytes.isEmpty
    { s with upd := { s.upd with
        confRun := run, confirmed := false, fellBack := false, fbFail := false, fbDue := false
        cleft := if run then 32768 * rdf s updCwin [] 15 0 else 0 } }
  | .fallback =>
    { s with upd := { s.upd with confRun := false, fellBack := true, fbDue := false, cleft := 0 }
             crd := { s.crd with saved := none } }
  | .revert => { s with upd := { s.upd with confRun := false, fbDue := false, cleft := 0 } }
  | _ => s

/-- The first records of a cold start: KINDLING_ABANDONED (R66), PWR_RECOVERED (R75, R540), CORD_CHECK_FAIL (R86). -/
def coldRecords (s : State) (why : ColdWhy) (pfail : Bool) : State :=
  let s := match why with
    | .kindling i => stage s .kindlingAbandoned bEMB sevFault (leB 2 i)
    | _ => s
  let s := if pfail then stage s .pwrRecovered bEMB sevNotice (leB 2 s.emb.pfailCnt) else s
  if s.crd.runBad then stage s .cordCheckFail bCRD sevFault (leB 4 (crdResult s)) else s

/-- A fallback that a cold start finds unfinished begins again with its verification (R506). -/
def fallbackAgain (s : State) : State :=
  if s.upd.fbDue ∧ s.crd.verifying.isNone then startVerify .fallback false s else s

/-- The cold start (R71). -/
def doColdStart (b : BootFacts) (why : ColdWhy) (s : State) : State :=
  let pfail := s.emb.pfail
  let s := { s with mem := [], arb := {}, tx := [] }
  let s := install (crdStart s true) b
  let s := taskRegs (loadRegs (embCold s b why) true)
  let s := pnlStart (updStart (klnStart (hstStart s true) true) true) true
  let s := coldRecords (recStart s true) why pfail
  fallbackAgain (confirmStart (blocksStart s true b) why)

/-- The preparation of R536 for a cold start with the supply present. In EMBER, at an abandoned Kindling, the recorder
and the estimator have not started and write nothing. -/
def prepCold (s : State) : State :=
  let s := parkAll (safAllOff (lgcSettle (lgcFinish s) true)) 1
  if s.emb.mode = .ember then s else impFlush (estPowerFlush (!nvOpen s) (recPowerFlush s))

/-- COLD_START: the supply at or above 17.0 V for 20 ms, PRESENT made and EJECT clear (R71, R516). -/
def execColdStart (boot : BootFacts) (s : State) : Out :=
  .next (
    if (s.emb.power = .dark ∨ s.emb.power = .waiting) ∧ boot.vsup10mv ≥ 1700 ∧ boot.present ∧ !boot.leverOpen then
      doColdStart boot .supply s
    else s)

/-! ### Kindling -/

/-- EMBER_WAKE: a source fires (R65). The Ember timer fires only when PERIOD has elapsed. -/
def execEmberWake (src : Fin 8) (s : State) : Out :=
  .next (
    let period := rdf s embTimer [] 23 0
    if src = 0 ∧ (period = 0 ∨ s.emb.ticks < s.emb.emberEntry + 32768 * period) then s else fireWake s src)

/-- Engines start after a wake: STANDBY, or SAFE_STOP under R62. -/
def doKindling (b : BootFacts) (s : State) : State :=
  let ticks := s.emb.ticks - s.emb.emberEntry
  let safe := decide (s.saf.latch ≠ 0) || !s.emb.latchFaults.isEmpty
  let e := s.emb
  let s := modEmb { s with mem := [], arb := {}, tx := [] } fun _ =>
    { e with
      mode := if safe then .safeStop else .standby, prev := .ember, cause := 2, reqs := [], evalAt := none, recovAt := none
      rampSince := none, rampTimeout := false, drowseExit := none, quietSince := none, qdrw := [], wakePend := false
      loto := .lock, lotoSeen := false, lotoBetween := none }
  let s := { s with lgc := { s.lgc with time := s.lgc.time + ticks * 1000000 / 32768 } }
  let s := if hasCord s then loadBillets s s.crd.running.bytes else s
  let s := taskRegs (loadRegs (crdStart s false) false)
  let s := pnlStart (updStart (klnStart (hstStart s false) false) false) false
  let s := recStart s false
  blocksStart (stage s .embWake bEMB sevInfo [s.emb.wakeSrc]) false b

/-! ### The Ember coulomb counter (R69, R70) -/

/-- One sample of a string: a resolution of 10 mA, a range of ±800 A. DESIGN CHOICE (assumption 72): a value is brought to
the nearest 10 mA, halves away from zero, and one outside the range to its end. -/
def Qdrw.sample (d : Qdrw) (i : Int) (vs : Option Int) (wake : Nat) : Qdrw :=
  let x := clampI (-800000) 800000 (10 * rdiv i 10)
  let d := { d with q := d.q + x, last := x, wakeRun := if x.natAbs > wake then d.wakeRun + 1 else 0 }
  match vs with
  | some v => { d with vsSum := d.vsSum + v, vsN := d.vsN + 1 }
  | none => d

/-- EMBER_COUNTER_SAMPLE: IkA of each string, in mA, 1 ms after the sample before, or after the entry into DROWSE; the mean
of VSk takes the DROWSE stay alone (R69, R218). -/
def execEmberCounterSample (ia : List Int) (s : State) : Out :=
  .next (
    if s.now < s.emb.counterAt + 1000 ∨ !(awake s || flushCounts s) then s
    else
      let wake := 10 * rdf s embDrwI [] 31 16
      (strs s).foldl (fun s k =>
        let d := tget {} s.emb.qdrw k
        let vs := if s.emb.mode = .drowse then some (chan s (12 + k)).word else none
        if d.counting then modEmb s fun e => { e with qdrw := tset {} e.qdrw k (d.sample (ia.getD k 0) vs wake) }
        else s) (modEmb s fun e => { e with counterAt := s.now }))

/-- Hand a string's count to the estimator; the counter stops and keeps its value (R69, R70). -/
def handOver (s : State) (k : Nat) : State :=
  if (tget {} s.emb.qdrw k).counting then
    modEmb (estHandover s k) fun e => { e with qdrw := tmod {} e.qdrw k fun d => { d with counting := false } }
  else s

/-- QDRW_HANDOVER: at a counter sample after the exit from DROWSE at which the voted current is valid, or 10 ms after
the exit, where the gap of R217 begins. -/
def execQdrwHandover (k : Str) (s : State) : Out :=
  .next (
    match s.emb.drowseExit with
    | none => s
    | some t =>
      let late := decide (s.now ≥ t + 10000)
      let bad := (mstr s k).invalid
      if !(tget {} s.emb.qdrw k).counting ∨ (bad ∧ !late) then s
      else
        let s := handOver s k
        if bad ∧ (estr s k).gapSince.isNone then gapStart s k else s)

/-! ### Power-fail and brown-out -/

/-- HOLDUP_CHANGE: what the supply and hold-up monitor reads, the stored energy in 10 mJ and the supply in 10 mV;
HOLDUP_OK sets at 1.35 J and clears below 1.30 J (R72). OPH counts while the supply is at or above 17.0 V (R76). -/
def execHoldupChange (tenMj vsup10mv : Nat) (s : State) : Out :=
  .next (
    if s.emb.power = .dark then s
    else lgcDeferNote <| modEmb s fun e =>
      { e with vsup := vsup10mv, holdup := tenMj, holdupOk := decide (tenMj ≥ 135) || (e.holdupOk && decide (tenMj ≥ 130)) })

/-- SUPPLY_GLITCH: a dip below 16.0 V shorter than 100 µs (R73). -/
def execSupplyGlitch (durUs : Nat) (s : State) : Out :=
  .next (if s.emb.power = .dark ∨ durUs ≥ 100 then s else modEmb s fun e => { e with glitch := inc16 e.glitch })

/-- The outcome of a panel action, shown for 3 s; an accepted one is recorded (R509). Actions: 1 SAFE_ACK, 2 FORCE_ACK,
3 REQ MAINT, 4 LEAVE MAINT, 5 CLR FORCES. -/
def panelOutcome (s : State) (action : Nat) (c : Code) : State :=
  let s := { s with pnl := { s.pnl with outcome := some (c, s.now) } }
  if c = .ok then stage s .pnlAction 0x17 sevNotice [BitVec.ofNat 8 action, BitVec.ofNat 8 c.num] else s

/-- Store the outcome of a mode request where its source reads it (R22, R23, R363, EMB_MODE); the manual gives the module's
own sources and the scheduler no register for it. -/
def reqResult (s : State) (r : ModeReq) (c : Code) : State :=
  match r.src with
  | .window w => modWin s w fun x => { x with reqRes := c }
  | .logic t => modTask s t fun x => { x with reqRes := c }
  | .thermal => { s with thm := { s.thm with reqRes := c } }
  | .panel => panelOutcome s (if r.target = .maintenance then 3 else 4) c
  | .fault _ | .module _ | .sched _ | .relay _ | .lever => modEmb s fun e => { e with srcRes := some (r.src, c) }

/-- Refuse every queued request but one for SAFE_STOP (R74, R518). -/
def refuseReqs (s : State) : State :=
  let keep (r : ModeReq) : Bool := r.target == .safeStop
  let s := (s.emb.reqs.filter fun r => !keep r).foldl (fun s r => reqResult s r .refusedMode) s
  modEmb s fun e => { e with reqs := e.reqs.filter keep }

/-- Sessions and transfers end without a frame (R501, R518). -/
def relayStop (s : State) : State :=
  modUpd { s with crd := { s.crd with relayBusy := false } } fun u =>
    { u with rx := {}, tx := [], out := [], activating := false, fbGo := false, fbPending := false }

/-- PFAIL (R74, R540): outside EMBER the outputs go off, the converters park, requests are refused and POWER_FAIL is
staged; in EMBER the counters are written and nothing else. -/
def doPfail (s : State) : State :=
  let s := modEmb s fun e => { e with pfail := true, pfailCnt := inc16 e.pfailCnt, pfailAt := s.now }
  if s.emb.mode = .ember then modEmb s fun e => { e with power := .flushing }
  else
    let s := stage s .powerFail bEMB sevFault (leB 2 s.emb.pfailCnt)
    let s := parRelease (safAllOff (parkAll (stopGens s) 1))
    let s := refuseReqs (relayStop (crdPfail s))
    let s := lgcSettle s true
    let s := { s with est := { s.est with shut := !nvOpen s } }
    modEmb s fun e => { e with power := .flushing, recovAt := none, rampSince := none, emberAt := none }

/-- PFAIL: the supply has been below 16.0 V for 100 µs (R73). A module that an extraction has left dark in EMBER only
counts it (R540). -/
def execPfail (vsup10mv : Nat) (s : State) : Out :=
  .next (
    if vsup10mv ≥ 1600 then s
    else if s.emb.power = .waiting ∧ !s.emb.pfail then
      modEmb s fun e => { e with vsup := vsup10mv, pfail := true, pfailCnt := inc16 e.pfailCnt }
    else if s.emb.power ≠ .on then s
    else doPfail (modEmb s fun e => { e with vsup := vsup10mv }))

/-- PFAIL_FLUSH_COMPLETE: counters and latches, recorder staging, then dirty estimator records are stored, with the
Q_string of 2 ms after PFAIL and the DROWSE count in it (R218, R232); the module holds every output off and waits (R74, R75).
In EMBER the counters are the whole flush (R540). -/
def execPfailFlushComplete (s : State) : Out :=
  .next (
    if s.emb.power ≠ .flushing ∨ (s.emb.mode ≠ .ember ∧ s.now < s.emb.pfailAt + 2000) then s
    else
      let s := if s.emb.mode = .ember then s else (List.range 4).foldl handOver s
      let s := if s.emb.mode = .ember then s else estPowerFlush s.est.shut (recPowerFlush s)
      let s := if s.emb.mode = .ember then s else fioOff s
      modEmb s fun e => { e with power := .waiting })

/-- HOLD_UP_EXHAUSTED: below 16.0 V the module goes dark when the hold-up store runs out (R74, R75). -/
def execHoldUpExhausted (s : State) : Out :=
  .next (
    if s.emb.power = .waiting ∧ s.emb.vsup < 1600 then
      modEmb { s with mem := [], arb := {}, tx := [] } fun e => { e with power := .dark, holdup := 0, holdupOk := false }
    else s)

end Sys2Proof.Machine
end

