-- ==== Sys2Proof/Machine/Kln.lean ====
section
/-!
DEFINITION. The Kiln core (chapter 1) and the commit of shadowed fields (R95 to R98): domains and clock faults, aged
grants, partition violations and engine faults, delivery of events, commit groups.
-/

namespace Sys2Proof.Machine

/-- BLOCK code of the Kiln core. -/
def bKLN : Byte := 0x01

/-- Change the Kiln core. -/
def modKln (s : State) (f : Kln → Kln) : State := { s with kln := f s.kln }

/-! ### Commit groups -/

/-- Instances of a block in *Table: Commit groups and boundaries*, 0 for a block without groups. -/
def groupCount (b : Nat) : Nat :=
  match b with
  | 2 | 12 | 15 | 17 | 18 | 20 | 21 => 1
  | 4 | 5 | 8 | 9 => 4
  | 6 => 24
  | 10 => 64
  | 11 | 14 => 16
  | 16 => 3
  | _ => 0

/-- The instance is fitted and enabled (R5, R93). -/
def groupFitted (s : State) (b n : Nat) : Bool :=
  match b with
  | 4 | 5 => present s 4 n
  | 6 | 8 | 9 | 11 | 14 | 16 => present s b n
  | 10 => present s 32 n
  | _ => true

/-- The instance runs: an instance that does not has no boundary (R97). -/
def groupRuns (s : State) (b n : Nat) : Bool :=
  awake s && match b with
  | 4 | 5 => loopOn s n && inR (lp s n).n 1 32
  | 6 => inUse s n
  | 8 => strOk s n
  | 9 => decide ((imps s n).state ≠ 0) && (imps s n).epoch.isNone && !(imps s n).armed
  | 10 => bitN (rd s ctlLcfg [n]) 31
  | 11 => bitN (rd s hrpCfg [n]) 31
  | 14 => taskOn s n
  | 16 => canEn s n
  | 21 => parRuns s
  | _ => true

/-- The instance is in the middle of its unit of work (R98): an open sweep, a frequency point, a PWM period, a task's
cycle, a frame, a flush. -/
def midUnit (s : State) (b n : Nat) : Bool :=
  match b with
  | 4 | 5 => (lp s n).sweepOpen
  | 9 => (imps s n).epoch.isSome || (imps s n).armed
  | 11 => !(pwm s n).held
  | 14 => inR (task s n).state 2 3
  | 16 => (can s n).mbx.any fun p => p.2.st == 2
  | 20 => s.recd.flushing.isSome
  | _ => false

/-- SHADOW_COMMIT: the group's boundary, and the end of the unit for which a COMMIT waits. -/
def execShadowCommit (block inst : Byte) (s : State) : Out :=
  .next (
    let b := block.toNat
    let n := inst.toNat
    if !groupRuns s b n ∨ n ≥ groupCount b ∨ held s b n then s
    else modKln (commitGroup s b n) fun k => { k with commitPend := k.commitPend.filter (· ≠ (b, n)) })

/-- Shadow copies of an instance that did not run commit when it starts (R97); `idleGrp` lists the groups with such
copies. A start is seen within the µs. -/
def commitStarts (s : State) : State :=
  let gs := ((s.shadow.filter fun p => p.2.isSome).map fun p => groupOfKey s p.1).eraseDups
  let s := (gs.filter fun g => groupRuns s g.1 g.2 && s.kln.idleGrp.contains g && !held s g.1 g.2).foldl (fun s g => commitGroup s g.1 g.2) s
  let idle := gs.filter fun g => !groupRuns s g.1 g.2
  if s.kln.idleGrp = idle then s else modKln s fun k => { k with idleGrp := idle }

/-- The COMMITs whose unit of work has ended. -/
def commitDue (s : State) : State :=
  s.kln.commitPend.foldl (fun s g =>
    if midUnit s g.1 g.2 then s
    else modKln (commitGroup s g.1 g.2) fun k => { k with commitPend := k.commitPend.filter (· ≠ g) }) s

/-- RANGE for a group that does not exist, NOT_PRESENT for one that is not fitted. -/
def groupCode (s : State) (b n : Nat) : Code :=
  if n ≥ groupCount b then .range else when_ (!groupFitted s b n) .notPresent

/-- KLN_COMMIT with GO: commit at once, or at the end of the unit of work; HOLD clears (R98). -/
def opCommit (b n : Nat) (s : State) : Code × State :=
  ifOk (groupCode s b n) s fun s =>
    let s := modKln s fun k => { k with holds := k.holds.filter (· ≠ (b, n)) }
    okCmd (if midUnit s b n then
        modKln s fun k => { k with commitPend := if k.commitPend.contains (b, n) then k.commitPend else k.commitPend ++ [(b, n)] }
      else commitGroup s b n)

/-- KLN_COMMIT with HOLD: at most 8 groups hold at once (R98). -/
def opHold (b n : Nat) (s : State) : Code × State :=
  ifOk (firstCode [groupCode s b n, when_ (decide (s.kln.holds.length ≥ 8) && !held s b n) .full]) s fun s =>
    okCmd (if held s b n then s else modKln s fun k => { k with holds := k.holds ++ [(b, n)] })

/-- KLN_COMMIT with GO and HOLD clear releases HOLD without committing. -/
def opRelease (b n : Nat) (s : State) : Code × State :=
  ifOk (groupCode s b n) s fun s => okCmd (modKln s fun k => { k with holds := k.holds.filter (· ≠ (b, n)) })

/-- A write of KLN_COMMIT. -/
def opKlnCommit (v : Nat) (s : State) : Code × State :=
  let b := fld v 15 8
  let n := fld v 7 0
  if bitN v 31 then opCommit b n s else if bitN v 30 then opHold b n s else opRelease b n s

/-- COMMIT. -/
def execCommit (w : Win) (block inst : Byte) (s : State) : Out :=
  .next (hostCmd w 0x10010 (cmdReq (rightOne w rCfg) noRes (opCommit block.toNat inst.toNat)) s)

/-- HOLD. -/
def execHold (w : Win) (block inst : Byte) (s : State) : Out :=
  .next (hostCmd w 0x10010 (cmdReq (rightOne w rCfg) noRes (opHold block.toNat inst.toNat)) s)

/-- RELEASE_HOLD. -/
def execReleaseHold (w : Win) (block inst : Byte) (s : State) : Out :=
  .next (hostCmd w 0x10010 (cmdReq (rightOne w rCfg) noRes (opRelease block.toNat inst.toNat)) s)

/-! ### Crossbar overruns -/

/-- A write of KLN_XOVR_SEL: the selection, and CLR. -/
def opXovr (v : Nat) (s : State) : Code × State :=
  let s := wr s klnXovrSel 0 [] (v.land (mask 9 0))
  okCmd (if bitN v 31 then modKln s fun k => { k with xovr := tset 0 k.xovr (fld v 9 0) 0 } else s)

/-- KLN_XOVR: the overrun count of the selected consumer. -/
def klnXovr (s : State) : Nat := tget 0 s.kln.xovr (rdf s klnXovrSel [] 9 0)

/-- XOVR_CLR. -/
def execXovrClr (w : Win) (route : BitVec 8) (cons : BitVec 2) (s : State) : Out :=
  .next (hostCmd w 0x10030 (cmdReq (rightOne w rCfg) noRes (opXovr (2 ^ 31 + route.toNat * 4 + cons.toNat))) s)

/-! ### Clock domains -/

/-- True while a domain is gated. -/
def gated (s : State) (d : Domain) : Bool := s.kln.gated.contains d

/-- A domain runs again. -/
def ungate (d : Domain) (s : State) : State := modKln s fun k => { k with gated := k.gated.filter (· != d) }

/-- The fast domains, which PLLs derive from TCX (*Table: Clock domains*). -/
def fastDom (d : Domain) : Bool :=
  match d with
  | .sys | .mem | .ctl | .hrp | .adc | .cht | .eth | .can | .usb => true
  | .emb | .lpo | .tcx | .chr | .hst | .saf | .fio => false

/-- A unit of work runs that needs the fabric in DROWSE: a chain transaction or an open sweep, a task's cycle, a recorder
flush, a verification, a waiting event. -/
def fabricWork (s : State) : Bool :=
  (List.range 4).any (fun k => (lp s k).tx.isSome || (lp s k).sweepOpen) ||
    (List.range 16).any (fun t => inR (task s t).state 2 3) || s.recd.flushing.isSome || s.crd.verifying.isSome ||
    !s.kln.evPend.isEmpty

/-- A block requests a fast domain (R40): the engines run on SYS and MEM and the bank on ADC whenever the module is awake,
in DROWSE the fabric only for a unit of work; the control engine and HRPWM run outside DROWSE, and in CONNECTED and
PRECHARGE always (R41); CHT, ETH, CAN and USB while a transaction, a link, a controller or a USB window is open. DESIGN
CHOICE (assumption 20): the manual does not say which block requests what. -/
def domWanted (s : State) (d : Domain) : Bool :=
  match d with
  | .sys | .mem => s.emb.mode != .drowse || fabricWork s
  | .adc => true
  | .ctl | .hrp => s.emb.mode != .drowse && ((List.range 64).any (fun n => bitN (rd s ctlLcfg [n]) 31) ||
      s.emb.mode == .connected || s.emb.mode == .precharge)
  | .cht => (List.range 4).any fun k => (lp s k).tx.isSome || !(lp s k).queue.isEmpty
  | .eth => (List.range 2).any fun p => (tget {} s.tim.ports p).link
  | .can => (List.range 3).any fun c => canEn s c
  | .usb => (List.range 4).any fun w => (winBind s w).transport == .usb
  | .emb | .lpo | .tcx | .chr | .hst | .saf | .fio => true

/-- LPO runs on request: for the Ember domain's housekeeping, which is all that runs in EMBER, and for the counting of
DROWSE (R39). The first step of Kindling is within one command. -/
def lpoWanted (s : State) : Bool := s.emb.mode == .ember || s.emb.qdrw.any fun p => p.2.counting

/-- The Runs column of *Table: Clock domains*. CHR and HST run with the signal that they are recovered from. -/
def domRuns (s : State) (d : Domain) : Bool :=
  match d with
  | .emb => s.emb.power != .dark
  | .saf => s.emb.power != .dark
  | .lpo => s.emb.power != .dark && lpoWanted s
  | .tcx | .chr | .hst | .fio => s.emb.power == .flushing || awake s
  | .sys | .mem | .ctl | .hrp | .adc | .cht | .eth | .can | .usb =>
    awake s && !gated s d && !s.kln.unlocked.contains d

/-- The fast domains. -/
def fastDoms : List Domain := [.sys, .mem, .ctl, .hrp, .adc, .cht, .eth, .can, .usb]

/-- Since when each fast domain has had no request. -/
def noteIdle (s : State) : State :=
  let t := fastDoms.foldl (fun t d =>
    if domWanted s d then tset none t d.ctorIdx none
    else if (tget none t d.ctorIdx).isSome then t else tset none t d.ctorIdx (some s.now)) s.kln.idleAt
  if s.kln.idleAt = t then s else modKln s fun k => { k with idleAt := t }

/-- DOMAIN_GATE: a fast domain that no block requests is gated 1 ms after the release of the last request (R40, R41). -/
def execDomainGate (d : Domain) (s : State) : Out :=
  .next (
    let since := tget none s.kln.idleAt d.ctorIdx
    if !awake s ∨ !fastDom d ∨ domWanted s d ∨ gated s d ∨ !(match since with | some t => decide (s.now ≥ t + 1000) | none => false)
    then s
    else modKln s fun k => { k with gated := k.gated ++ [d] })

/-- The gated domains that a block requests again; one whose PLL has lost its lock stays gated (R40). -/
def domsRequested (s : State) : State :=
  (s.kln.gated.filter fun d => domWanted s d && !s.kln.unlocked.contains d).foldl (fun s d => ungate d s) s

/-- The domains that R42 checks: those derived from the PLLs, and TCX itself. -/
def checkedDom (d : Domain) : Bool := fastDom d || d == .tcx

/-- CLOCK_FAULT: more than 2 % from nominal for longer than 10 µs latches and takes the module to SAFE_STOP (R42). A PLL
that deviates is out of lock until the next start. -/
def execClockFault (d : Domain) (devPpm durUs : Nat) (s : State) : Out :=
  .next (
    if !checkedDom d ∨ !domRuns s d ∨ devPpm ≤ 20000 ∨ durUs ≤ 10 then s
    else latchFault (modKln s fun k =>
      { k with clockFault := true, unlocked := if fastDom d then k.unlocked ++ [d] else k.unlocked }) 0x05)

/-! ### SRAM arbitration (R26, R27) -/

/-- The request that a bank grants next: control plane, data plane, management plane, and in a plane the first. -/
def nextReq (l : List SramReq) : Option SramReq :=
  [Plane.control, .data, .management].findSome? fun p => l.find? fun r => r.plane == p

/-- A bank serves its requests for a number of SYS cycles, a beat a cycle: the requests left, and the cycles that the burst
in flight takes beyond them. `n` bounds the grants. -/
def serveBank : Nat → Nat → List SramReq → List SramReq × Nat
  | 0, _, l => (l, 0)
  | n + 1, cycles, l =>
    match nextReq l with
    | some r =>
      if cycles = 0 then (l, 0)
      else if r.beats > cycles then (l.erase r, r.beats - cycles)
      else serveBank n (cycles - r.beats) (l.erase r)
    | none => (l, 0)

/-- One µs of the arbiter: 500 SYS cycles on every bank. -/
def arbTick (s : State) : State :=
  if s.arb = {} then s
  else { s with arb := (List.range 8).foldl (fun a b =>
    let l := tget [] a.waiting b
    let r := serveBank l.length (500 - tget 0 a.busy b) l
    { waiting := tset [] a.waiting b r.1, busy := tset 0 a.busy b r.2 }) s.arb }

/-- AGED_GRANT: a request of a lower plane that has waited 10 µs takes the bank's next grant, ahead of the control plane,
at most once in 10 µs (R27). `aged` keeps the instant after the last one. -/
def execAgedGrant (bank : Fin 8) (p : Plane) (s : State) : Out :=
  .next (
    let key := 4 * bank.val + p.ctorIdx
    let last := tget 0 s.kln.aged key
    if !awake s ∨ p = .control ∨ (last ≠ 0 ∧ s.now + 1 < last + 10) then s
    else match (tget [] s.arb.waiting bank).find? fun r => r.plane == p && decide (s.now ≥ r.since + 10) with
      | none => s
      | some r =>
        modKln { s with arb := { waiting := tmod [] s.arb.waiting bank fun l => l.erase r
                                 busy := tmod 0 s.arb.busy bank fun n => n + r.beats } } fun k =>
          { k with aged := tset 0 k.aged key (s.now + 1) })

/-! ### Engine faults (R36, R37) -/

/-- The engines of *Table: Internal fault states*. -/
def faultEngine (e : Engine) : Bool :=
  match e with
  | .chain | .bank | .thermal | .fieldIo | .pair => true
  | _ => false

/-- Outputs of the chain subsystem: nothing runs, and every cell is INVALID to the estimator. -/
def chainFault (s : State) : State :=
  (List.range 4).foldl (fun s k =>
    mapCells (modLp s k fun l =>
      { l with tx := none, queue := [], op := .idle, sweepOpen := false, readDue := false, almPend := false
               suspect := false, cellsBad := true }) k fun _ c => { c with invalid := true }) s

/-- Outputs of the measurement bank: every word INVALID, the rotation stopped. -/
def bankFault (s : State) : State :=
  let s := (List.range 24).foldl (fun s c => modChan s c fun x => { x with word := -2147483648, ctl := -2147483648 }) s
  let s := (strs s).foldl (fun s k => modMstr s k fun m => { m with invalid := true, running := none, waiting := [] }) s
  { s with mea := { s.mea with rotRun := false, rotPhase := 4, isoState := 0 } }

/-- Outputs of the thermal supervisor: derate factors 0, COOL_k 100 %. -/
def thermalFault (s : State) : State :=
  (strs s).foldl (fun s k => modThmStr s k fun t => { t with derC := 0, derD := 0, cool := 100 }) s

/-- KILN_ENGINE_FAULT: the engine stops until the next cold start, its outputs take their fault states, and the module
goes to SAFE_STOP. -/
def engineFault (s : State) (e : Engine) : State :=
  if s.kln.stopped.contains e then s
  else
    let s := stage s .kilnEngineFault bKLN sevFault [BitVec.ofNat 8 e.ctorIdx]
    let s := modKln s fun k => { k with stopped := k.stopped ++ [e], engineFault := true }
    let s := match e with
      | .chain => chainFault s
      | .bank => bankFault s
      | .thermal => thermalFault s
      | .fieldIo => refreshFi s
      | _ => s
    latchFault s 0x05

/-- KILN_ENGINE_FAULT: an internal check fails. The control engine and HRPWM follow R272. -/
def execKilnEngineFault (e : Engine) (s : State) : Out :=
  .next (
    if !awake s then s
    else if e = .control ∨ e = .pwm then ctlInternal s
    else if faultEngine e then engineFault s e
    else s)

/-- The reaction of an engine instance to a partition violation on a write: that of its own chapter (the control engine
and HRPWM R272, a logic task R357), else R37. -/
def violReact (s : State) (e : Engine) (i : Nat) : State :=
  if e = .control ∨ e = .pwm then ctlInternal s
  else if e = .logic then taskFault s (i % 16) 2
  else if faultEngine e then engineFault s e
  else s

/-- The reactions that are due. -/
def violDue (s : State) : State :=
  s.kln.faultPend.foldl (fun s p => violReact s p.1 p.2) (modKln s fun k => { k with faultPend := [] })

/-- PARTITION_VIOLATION: an access of an engine instance outside the partitions granted to it has no effect, is counted and
recorded, and on a write drives a control-plane engine to its fault state (R36). -/
def execPartitionViolation (e : Engine) (inst : Byte) (addr : Word) (isWrite : Bool) (s : State) : Out :=
  .next (
    let off := addr.toNat - 0x10000000
    let g := engGrant s e inst.toNat off 4
    if !awake s ∨ g = .readWrite ∨ (g = .read ∧ !isWrite) then s
    else
      let s := partViol s (Config.engTag e.ctorIdx inst.toNat) addr.toNat
      if isWrite && e.plane == some .control then violReact s e inst.toNat else s)

/-! ### Registers that only the core writes -/

/-- KLN_HELD. -/
def klnHeld (s : State) : Nat := s.kln.holds.length

end Sys2Proof.Machine
end

