-- ==== Sys2Proof/Machine/ModeMan.lean ====
section
/-!
DEFINITION. The mode manager (chapter 2): the LOTO key (R63, R64), mode requests and their evaluation (R22, R23, R57 to
R60), what each transition does, the entry into EMBER, the acknowledge (R61) and DROWSE (R67, R70). No command but
MODE_EVALUATION, a start and the end of EJECT changes the mode (R55): the others queue their request for it.
-/

namespace Sys2Proof.Machine

/-! ### The LOTO key (R63) -/

/-- The position in force: LOCK until the first reading and for a reading between positions older than 100 ms. -/
def lotoPos (s : State) : Loto :=
  if !s.emb.lotoSeen then .lock
  else match s.emb.lotoBetween with
    | some t => if s.now > t + 100000 then .lock else s.emb.loto
    | none => s.emb.loto

/-- The key counts as LOCK: with a contactor output on the module goes to SAFE_STOP, cause LOTO_LOCK. -/
def lotoLock (s : State) : State :=
  if awake s && lotoPos s == .lock && !allOpen s && !s.emb.eject then latchFault s 6 else s

/-- LOTO_CHANGE: the Ember domain's contact set reads a position, or between positions. -/
def execLotoChange (pos : Loto) (s : State) : Out :=
  .next (
    if s.emb.power = .dark then s
    else match pos with
      | .between => modEmb s fun e => { e with lotoRaw := pos, lotoBetween := some (e.lotoBetween.getD s.now) }
      | _ =>
        let moved := s.emb.loto != pos || !s.emb.lotoSeen
        let s := modEmb s fun e => { e with lotoRaw := pos, loto := pos, lotoSeen := true, lotoBetween := none }
        lotoLock (if moved then fireWake s 5 else s))

/-- LOTO_BETWEEN_TIMEOUT: a reading between positions has lasted longer than 100 ms and counts as LOCK. DESIGN CHOICE
(assumption 72): in EMBER this fires no wake source, for the key has reached no new position (R65). -/
def execLotoBetweenTimeout (s : State) : Out := .next (if s.emb.lotoBetween.isSome then lotoLock s else s)

/-! ### Requests -/

/-- A relay session runs (R501). -/
def relayRuns (s : State) : Bool :=
  inR s.upd.rx.state 1 3 || (List.range 2).any fun p => (tget none s.upd.tx p).isSome

/-- An activation that has not reached its cold start (R57). -/
def activationPending (s : State) : Bool :=
  s.upd.activating || s.crd.verifying == some .activate || s.crd.verifying == some .updActivate

/-- CAUSE of a transition by its source (*Table: Transition causes*). -/
def ReqSrc.cause : ReqSrc → Nat
  | .fault c | .module c | .relay c => c
  | .thermal => 0x0D
  | .lever => 0x0A
  | _ => 1

/-- The Actor column of *Table: Mode transitions* for the sources that are no window. -/
def actorRow (src : ReqSrc) (a b : Mode) : Bool :=
  match src, a, b with
  | .logic _, .standby, .ember | .logic _, .standby, .precharge | .logic _, .precharge, .standby
  | .logic _, .connected, .standby | .logic _, .drowse, .standby => true
  | .thermal, .connected, .standby | .thermal, .drowse, .standby => true
  | .panel, .standby, .maintenance | .panel, .maintenance, .standby => true
  | .relay _, .connected, .standby | .relay _, .drowse, .standby | .relay _, .standby, .configure => true
  | .relay 0x0C, .precharge, .standby => true
  | .lever, .connected, .standby | .lever, .drowse, .standby => true
  | .module 0x0E, .precharge, .connected | .module 0x03, .connected, .drowse | .module 0x04, .drowse, .connected
  | .module 0x09, .safeStop, .standby => true
  | _, _, _ => false

/-- The code of a request as far as its source decides it, under the order of R14. -/
def sourceCode (s : State) (r : ModeReq) : Code :=
  match r.src with
  | .window w | .sched w => actorCode s w.val r.target
  | src => when_ (!actorRow src s.emb.mode r.target) .refusedMode

/-- No converter activity is commanded: SYS_OUT bit 20 of the live image is clear, and no impedance sweep runs or is paused
(R67, R241). -/
def noActivity (s : State) : Bool := !bitN s.lgc.sysOut.toNat 20 && (List.range 4).all fun k => !impActive s k

/-- The condition of R67: every string below I_drowse for t_drowse, EN set, no activity, no ramp. -/
def drowseReady (s : State) : Bool :=
  match s.emb.quietSince with
  | some t =>
    bitN (rd s embDrwT []) 31 && decide (s.now ≥ t + 1000000 * rdf s embDrwT [] 15 0) && noActivity s &&
      s.emb.rampSince.isNone
  | none => false

/-- Ten counter samples above I_wake in a row on a string (R70). -/
def drowseWake (s : State) : Bool := (strs s).any fun k => decide ((tget {} s.emb.qdrw k).wakeRun ≥ 10)

/-- The recovery timer has expired with no demand and no latch present (R57, R61). -/
def recovered (s : State) : Bool :=
  match s.emb.recovAt with
  | some t => decide (s.now ≥ t) && decide (s.saf.dem = 0) && !safLatched s && s.emb.latchFaults.isEmpty
  | none => false

/-- The Condition column of *Table: Mode transitions*. -/
def rowCond (s : State) (r : ModeReq) : Bool :=
  match s.emb.mode, r.target with
  | .standby, .ember =>
    allOpen s && s.crd.verifying.isNone && !s.crd.xferOpen && !relayRuns s && !s.upd.activating && s.lgc.olc.isNone
  | .standby, .precharge => lotoPos s == .run && startupOk s && leaseValid s && thmPermit s && !s.upd.fbPending
  | .standby, .maintenance => lotoPos s == .maint
  | .maintenance, .standby => lotoPos s == .run && !forcesActive s && allOpen s
  | .configure, .standby => hasCord s && !activationPending s
  | .connected, .drowse => drowseReady s
  | .safeStop, .standby => r.src == .module 0x09 && recovered s
  | _, _ => true

/-- What an evaluation decides on a request. `wake` is the wake from DROWSE that a disconnect request causes, and the
request stays; `ramp` accepts CONNECTED → STANDBY (R60). -/
inductive Verdict where
  | refused (c : Code) | done | wake | ramp | go
  deriving DecidableEq, Repr

/-- A request for SAFE_STOP: from every mode but EMBER and that of a bare module (R56, R57). -/
def safeVerdict (s : State) (r : ModeReq) : Verdict :=
  match r.src with
  | .fault _ => if s.emb.mode = .safeStop ∨ !hasCord s then .done else .go
  | .module _ => if s.emb.mode = .precharge then .go else .done
  | _ => .refused .refusedMode

/-- What an evaluation decides on a request (R22, R23, R57, R60, R74, R518). -/
def verdict (s : State) (r : ModeReq) : Verdict :=
  let own := r.src == .lever || r.src == .module 0x04
  if r.target = .safeStop then safeVerdict s r
  else if s.emb.eject && !own then .refused .refusedMode
  else if sourceCode s r ≠ .ok then .refused (sourceCode s r)
  else if s.emb.mode = .drowse ∧ r.target = .standby then .wake
  else if s.emb.rampSince.isSome then (if r.target = .standby then .done else .refused .refusedMode)
  else if !rowCond s r then .refused .refusedMode
  else if s.emb.mode = .connected ∧ r.target = .standby then .ramp
  else if s.emb.mode = .configure ∧ s.crd.diverged ∧ auditFullNow s then .refused .full
  else .go

/-! ### Fallback (R506) -/

/-- The ramp of R60 begins on every string. -/
def rampBegin (s : State) (cause : Nat) : State :=
  modEmb ((strs s).foldl rampDown s) fun e => { e with rampSince := some s.now, rampCause := cause }

/-- The end of a fallback: lease, AUDIT record, exchange of the slots, cold start. -/
def fallbackFinal (s : State) : State :=
  match s.crd.saved with
  | none => s
  | some b =>
    let s := parRelease s
    let seqs := leB 4 s.crd.running.seq ++ leB 4 s.crd.previous.seq
    let s := match audit s .cordFallback 0x16 seqs with
      | some t => t
      | none => stage s .recAuditLost 0x14 sevCritical (leB 2 (recCode 0x16 .cordFallback) ++ [0, 0] ++ leB 8 s.tim.now.toNat)
    let s := { s with crd := { s.crd with running := s.crd.previous, previous := s.crd.running }
                      upd := { s.upd with fbGo := false, fbPending := false } }
    doColdStart { b with vsup10mv := s.emb.vsup, present := s.emb.present, leverOpen := s.emb.eject } .fallback (prepCold s)

/-- *Table: Fallback path*. -/
def fallbackPath (s : State) : State :=
  match s.emb.mode with
  | .connected | .precharge | .drowse =>
    reqMode (modUpd s fun u => { u with fbPending := true }) .standby (.relay 0x0C)
  | .standby => reqMode s .configure (.relay 0x0C)
  | .maintenance => if allOpen s then fallbackFinal s else rampBegin s 0x0C
  | .safeStop | .configure => fallbackFinal s
  | .ember => s

/-- An update activation is abandoned (R504). -/
def abandonAct (s : State) : State := { s with upd := { s.upd with activating := false, res := .refusedMode } }

/-- A request leaves the queue refused: its source learns the code; a fallback finds its path again. -/
def refuseReq (s : State) (r : ModeReq) (c : Code) : State :=
  match r.src with
  | .relay 0x0B => if s.upd.activating then abandonAct s else s
  | .relay 0x0C => if s.upd.fbGo then fallbackPath s else s
  | _ => reqResult s r c

/-! ### Changing the mode -/

/-- The domains that DROWSE gates (R41, R55, R68): CTL, HRP and the fast fabric clocks, by which the model takes SYS and MEM
(DESIGN CHOICE, assumption 20). SYS and MEM run again while a unit of work requests them. -/
def drowseDoms : List Domain := [.ctl, .hrp, .sys, .mem]

/-- What leaving a mode does. -/
def leaveMode (s : State) (m : Mode) : State :=
  match s.emb.mode with
  | .maintenance => if calActive s then endCal s else s
  | .drowse =>
    drowseDoms.foldl (fun s d => ungate d s) (balWake (modEmb s fun e => { e with drowseExit := some s.now }))
  | .safeStop =>
    let s := modEmb s fun e => { e with recovAt := none }
    if m = .standby then thmRecover s else s
  | _ => s

/-- Entry into DROWSE (R68, R69): converters parked, CTL, HRP and the fast fabric clocks gated, the Ember coulomb counter
starts from 0. No BAL_SET is sent any more, and BAL_AUTO goes to every unit (R163, R165). -/
def enterDrowse (s : State) : State :=
  let s := sendBalAuto ((List.range 4).foldl dropBalSets (voteRest (cyclesAll (parkAll s 4))))
  let s := modKln (drowseDoms.foldl (fun s d => ungate d s) s) fun k => { k with gated := k.gated ++ drowseDoms }
  modEmb s fun e => { e with drowseExit := none, counterAt := s.now, qdrw := (strs s).map fun k => (k, { counting := true }) }

/-- What the relay does as the mode becomes m (R504, R506). -/
def updOnMode (s : State) (m : Mode) : State :=
  if s.upd.activating then
    match m with
    | .connected => reqMode s .standby (.relay 0x0B)
    | .standby => reqMode s .configure (.relay 0x0B)
    | .configure =>
      let s := { s with upd := { s.upd with activating := false } }
      if s.crd.verifying.isSome then { s with upd := { s.upd with res := .busy } }
      else startVerify .updActivate true { s with upd := { s.upd with res := .ok } }
    | _ => abandonAct s
  else if s.upd.fbGo then
    match m with
    | .standby | .configure | .safeStop => fallbackPath s
    | _ => s
  else s

/-- With EJECT set, the module is on its way to EMBER: open-wire tests end, and in STANDBY BAL_AUTO is sent (R155, R163,
R518). -/
def ejectPrep (s : State) : State :=
  if s.emb.eject then
    modEmb (if s.emb.mode = .standby then chnPrep s else (List.range 4).foldl owAbort s) fun e =>
      { e with emberAt := some (s.now, 0x0A) }
  else s

/-- What entering a mode does (R55, R57, R289, R329, R488). -/
def enterMode (s : State) (m : Mode) : State :=
  match m with
  | .standby => ejectPrep (parkAll (openAll s) 1)
  | .precharge => (strs s).foldl connectString s
  | .connected => thmConnect (convsConnect s)
  | .drowse => enterDrowse s
  | .safeStop => thmNoRecover (balStopAll (parkAll (openAll s) 1))
  | .configure => parRelease (balStopAll (parkAll s 1))
  | .maintenance | .ember => s

/-- Change the mode: MODE, PREV and CAUSE, the work of leaving and entering, the MODE event at every window (R452), and
the display's return to HOME (R510). -/
def changeMode (s : State) (m : Mode) (cause : Nat) : State :=
  let s := stopGens (impPauseAll (leaveMode s m) 1)
  let s := if s.emb.emberAt.isSome then { s with lgc := { s.lgc with stopped := false } } else s
  let s := modEmb s fun e =>
    { e with mode := m, prev := e.mode, cause := cause, quietSince := none, rampSince := none, emberAt := none }
  let s := rotNote (enterMode s m)
  updOnMode (allEvent (showHome s) 4 m.num) m

/-- Frozen values written in CONFIGURE take effect (R58, R99). -/
def applyFrozen (s : State) : State :=
  { s with frozen := []
           regs := s.frozen.foldl (fun t p => match p.2, famAt (p.1 % 0x100000000) with
             | some v, some (f, ix) =>
               let d := wd (f.reset ix)
               tset d t p.1 (wd (putBits (tget d t p.1).toNat f.frozen v.toNat))
             | _, _ => t) s.regs }

/-- The start-up tests run again (R58, R59): the lanes' self-test and every input marked STARTUP_TEST. -/
def startupAgain (s : State) : State :=
  let test (x : Saf) (n : Nat) : Saf :=
    if (inOf s n).startup then { x with sis := tmod {} x.sis n fun y => { y with stState := 1, zeroSince := none } } else x
  modSaf s fun x => (List.range 8).foldl test
    { x with selftest := false
             lanes := (List.range 3).foldl (fun t i => tmod {} t i fun l => if l.state = 1 then { l with state := 0 } else l)
               x.lanes }

/-- The engines that a restart brings to their start without touching what they retain (R58): the bank, the impedance unit,
the thermal supervisor, the field I/O section and the pair link. DESIGN CHOICE (assumption 72): the restart of the
estimator, the time base, the recorder, the windows and the relay changes no state, for their counts, time, records and
sessions go on. -/
def restartBlocks (s : State) : State := parStart (fioStart (thmRestart (impLoops (meaStart s false))) .restart) .restart

/-- CONFIGURE → STANDBY (R58, R99, R100, R119): the engines restart on the configuration as it now stands. -/
def leaveConfigure (s : State) : State :=
  let s := if s.crd.diverged then auditAppend s .cordDiverged bCRD (leB 4 s.crd.frozenWrites) else s
  let acked := s.emb.forceAcked
  let s := applyFrozen s
  let s := s.shadow.foldl (fun s p => match p.2 with | some v => commitReg s p.1 v | none => s) s
  let s := lgcStart (lgcSettle (ctlStart (startupAgain (restartBlocks s)) false) false) .restart
  let s := modEmb (netCheckEn (canCheckEn (chnReenumerate s))) fun e => { e with forceAcked := acked }
  parkAll s 1

/-- What the module stores on an accepted request for EMBER (R232, R470, R475). -/
def emberFlush (s : State) : State := recEmber (recEmberFlush (impFlush (estEmberFlush s)))

/-- Every Ethernet connection closes, and the module detaches from USB (chapter 17). -/
def hostEmber (s : State) : State :=
  let s := (List.range 4).foldl (fun s w => if (win s w).conn then modWin s w fun x => { x with conn := false } else s) s
  { s with hst := { s.hst with usbCfg := false } }

/-- A mode that none of the queued requests can be granted from: each source learns REFUSED_MODE (R23). -/
def refuseAll (s : State) : State := s.emb.reqs.foldl (fun s r => reqResult s r .refusedMode) s

/-- The entry into EMBER, whose last records and estimator data are stored while the module still runs: on an accepted
request (R57), and as the end of EJECT (R518). -/
def enterEmber (s : State) (cause : Nat) (flush : State → State) : State :=
  let s := if calActive s then endCal s else s
  let s := parRelease (stopGens (impPauseAll (parkAll s 1) 1))
  let s := refuseAll (lgcSettle (lgcFinish s) true)
  let s := thmNoRecover (timEmber (fioOff (canEmber (safAllOff s))))
  let s := chnEmber (hostEmber (flush (allEvent (cyclesAll s) 4 0)))
  modEmb { s with mem := [], arb := {}, pnl := { s.pnl with backlight := false, screen := 0, menu := none } } fun e =>
    { e with mode := .ember, prev := e.mode, cause := cause, reqs := [], quietSince := none, rampSince := none
             recovAt := none, emberEntry := e.ticks, wakePend := false, emberAt := none }

/-- EMBER has been accepted (R57): the logic engine starts no further cycle (R358), and the chain sends what goes before
EMBER. -/
def emberBegin (s : State) (cause : Nat) : State :=
  modEmb (chnPrep { s with lgc := { s.lgc with stopped := true } }) fun e => { e with emberAt := some (s.now, cause) }

/-- What goes before EMBER has been sent and the running cycles have ended (R358), or the 50 ms of *Table: Mode transitions* have passed. -/
def emberReady (s : State) : Bool :=
  match s.emb.emberAt with
  | some (t, _) => (chnQuiet s && quietInstant s) || decide (s.now ≥ t + 50000)
  | none => true

/-- Carry out a transition. -/
def transition (s : State) (m : Mode) (cause : Nat) : State :=
  match s.emb.mode, m with
  | _, .ember => emberBegin s cause
  | .configure, .standby => changeMode (leaveConfigure s) .standby cause
  | _, _ => changeMode s m cause

/-! ### Evaluation -/

/-- Take a request out of the queue. -/
def dropReq (s : State) (r : ModeReq) : State := modEmb s fun e => { e with reqs := e.reqs.erase r }

/-- A SAFE_STOP request in SAFE_STOP stops the recovery timer (R61). -/
def joinReq (s : State) (r : ModeReq) : State :=
  if r.target = .safeStop ∧ s.emb.mode = .safeStop then modEmb s fun e => { e with recovAt := none } else s

/-- Take the requests in order until one leads to a transition (R22). -/
def evalReqs : List ModeReq → State → State
  | [], s => s
  | r :: t, s =>
    match verdict s r with
    | .refused c =>
      evalReqs t (refuseReq (dropReq (if c = .full then noteAuditFull s else s) r) r c)
    | .done => evalReqs t (reqResult (joinReq (dropReq s r) r) r .ok)
    | .wake => changeMode s .connected 0x04
    | .ramp => rampBegin (reqResult (dropReq s r) r .ok) r.src.cause
    | .go => transition (reqResult (dropReq s r) r .ok) r.target r.src.cause

/-- Requests in the order of R22. -/
def orderedReqs (l : List ModeReq) : List ModeReq :=
  (List.range 4).flatMap fun n => l.filter fun r => reqRank r == n

/-- A ramp has ended: every contactor of the module is commanded open (R60). -/
def rampDone (s : State) : Bool := s.emb.rampSince.isSome && !contactorWanted s && allOpen s

/-- The ramp's end: STANDBY; in MAINTENANCE the contactors of live tests are open, and a fallback goes on (R64, R506). -/
def rampEnd (s : State) : State :=
  if s.emb.mode = .maintenance then
    let s := modEmb s fun e => { e with rampSince := none }
    if s.upd.fbGo then fallbackFinal s else s
  else changeMode s .standby s.emb.rampCause

/-- The key in RUN takes the module out of MAINTENANCE once no force is active, contactors of live tests opening first
(R64). -/
def leavesMaint (s : State) : Bool :=
  s.emb.mode == .maintenance && lotoPos s == .run && !s.emb.eject && s.emb.rampSince.isNone && !s.upd.fbGo

/-- What one evaluation does (R22, R23): SAFE_STOP first, then the transition in progress, then the planes in their order.
While the power-fail flush runs only SAFE_STOP is left to ask for (R74). -/
def evaluate (s : State) : State :=
  if s.emb.reqs.any (fun r => safeVerdict s r == .go && r.target == .safeStop) then evalReqs (orderedReqs s.emb.reqs) s
  else if s.emb.power = .flushing then s
  else if s.emb.emberAt.isSome && !s.emb.eject then
    (if emberReady s then enterEmber s ((s.emb.emberAt.getD (0, 0)).2) emberFlush else s)
  else if rampDone s then rampEnd s
  else if leavesMaint s && !allOpen s then rampBegin s 1
  else if leavesMaint s && !forcesActive s then changeMode s .standby 1
  else evalReqs (orderedReqs s.emb.reqs) s

/-- 10 µs have passed since the last evaluation, and the module is awake or flushes after PFAIL (R22, R74). -/
def evalDue (s : State) : Bool :=
  (awake s || (s.emb.power == .flushing && s.emb.mode != .ember)) &&
    match s.emb.evalAt with | some t => decide (s.now ≥ t + 10) | none => true

/-- MODE_EVALUATION (R22): at most one transition, and the next evaluation 10 µs on. -/
def execModeEvaluation (s : State) : Out :=
  .next (if evalDue s then evaluate (modEmb s fun e => { e with evalAt := some s.now }) else s)

/-- A write of EMB_MODE_REQ: the request replaces the window's queued one, and its result shows in REQ_RES. With PFAIL or
EJECT set it is refused at once (R74, R518). -/
def opModeReq (w : Win) (target : Nat) (s : State) : Code × State :=
  let m := modeOf target
  let s := modEmb s fun e => { e with reqs := e.reqs.filter fun r => r.src != .window w }
  if (s.emb.pfail || s.emb.eject) && m != .safeStop then (.ok, modWin s w fun x => { x with reqRes := .refusedMode })
  else
    let s := reqMode (modWin s w fun x => { x with reqRes := .busy }) m (.window w)
    okCmd (if (m = .standby ∨ m = .precharge) ∧ bound s w ∧ isOwner s w then activity s else s)

/-- MODE_REQUEST. -/
def execModeRequest (w : Win) (target : BitVec 3) (s : State) : Out :=
  .next (hostCmd w 0x20004 (opModeReq w target.toNat) s)

/-- A string's |I| counts as at or above 1 A for the end of the ramp (R60). DESIGN CHOICE (assumption 72): an INVALID
current does, while the string's contactors are closed. -/
def rampLoaded (s : State) (k : Nat) : Bool :=
  !ctrOpen s k && ((mstr s k).invalid || decide ((mstr s k).voted.natAbs ≥ 1000))

/-- RAMP_TIMEOUT: a string's |I| is still at or above 1 A 30 s after acceptance; RAMP_TIMEOUT latches (R60). -/
def execRampTimeout (s : State) : Out :=
  .next (
    match s.emb.rampSince with
    | some t =>
      if awake s && decide (s.now ≥ t + 30000000) && (strs s).any (rampLoaded s) && !s.emb.rampTimeout then
        latchFault (modEmb s fun e => { e with rampTimeout := true }) 8
      else s
    | none => s)

/-! ### Acknowledges (R59, R61) -/

/-- The acknowledge is accepted: latches clear, each with its event; the recovery timer starts; halted tasks resume. -/
def ackLatches (s : State) : State :=
  let s := (List.range 17).foldl (fun s f =>
    if bitN s.saf.latch.toNat f then 
      let (i, l) := tget (0, 0) s.saf.latchSrc f
      safEvent s 3 { f := f, strm := tget 0 s.saf.latchStr f, src := i, lanes := l }
    else s) s
  let s := modSaf s fun x => { x with latch := 0, latchStr := [], latchSrc := [], fCode := 0, fStr := 0, fSrc := 0, fLanes := 0 }
  resumeTasks (modEmb s fun e =>
    { e with latchFaults := [], rampTimeout := false, recovAt := some (s.now + 1000000 * rdf s embRecov [] 15 0) })

/-- The SAFE_STOP acknowledge of a window, or of the panel (0xFF). -/
def safeAck (by_ : Byte) (s : State) : Code × State :=
  if s.emb.mode = .safeStop ∧ s.saf.dem = 0 ∧ !s.emb.eject ∧ !s.emb.pfail then (.ok, ackLatches s)
  else (.refusedMode, stage s .safeAckRefused bEMB sevNotice [BitVec.ofNat 8 s.emb.mode.num, by_])

/-- FORCE_ACK: the forces present at power-up are acknowledged (R59, R372). -/
def forceAck (s : State) : Code × State := okCmd (modEmb s fun e => { e with forceAcked := true })

/-- A write of EMB_ACK; where SAFE_ACK is refused no part is done (R14). -/
def opEmbAck (w : Win) (v : Nat) (s : State) : Code × State :=
  let (c, t) := if bitN v 0 then safeAck (BitVec.ofNat 8 w) s else (.ok, s)
  if c = .ok ∧ bitN v 1 then forceAck t else (c, t)

/-- Rights of a write of EMB_ACK. -/
def embAckRight (w : Win) (v : Nat) (s : State) : Bool :=
  (!bitN v 1 || hasRight s w rMaint) && (!bitN v 0 || hasRight s w rSafe)

/-- EMB_ACK with SAFE_ACK. -/
def execEmbAckSafeAck (w : Win) (s : State) : Out :=
  .next (hostCmd w 0x20008 (cmdReq (rightOne w rSafe) noRes (safeAck (BitVec.ofNat 8 w))) s)

/-- SAF_ACK with SAFE_ACK. -/
def execSafAckSafeAck (w : Win) (s : State) : Out :=
  .next (hostCmd w 0xD0000 (cmdReq (safRight w) safRes (safeAck (BitVec.ofNat 8 w))) s)

/-- EMB_ACK with FORCE_ACK. -/
def execForceAck (w : Win) (s : State) : Out := .next (hostCmd w 0x20008 (cmdReq (rightOne w rMaint) noRes forceAck) s)

/-- Queue a request of the module itself, once. -/
def reqSelf (s : State) (m : Mode) (cause : Nat) : State :=
  if s.emb.reqs.contains { target := m, src := .module cause } then s else reqMode s m (.module cause)

/-- RECOVERY_TIMER_EXPIRY: the module asks for STANDBY, cause 0x09. -/
def execRecoveryTimerExpiry (s : State) : Out :=
  .next (if awake s ∧ s.emb.mode = .safeStop ∧ recovered s then reqSelf s .standby 0x09 else s)

/-! ### DROWSE -/

/-- DROWSE_ENTRY: t_drowse has ended; the module asks for DROWSE, cause 0x03 (R67). -/
def execDrowseEntry (s : State) : Out :=
  .next (if awake s ∧ s.emb.mode = .connected ∧ drowseReady s then reqSelf s .drowse 0x03 else s)

/-- DROWSE_CURRENT_WAKE: ten samples in a row above I_wake; the module asks for CONNECTED, cause 0x04 (R70). -/
def execDrowseCurrentWake (s : State) : Out :=
  .next (if awake s ∧ s.emb.mode = .drowse ∧ drowseWake s then reqSelf s .connected 0x04 else s)

end Sys2Proof.Machine
end

