-- ==== Sys2Proof/Machine/Sample.lean ====
section
/-!
DEFINITION. PRECISION_SAMPLE (R171): what happens at one precision-path instant, in the order in which the blocks use
each other's results.
-/

namespace Sys2Proof.Machine

/-- The quiet time of R67: it runs in CONNECTED while every string's current is valid and below I_drowse. -/
def quietTimer (s : State) : State :=
  let lim := 10 * rdf s embDrwI [] 15 0
  let quiet := s.emb.mode == .connected && (strs s).all fun k =>
    !(mstr s k).invalid && decide ((mstr s k).voted.natAbs < lim)
  modEmb s fun e => { e with quietSince := if quiet then some (e.quietSince.getD s.now) else none }

/-- Under the ramp of R60 a string's contactors open once its valid current is below 1 A. DESIGN CHOICE (assumption 72): an
INVALID current keeps them closed, and the module latches RAMP_TIMEOUT at 30 s.  -/
def rampOpen (s : State) (k : Nat) : State :=
  if s.emb.rampSince.isSome ∧ !(mstr s k).invalid ∧ (mstr s k).voted.natAbs < 1000 ∧ ctrWanted s k then openString s k
  else s

/-- PRECISION_SAMPLE, at a precision instant (R171): `x` holds the readings of slices S0 to S24 on the precision path, and
`ctl` those on the control path at the same instant (none where empty). In the 2 ms after PFAIL only the counts go on (R232). -/
def execPrecisionSample (x ctl : List Int) (s : State) : Out :=
  .next (
    if !(awake s || flushCounts s) ∨ !sampleDue s then s
    else if !awake s then (strs s).foldl estSample (bankSample x s)
    else
      let s := parkInvalid (isoKick (trcSample x (controlSample ctl (bankSample x s))))
      let s := (strs s).foldl estSample s
      let s := (strs s).foldl impSample s
      let s := (strs s).foldl sweepCapture s
      (strs s).foldl rampOpen (quietTimer s))

end Sys2Proof.Machine
end

