-- ==== Sys2Proof/Machine/Upd.lean ====
section
/-!
DEFINITION. The Cord update relay (R495 to R501), key slots (R502, R503), update activation (R504) and the
confirmation of health (R505).
-/

namespace Sys2Proof.Machine

/-- BLOCK code of UPD. -/
def bUPD : Byte := 0x16

/-! ### Frames (R495, R496) -/

/-- A relay frame with its CRC. -/
def relayFrame (type flags session block arg : Nat) (payload : List Byte) : List Byte :=
  let b := [BitVec.ofNat 8 type, BitVec.ofNat 8 flags] ++ leB 2 session ++ leB 2 block ++ leB 2 payload.length ++ leB 4 arg ++
    payload
  b ++ leB 4 (crc32c b)

/-- A received frame goes through ring 42, which the relay empties at once (R495). -/
def relayTake (s : State) (type p : Nat) : State :=
  let (written, s) := ringPut s 42 (inlineDesc type p [])
  if written then ringPop s 42 else s

/-- Send a frame out of a NET port: its descriptor goes on ring 43, and the frame waits for the MAC (R495). -/
def relaySend (s : State) (p : Nat) (bs : List Byte) : State :=
  if portUp s p then
    let s := (ringPut s 43 (inlineDesc (byteAt bs 0) p [])).2
    send (modUpd s fun u => { u with out := u.out ++ [(p, relayWire bs)] }) (ifNet p) bs
  else s

/-- The MAC takes a frame behind ring 43 into queue 1 of its NET port as soon as that has room; a frame whose descriptor
waits for the full ring is held (R495). -/
def relayDrain (s : State) : State :=
  match s.upd.out with
  | (p, f) :: rest =>
    let live := ringLive s 43
    if live && decide ((ring s 43).head = (ring s 43).tail) then s
    else if portUp s p ∧ ((netPort s p).frames.filter fun g => g.q == 1).length ≥ queueDepth 1 then s
    else egressPut 2 f (modUpd (if live then ringPop s 43 else s) fun u => { u with out := rest }) p
  | [] => s

/-- The fields of a frame. -/
structure RelayIn where
  flags : Nat
  session : Nat
  block : Nat
  arg : Nat
  payload : List Byte

/-- A received frame of the expected TYPE: one whose length or CRC fails is discarded and counted (R496). -/
def relayIn (type p : Nat) (bs : List Byte) (f : RelayIn → State → State) (s : State) : State :=
  if !portUp s p then s
  else
    let len := getLe bs 6 2
    let ok := decide (bs.length = 16 + len) && decide (len ≤ 1024) && crc32c (bs.take (12 + len)) == getLe bs (12 + len) 4
    if !ok then modUpd s fun u => { u with frameErr := inc16 u.frameErr }
    else if byteAt bs 0 ≠ type then s
    else f { flags := byteAt bs 1, session := getLe bs 2 2, block := getLe bs 4 2, arg := getLe bs 8 4
             payload := (bs.drop 12).take len } (relayTake s type p)

/-! ### Transmit sessions -/

/-- The transmit session on a port. -/
def txSess (s : State) (p : Nat) : Option TxSess := tget none s.upd.tx p

/-- Set or end it. -/
def setTx (s : State) (p : Nat) (x : Option TxSess) : State := modUpd s fun u => { u with tx := tset none u.tx p x }

/-- Blocks of an image. -/
def blocksOf (total : Nat) : Nat := (total + 4095) / 4096

/-- The image a session reads. -/
def txImage (s : State) (x : TxSess) : List Byte := if x.fromRunning then s.crd.running.bytes else s.crd.incoming.bytes

/-- Send the OFFER of a session. -/
def txOffer (s : State) (p : Nat) (x : TxSess) : State :=
  relaySend s p (relayFrame 1 0 x.session 0 x.total (leB 4 x.seq.toNat ++ leB 2 (blocksOf x.total) ++ [BitVec.ofNat 8 x.keySlot, 0]))

/-- Open a transmit session (R497, R499). -/
def txOpen (s : State) (p session : Nat) (fromRunning forwarded : Bool) (total keySlot : Nat) (seq : Word) : State :=
  let x : TxSess :=
    { session := session, fromRunning := fromRunning, total := total, keySlot := keySlot, seq := seq, accepted := false
      acked := 0, limit := 0, sent := 0, offers := 1, offeredAt := s.now, resends := 0, lastAckAt := s.now
      forwarded := forwarded }
  txOffer (setTx s p (some x)) p x

/-- The KEY_SLOT of an image's trailer. -/
def imageKey (img : List Byte) : Nat := byteAt (img.drop (img.length - 104)) 2

/-- Send one block as its DATA fragments. -/
def sendBlock (s : State) (p : Nat) (x : TxSess) (b : Nat) : State :=
  let blk := ((txImage s x).drop (4096 * b)).take 4096
  let crc := crc32c blk
  (List.range ((blk.length + 1023) / 1024)).foldl (fun s i =>
    relaySend s p (relayFrame 3 i x.session b crc ((blk.drop (1024 * i)).take 1024))) s

/-- Blocks of its image that the module holds. -/
def txReady (s : State) (x : TxSess) : Nat :=
  if !x.fromRunning && s.crd.relayBusy then s.crd.nextBlock else blocksOf (txImage s x).length

/-- Send the blocks that the limit and the stored image allow, in order. -/
def pump (s : State) (p : Nat) : State :=
  match txSess s p with
  | some x =>
    if !x.accepted then s
    else
      let hi := min x.limit (txReady s x)
      let s := (List.range (hi - x.sent)).foldl (fun s i => sendBlock s p x (x.sent + i)) s
      setTx s p (some { x with sent := max x.sent hi })
  | none => s

/-- The session on a port with the session number of a frame. -/
def txFor (s : State) (p : Nat) (f : RelayIn) : Option TxSess :=
  match txSess s p with
  | some x => if x.session = f.session then some x else none
  | none => none

/-- ACCEPT: sending opens; with HAVE nothing is to be sent. -/
def execRelayAccept (p : Fin 2) (bytes : List Byte) (s : State) : Out :=
  .next (relayIn 2 p bytes (fun f s =>
    match txFor s p f with
    | some x => if x.accepted then s else setTx s p (some { x with
        accepted := true, lastAckAt := s.now
        acked := if bitN f.flags 0 then blocksOf x.total else 0, sent := if bitN f.flags 0 then blocksOf x.total else 0 })
    | none => s) s)

/-- ACK: the next block expected and the highest that may be sent. -/
def execRelayAck (p : Fin 2) (bytes : List Byte) (s : State) : Out :=
  .next (relayIn 4 p bytes (fun f s =>
    match txFor s p f with
    | some x =>
      if !x.accepted then s
      else pump (setTx s p (some { x with acked := f.block, limit := f.arg + 1, sent := max x.sent f.block, resends := 0
                                          lastAckAt := s.now })) p
    | none => s) s)

/-- NAK: resend from the named block. -/
def execRelayNak (p : Fin 2) (bytes : List Byte) (s : State) : Out :=
  .next (relayIn 5 p bytes (fun f s =>
    match txFor s p f with
    | some x => if x.accepted then pump (setTx s p (some { x with sent := f.block })) p else s
    | none => s) s)

/-- OFFER_RETRY: an unanswered OFFER is repeated every 1 s; after three the port has no relay neighbour. -/
def execOfferRetry (p : Fin 2) (s : State) : Out :=
  .next (
    match txSess s p with
    | some x =>
      if !awake s ∨ x.accepted ∨ s.now < x.offeredAt + 1000000 then s
      else if x.offers ≥ 3 then setTx s p none
      else
        let x := { x with offers := x.offers + 1, offeredAt := s.now }
        txOffer (setTx s p (some x)) p x
    | none => s)

/-- RELAY_RESEND: 100 ms without an ACK; after 50 resends in a row the session ends with ABORT EXPIRED. -/
def execRelayResend (p : Fin 2) (s : State) : Out :=
  .next (
    match txSess s p with
    | some x =>
      if !awake s ∨ !x.accepted ∨ x.acked ≥ blocksOf x.total ∨ s.now < x.lastAckAt + 100000 then s
      else if x.resends ≥ 50 then
        relaySend (setTx s p none) p (relayFrame 7 0 x.session 0 Code.expired.num [])
      else pump (setTx s p (some { x with sent := x.acked, resends := x.resends + 1, lastAckAt := s.now })) p
    | none => s)

/-! ### The receive session -/

/-- Change the receive session. -/
def modRx (s : State) (f : RxSess → RxSess) : State := modUpd s fun u => { u with rx := f u.rx }

/-- The receive session ends: 4 done, 5 ended early. -/
def rxEnd (s : State) (st : Nat) : State :=
  let s := modRx s fun r => { r with state := st, frags := [], firstAt := none }
  { s with crd := { s.crd with relayBusy := false } }

/-- End it with an ABORT to the upstream neighbour. -/
def rxAbort (s : State) (c : Code) : State :=
  let r := s.upd.rx
  rxEnd (relaySend s r.port (relayFrame 7 0 r.session 0 c.num [])) 5

/-- RESULT to the upstream neighbour (R500). -/
def rxResult (s : State) (c : Code) : State :=
  let r := s.upd.rx
  relaySend s r.port (relayFrame 6 0 r.session 0 c.num (leB 8 Config.serial.toNat ++ leB 4 r.seq.toNat))

/-- Forward an accepted session to the other port, where FWD_EN is set and it has link (R499). -/
def forward (s : State) (fromRunning : Bool) : State :=
  let r := s.upd.rx
  let q := 1 - r.port
  if bitN (rd s updCfg []) 30 && portUp s q && (txSess s q).isNone then txOpen s q r.session fromRunning true r.total r.keySlot r.seq
  else s

/-- An OFFER (*Table: OFFER handling*). A slot that a transmit session reads is not erased (R501). -/
def onOffer (p : Nat) (f : RelayIn) (s : State) : State :=
  let seq := getLe f.payload 0 4
  let abort (c : Code) : State := relaySend s p (relayFrame 7 0 f.session 0 c.num [])
  let haveRun := hasCord s && s.crd.running.seq == seq
  let rx : RxSess := { port := p, session := f.session, seq := wd seq, total := f.arg, keySlot := byteAt f.payload 6
                       lastAck := s.now, lastData := s.now }
  if !bitN (rd s updCfg []) 31 then s
  else if inR s.upd.rx.state 1 3 ∨ s.crd.xferOpen then abort .busy
  else if f.arg > 0x2000000 ∨ f.arg % 4 ≠ 0 then abort .range
  else if haveRun ∨ (s.crd.incValid ∧ s.crd.incoming.seq = seq) then
    let s := modUpd s fun u => { u with rx := { rx with state := 4 }, rxSeq := wd seq }
    let s := relaySend s p (relayFrame 2 1 f.session 0 0 [])
    forward (rxResult s .ok) haveRun
  else if txReadsIncoming s then abort .busy
  else
    let s := clearIncoming s
    modUpd { s with crd := { s.crd with relayBusy := true } } fun u => { u with rx := { rx with state := 1 }, rxSeq := wd seq }

/-- OFFER. -/
def execRelayOffer (p : Fin 2) (bytes : List Byte) (s : State) : Out := .next (relayIn 1 p bytes (onOffer p) s)

/-- RELAY_ERASE_COMPLETE: the slot is erased; ACCEPT goes upstream and receiving begins. -/
def execRelayEraseComplete (s : State) : Out :=
  .next (
    if s.upd.rx.state ≠ 1 ∨ !awake s then s
    else
      let s := modRx s fun r => { r with state := 2, lastAck := s.now, lastData := s.now }
      forward (relaySend s s.upd.rx.port (relayFrame 2 0 s.upd.rx.session 0 0 [])) false)

/-- Send an ACK with the limit of CREDIT (R498). -/
def rxAck (s : State) : State :=
  let r := s.upd.rx
  relaySend s r.port (relayFrame 4 0 r.session r.next (r.next + rdf s updCfg [] 8 0 - 1) [])

/-- Send a NAK for the expected block; the eighth for one block ends the session with ABORT CHECK_FAIL. -/
def rxNak (s : State) : State :=
  let r := s.upd.rx
  let s := relaySend s r.port (relayFrame 5 0 r.session r.next 0 [])
  let s := modUpd s fun u =>
    { u with nakCnt := inc16 u.nakCnt, rx := { u.rx with naks := u.rx.naks + 1, frags := [], firstAt := none } }
  if r.naks + 1 ≥ 8 then rxAbort s .checkFail else s

/-- The last block is stored: the incoming slot is verified (R500), now or as soon as a verification under way ends. -/
def rxStored (s : State) : State :=
  let s := modRx s fun r => { r with state := 3 }
  let s := { s with crd := { s.crd with relayBusy := false } }
  if s.crd.verifying.isSome then s else { s with crd := { s.crd with verifying := some .relay, resBusy := true } }

/-- A fragment of a block beyond the expected one. DEDUCED (assumption 63): such a block arrives with the first of its
fragments, and again with one that does not follow the last, and each arrival is NAKed once. -/
def onBeyond (s : State) (b frag : Nat) : State :=
  let fresh := match s.upd.rx.beyond with
    | some (b0, f0) => b0 != b || decide (frag ≤ f0)
    | none => true
  let s := modRx s fun r => { r with beyond := some (b, frag) }
  if fresh then rxNak s else s

/-- A DATA fragment (R498): blocks are stored in ascending order only, and every fourth is followed by an ACK. -/
def onData (p : Nat) (f : RelayIn) (s : State) : State :=
  let r := s.upd.rx
  if r.state ≠ 2 ∨ r.port ≠ p ∨ r.session ≠ f.session then s
  else
    let s := modRx s fun r => { r with lastData := s.now }
    if f.block > r.next then onBeyond s f.block f.flags
    else if f.block < r.next then s
    else
      let len := min 4096 (r.total - 4096 * r.next)
      let frags := tset [] r.frags f.flags f.payload
      let s := modRx s fun r => { r with frags := frags, blockCrc := wd f.arg, firstAt := some (r.firstAt.getD s.now) }
      if !((List.range ((len + 1023) / 1024)).all fun i => !(tget [] frags i).isEmpty) then s
      else
        let blk := ((List.range 4).map (tget [] frags)).flatten
        if blk.length ≠ len ∨ crc32c blk ≠ f.arg then rxNak s
        else
          let s := appendIncoming s blk
          let s := modRx s fun r =>
            { r with next := r.next + 1, naks := 0, frags := [], firstAt := none, beyond := none }
          let s := if s.upd.rx.next % 4 = 0 then rxAck s else s
          let s := if s.upd.rx.next ≥ blocksOf r.total then rxStored s else s
          pump s (1 - p)

/-- DATA. -/
def execRelayData (p : Fin 2) (bytes : List Byte) (s : State) : Out := .next (relayIn 3 p bytes (onData p) s)

/-- RELAY_ACK_SEND: every 10 ms of the session. -/
def execRelayAckSend (s : State) : Out :=
  .next (if inR s.upd.rx.state 2 3 && awake s && decide (s.now ≥ s.upd.rx.lastAck + 10000) then
    rxAck (modRx s fun r => { r with lastAck := s.now })
  else s)

/-- RELAY_BLOCK_TIMEOUT: incomplete 2 ms after its first fragment. -/
def execRelayBlockTimeout (s : State) : Out :=
  .next (
    match s.upd.rx.firstAt with
    | some t => if s.upd.rx.state = 2 ∧ awake s ∧ s.now ≥ t + 2000 then rxNak s else s
    | none => s)

/-- RELAY_DATA_TIMEOUT: 5 s without DATA. -/
def execRelayDataTimeout (s : State) : Out :=
  .next (if s.upd.rx.state = 2 ∧ awake s ∧ s.now ≥ s.upd.rx.lastData + 5000000 then rxAbort s .expired else s)

/-- RESULT from downstream goes upstream unchanged (R500); the transmit session that it answers has ended. -/
def execRelayResult (p : Fin 2) (bytes : List Byte) (s : State) : Out :=
  .next (relayIn 6 p bytes (fun f s =>
    let r := s.upd.rx
    let s := if (txFor s p f).isSome then setTx s p none else s
    if r.state ≠ 0 ∧ r.session = f.session ∧ r.port ≠ p.val then relaySend s r.port bytes else s) s)

/-- RELAY_ABORT: from upstream it ends the receive session and the module's transmit session; from downstream that
transmit session alone (R499). -/
def execRelayAbort (p : Fin 2) (bytes : List Byte) (s : State) : Out :=
  .next (relayIn 7 p bytes (fun f s =>
    let r := s.upd.rx
    if inR r.state 1 3 ∧ r.port = p.val ∧ r.session = f.session then
      let s := rxEnd s 5
      match txSess s (1 - p.val) with
      | some x => if x.session = f.session then setTx s (1 - p.val) none else s
      | none => s
    else if (txFor s p f).isSome then setTx s p none
    else s) s)

/-! ### UPD_CMD -/

/-- UPD_RES. -/
def updRes (c : Code) (s : State) : State := modUpd s fun u => { u with res := c }

/-- Every UPD register needs the configure right. -/
def updRight (w : Win) : State → Bool := rightOne w rCfg

/-- While FALLBACK_PENDING is set UPD_CMD returns REFUSED_MODE (R506). -/
def fbCode (s : State) : Code := when_ s.upd.fbPending .refusedMode

/-- SEND (R499). -/
def opSend (session : Nat) (src : Bool) (ports : Nat) (s : State) : Code × State :=
  let img := if src then s.crd.running.bytes else s.crd.incoming.bytes
  let named := (List.range 2).filter fun p => bitN ports p
  let c := firstCode [when_ (if src then img.isEmpty else !s.crd.incValid) .notPresent, fbCode s, rng (!named.isEmpty),
    when_ (named.any fun p => (txSess s p).isSome) .busy]
  ifOk c s fun s => okCmd (named.foldl (fun s p =>
    txOpen s p session src false img.length (imageKey img) (wd (getLe img 12 4))) s)

/-- ABORT: every session ends, each with an ABORT frame whose code the manual does not give. -/
def opUpdAbort (s : State) : Code × State :=
  ifOk (fbCode s) s fun s =>
    let (v, s) := drawFree s
    let bye (s : State) (p session : Nat) : State := relaySend s p (relayFrame 7 0 session 0 v [])
    let s := if inR s.upd.rx.state 1 3 then rxEnd (bye s s.upd.rx.port s.upd.rx.session) 5 else s
    okCmd ((List.range 2).foldl (fun s p =>
      match txSess s p with
      | some x => setTx (bye s p x.session) p none
      | none => s) s)

/-- The codes of UPD ACTIVATE before anything changes (R84, R504). -/
def actCode (s : State) : Code :=
  let modeOk := s.emb.mode == .standby || s.emb.mode == .connected || s.emb.mode == .drowse || s.emb.mode == .configure
  firstCode [when_ (!s.crd.incValid) .notPresent, fbCode s, when_ (!modeOk || s.emb.eject) .refusedMode,
    when_ (relayRuns s || s.upd.confRun || s.upd.fbDue || s.upd.activating || s.crd.verifying.isSome) .busy, when_ (auditFullNow s) .full]

/-- ACTIVATE (R504). -/
def opUpdActivate (s : State) : Code × State :=
  let c := actCode s
  ifOk c (if c = .full then noteAuditFull s else s) fun s =>
    if s.emb.mode = .configure then (.ok, startVerify .updActivate true s)
    else
      let s := modUpd (activity s) fun u => { u with activating := true }
      (.busy, reqMode s (if s.emb.mode = .standby then .configure else .standby) (.relay 0x0B))

/-- UPD_RES of SEND, ABORT, ACTIVATE and the key commands, and the window's result: an accepted ACTIVATE is OK there. -/
def updReq (w : Win) (f : State → Code × State) (s : State) : Code × State :=
  let (c, t) := cmdReq (updRight w) updRes f s
  (if c = .busy ∧ t.upd.activating ∧ !s.upd.activating then .ok else c, t)

/-- SEND. -/
def execUpdSend (w : Win) (session : BitVec 16) (src : Bool) (ports : BitVec 2) (s : State) : Out :=
  .next (hostCmd w 0x160000 (updReq w (opSend session.toNat src ports.toNat)) s)

/-- UPD ABORT. -/
def execUpdAbort (w : Win) (s : State) : Out := .next (hostCmd w 0x160000 (updReq w opUpdAbort) s)

/-- UPD ACTIVATE. -/
def execUpdActivate (w : Win) (s : State) : Out := .next (hostCmd w 0x160000 (updReq w opUpdActivate) s)

/-! ### Key slots (R503) -/

/-- The statement in the buffer, n bytes. -/
def stmt (s : State) (n : Nat) : List Byte := ((List.range 64).flatMap fun i => leB 4 (rd s updStmt [i])).take n

/-- Format, serial number and signature of a statement (R503): the signature covers every byte before the trailer. -/
def stmtOk (s : State) (program : Bool) : Bool :=
  let b := stmt s 256
  let at_ := if program then 116 else 16
  let t := (b.drop at_).take 104
  let serial := getLe b 8 8
  getLe b 0 4 == 0x59454B55 && getLe b 4 1 == (if program then 1 else 2) && decide (getLe b 5 1 < 4) && getLe b 6 2 == 0 &&
    (serial == 0 || serial == Config.serial.toNat) && (!program || getLe b 113 3 == 0) && signedBy s (b.take at_) t

/-- The slots named by the running Cord and its Safety billet. -/
def slotsInUse (s : State) : List Nat :=
  let img := s.crd.running.bytes
  if hasCord s then imageKey img :: ((billetsOf img).1.filter fun b => b.type == 5).map (·.keySlot) else []

/-- KEY_PROG and KEY_REVOKE. -/
def opKey (program : Bool) (s : State) : Code × State :=
  let b := stmt s 256
  let slot := getLe b 5 1
  let signer := byteAt (b.drop (if program then 116 else 16)) 2
  let active := ((List.range 4).filter (keyActive s)).length
  let c := firstCode
    [fbCode s, when_ (s.emb.mode != .configure) .refusedMode,
     when_ (!stmtOk s program) .checkFail,
     rng (if program then tget 0 s.crd.keys slot == 0 else !(keyActive s slot && active == 1)),
     when_ (!program && (slotsInUse s).contains slot) .refusedMode,
     when_ (auditFullNow s) .full]
  let s := if c = .full then noteAuditFull s else s
  ifOk c s fun s =>
    let s := auditAppend s (if program then .keyProg else .keyRevoke) bUPD [BitVec.ofNat 8 slot, BitVec.ofNat 8 signer]
    okCmd { s with crd := { s.crd with
      keys := tset 0 s.crd.keys slot (if program then 1 else 2)
      keyData := if program then tset [] s.crd.keyData slot ((b.drop 16).take 97) else s.crd.keyData } }

/-- KEY_PROG. -/
def execKeyProg (w : Win) (s : State) : Out :=
  .next (hostCmd w 0x160000 (updReq w (opKey true)) s)

/-- KEY_REVOKE. -/
def execKeyRevoke (w : Win) (s : State) : Out :=
  .next (hostCmd w 0x160000 (updReq w (opKey false)) s)

/-! ### Health (R505) -/

/-- The running Cord confirms its health. -/
def confirm (s : State) : State :=
  if s.upd.confRun then
    stage (modUpd s fun u => { u with confRun := false, confirmed := true, cleft := 0, fbDue := false }) .cordConfirmed bUPD
      sevNotice (leB 4 s.crd.running.seq)
  else s

/-- A write of UPD_HEALTH_OK; outside a window NOT_PRESENT. -/
def opHealth (go : Bool) (s : State) : Code × State :=
  ifOk (when_ (!s.upd.confRun) .notPresent) s fun s => okCmd (if go then confirm s else s)

/-- HEALTH_OK. -/
def execHealthOk (w : Win) (go : Bool) (s : State) : Out :=
  .next (hostCmd w 0x160008 (cmdReq (updRight w) noRes (opHealth go)) s)

/-- Take an event from those that wait at a sink. -/
def takeEvent (s : State) (k : EvSink) : State := { s with kln := { s.kln with evPend := s.kln.evPend.erase k } }

/-- HEALTH_EVENT: an event reaches the relay's HEALTH sink. -/
def execHealthEvent (s : State) : Out :=
  .next (if awake s then confirm (takeEvent s .health) else s)

/-! ### Register views -/

/-- UPD_STAT. -/
def updStat (s : State) : Nat :=
  let u := s.upd
  place u.rx.state 31 28 + place (bitsOf 2 fun p => (txSess s p).isSome) 25 24 + flag u.confRun 23 + flag u.confirmed 22 +
    flag u.fbPending 21 + flag u.fellBack 20 + flag u.fbFail 19 + place u.vres.num 15 8

/-- UPD_CLEFT: seconds left, rounded up. -/
def updCleft (s : State) : Nat := (s.upd.cleft + 32767) / 32768

/-- UPD_SESS. -/
def updSess (s : State) : Nat := s.upd.rx.session * 65536 + s.upd.rx.next

/-- UPD_TXCNT. -/
def updTxcnt (s : State) : Nat :=
  let n (p : Nat) : Nat := match txSess s p with | some x => x.acked | none => 0
  n 1 * 65536 + n 0

/-- UPD_ERR. -/
def updErr (s : State) : Nat := s.upd.frameErr * 65536 + s.upd.nakCnt

/-- UPD_KEYST. -/
def updKeyst (s : State) : Nat := ((List.range 4).map fun k => tget 0 s.crd.keys k * 4 ^ k).foldl (· + ·) 0

end Sys2Proof.Machine
end

