-- ==== Sys2Proof/Machine/Verify.lean ====
section
/-!
DEFINITION. The end of a Cord verification and what the command that started it goes on to do (R85, R89, R91, R373,
R500, R504, R506), the switch of an online change (R374, R375), the expiry of the confirmation window, and the
delivery of events that waited at a gated domain (R31).
-/

namespace Sys2Proof.Machine

/-- A start's facts with the supply, PRESENT and the lever as they are now. -/
def here (s : State) (b : BootFacts) : BootFacts :=
  { b with vsup10mv := s.emb.vsup, present := s.emb.present, leverOpen := s.emb.eject }

/-- The image that a verification reads. -/
def verifyImage (s : State) (v : VerifyFor) : List Byte :=
  match v with
  | .verifyRunning => s.crd.running.bytes
  | .revert | .fallback => s.crd.previous.bytes
  | _ => s.crd.incoming.bytes

/-- Both CORD_SEQ values of a rotation: the Cord that leaves and the one that comes. -/
def bothSeqs (a b : Slot) : List Byte := leB 4 a.seq ++ leB 4 b.seq

/-- The rotation of R89; a running image that failed its check is discarded. -/
def rotate (s : State) : State :=
  { s with crd := { s.crd with
      previous := if s.crd.runBad then s.crd.previous else s.crd.running
      running := s.crd.incoming, incoming := {}, incValid := false, nextBlock := 0, shortBlock := false } }

/-- ACTIVATE after its verification has passed (R89). -/
def doActivate (s : State) (b : BootFacts) : State :=
  if auditFullNow s then crdPlain .full (noteAuditFull s)
  else
    let s := auditAppend s .cordActivate bCRD (bothSeqs s.crd.running s.crd.incoming)
    let s := prepCold s
    doColdStart (here s b) .activate (rotate s)

/-- REVERT after its verification has passed (R91). -/
def doRevert (s : State) (b : BootFacts) : State :=
  if auditFullNow s then crdPlain .full (noteAuditFull s)
  else
    let s := auditAppend s .cordRevert bCRD (bothSeqs s.crd.running s.crd.previous)
    let s := prepCold s
    doColdStart (here s b) .revert { s with crd := { s.crd with running := s.crd.previous, previous := s.crd.running } }

/-- A fallback after its verification (R506). -/
def doFallback (s : State) (b : BootFacts) (c : Code) : State :=
  if c = .ok then
    fallbackPath (modUpd { s with crd := { s.crd with saved := some b } } fun u => { u with fbGo := true })
  else
    stage (modUpd s fun u => { u with fbFail := true, fbDue := false, confRun := false, cleft := 0 }) .cordFallbackFail bUPD
      sevFault (leB 4 (crdResult s))

/-- The relay's image is verified (R500). -/
def doRelay (s : State) (c : Code) : State :=
  let s := modUpd s fun u => { u with vres := c }
  rxEnd (stage (rxResult s c) .updReceived bUPD sevNotice (BitVec.ofNat 8 c.num :: leB 4 s.upd.rx.seq.toNat)) 4

/-! ### Online change -/

/-- What an online change compares: every billet but Logic code and Metadata, without its position and its CRC. -/
def compared (img : List Byte) : List (List Byte) :=
  ((rawOf img).filter fun b => byteAt b 0 ≠ 4 ∧ byteAt b 0 ≠ 10).map
    fun b => b.take 2 ++ (b.drop 4).take (b.length - 8)

/-- Bytes of the Logic code billets of an image. -/
def logicBytes (img : List Byte) : Nat := (billetBytes img 4).length

/-- The new code is loaded into the SRAM logic partition beside the old: at its end while the old lies at its start, and the
other way round (R373; the places are a DESIGN CHOICE, assumption 71). -/
def loadBeside (s : State) (img : List Byte) : State :=
  match partOf s .logic with
  | some p =>
    let off := if s.lgc.codeTop then 0 else p.len - logicBytes img
    storeBytes .management s (p.base + off) (billetBytes img 4)
  | none => s

/-- An online change ends with a code; LGC_RES stops reading BUSY. -/
def olcEnd (s : State) (c : Code) (waitMs : Nat) : State :=
  modLgc s fun l => { l with olc := none, olcNew := [], olcRes := c, olcWait := min 0xFFFF waitMs
                             res := if l.res = .busy then c else l.res }

/-- Steps 2 to 5 of R373. -/
def doOlc (s : State) (w : Win) (b : BootFacts) (c : Code) : State :=
  let room := match partOf s .logic with | some p => p.len | none => 0
  if c ≠ .ok then olcEnd s c 0
  else if compared s.crd.incoming.bytes ≠ compared s.crd.running.bytes then olcEnd s .checkFail 0
  else if auditFullNow s then olcEnd (noteAuditFull s) .full 0
  else if logicBytes s.crd.running.bytes + logicBytes s.crd.incoming.bytes > room then olcEnd s .full 0
  else modLgc (loadBeside s s.crd.incoming.bytes) fun l => { l with olc := some (w, s.now), olcNew := b.content.tasks }

/-- OLC_SWITCH: at a quiet instant the new code takes over. An incoming slot that was written meanwhile ends the change
with CHECK_FAIL. -/
def execOlcSwitch (s : State) : Out :=
  .next (
    match s.lgc.olc, s.crd.content with
    | some (_, t0), some c =>
      if !awake s ∨ !quietInstant s then s
      else if !s.crd.incValid then olcEnd s .checkFail ((s.now - t0) / 1000)
      else
        let new := s.lgc.olcNew
        let s := lgcSwitch s c.tasks new
        let s := { s with crd := { s.crd with content := some { c with tasks := new } } }
        let orphans := ((forcesOf s).filter (·.orphan)).length
        let s := auditAuto s .logicChange bLGC (bothSeqs s.crd.running s.crd.incoming ++ leB 2 orphans)
        olcEnd (rotate (modLgc s fun l => { l with codeTop := !l.codeTop })) .ok ((s.now - t0) / 1000)
    | _, _ => s)

/-- OLC_TIMEOUT: no quiet instant within 1 s (R375). -/
def execOlcTimeout (s : State) : Out :=
  .next (
    match s.lgc.olc with
    | some (_, t0) =>
      if awake s ∧ s.now ≥ t0 + 1000000 then
        stage (olcEnd s .busy 1000) .logicChangeRefused bLGC sevNotice (bothSeqs s.crd.running s.crd.incoming)
      else s
    | none => s)

/-! ### The end of a verification -/

/-- A verification that waited for the one that has ended. -/
def verifyNext (s : State) : State :=
  if s.crd.verifying.isSome ∨ !awake s then s
  else if s.upd.rx.state = 3 then startVerify .relay false s
  else if s.upd.fbDue ∧ !s.upd.fbGo then startVerify .fallback false s
  else s

/-- INC_VALID after a verification of the incoming slot. -/
def setIncValid (s : State) (v : VerifyFor) (c : Code) : State :=
  match v with
  | .verifyRunning | .revert | .fallback => s
  | _ => { s with crd := { s.crd with incValid := c == .ok } }

/-- What the command that started the verification goes on to do. -/
def verified (s : State) (v : VerifyFor) (b : BootFacts) (c : Code) : State :=
  match v with
  | .verifyIncoming | .verifyRunning => s
  | .activate | .updActivate => if c = .ok then doActivate s b else s
  | .revert => if c = .ok then doRevert s b else s
  | .relay => doRelay s c
  | .fallback => doFallback s b c
  | .olc w => doOlc s w b c

/-- VERIFICATION_COMPLETE: RES, STAGE, BILLET and CODES of R85, and then the command. -/
def execVerificationComplete (boot : BootFacts) (s : State) : Out :=
  .next (
    match s.crd.verifying with
    | none => s
    | some v =>
      if !awake s then s
      else
        let r := cordCheck s boot.facts boot.content (verifyImage s v)
        let c := reported r.2
        let s := crdReport { s with crd := { s.crd with verifying := none } } r
        verifyNext (verified (setIncValid s v c) v boot c))

/-- CONFIRM_EXPIRY: the window has run out; the previous slot is verified (R506). -/
def execConfirmExpiry (s : State) : Out :=
  .next (
    if !awake s ∨ !s.upd.confRun ∨ s.upd.cleft ≠ 0 then s
    else verifyNext (modUpd s fun u => { u with confRun := false, fbDue := true }))

/-! ### Events held at a gated domain (R31) -/

/-- The clock domain of a sink: CTL for a capture channel, SYS for every other (DESIGN CHOICE: the manual names the domain
of no sink, assumption 70). -/
def sinkDom (k : EvSink) : Domain :=
  match k with
  | .capture _ => .ctl
  | .task _ | .health | .other _ => .sys

/-- The domain of a sink is gated. -/
def sinkGated (s : State) (k : EvSink) : Bool := gated s (sinkDom k)

/-- A sink acts on an event. -/
def sinkAct (s : State) (k : EvSink) : State :=
  match k with
  | .task t => if taskOn s t && rdf s lgcTcfg [t.val] 23 0 == 0 then triggerTask s t else s
  | .capture c =>
    if (cap s c).state = 1 ∧ rdf s ctlCtrg [c.val] 31 28 = 5 then modCap s c fun x => { x with trigNow := true } else s
  | .health => confirm s
  | .other _ => s

/-- Deliver an event that waits at a sink. -/
def deliverEvent (s : State) (k : EvSink) : State :=
  if !awake s ∨ !s.kln.evPend.contains k ∨ sinkGated s k then s else sinkAct (takeEvent s k) k

/-- GATED_EVENT_DELIVERY: an event waits at the sink; the module requests its domain, which runs, and delivers it. -/
def execGatedEventDelivery (sink : EvSink) (s : State) : Out :=
  .next (if awake s ∧ s.kln.evPend.contains sink then deliverEvent (ungate (sinkDom sink) s) sink else s)

end Sys2Proof.Machine
end

