-- ==== Sys2Proof/Machine/Pnl.lean ====
section
/-!
DEFINITION. The front panel (R507 to R512), PRESENT and the lever (R516 to R519), and Kindling (R66), after which an
open lever starts the extraction.
-/

namespace Sys2Proof.Machine

/-- BLOCK code of PNL. -/
def bPNL : Byte := 0x17

/-- Change the panel. -/
def modPnl (s : State) (f : Pnl → Pnl) : State := { s with pnl := f s.pnl }

/-! ### Rights and actions (R509) -/

/-- The panel's safety-acknowledge right. -/
def panelAck (s : State) : Bool := bitN (rd s pnlCfg []) 31

/-- The panel's maintenance right. -/
def panelMaint (s : State) : Bool := lotoPos s == .maint && bitN (rd s pnlCfg []) 30

/-- A panel action with its right; EJECT refuses every one (R518). -/
def panelDo (s : State) (right : Bool) (action : Nat) (f : State → Code × State) : State :=
  if !right then panelOutcome s action .refusedRights
  else
    let (c, s) := f s
    panelOutcome s action c

/-- The SAFE_STOP acknowledge at the panel. -/
def panelSafeAck (s : State) : State := panelDo s (panelAck s) 1 (safeAck 0xFF)

/-- FORCE_ACK at the panel. -/
def panelForceAck (s : State) : State :=
  panelDo s (panelMaint s) 2 fun s => if s.emb.eject then (.refusedMode, s) else forceAck s

/-- An item of the MAINT menu: REQ MAINT, LEAVE MAINT, CLR FORCES. -/
def menuItem (s : State) (i : Nat) : State :=
  let ask (m : Mode) (action : Nat) : State :=
    if s.emb.eject then panelOutcome s action .refusedMode else reqMode s m .panel
  match i with
  | 0 => if panelMaint s then ask .maintenance 3 else panelOutcome s 3 .refusedRights
  | 1 => ask .standby 4
  | _ => panelDo s (panelMaint s) 5 fun s => if s.emb.eject then (.refusedMode, s) else opForceClrAll s

/-! ### Keys (R507, R508) -/

/-- A key is touched. -/
def keyOn (s : State) (k : Nat) : Bool := (tget none s.pnl.touched k).isSome

/-- A key is touched and not STUCK: a STUCK key is ignored (R507). -/
def keyLive (s : State) (k : Nat) : Bool := keyOn s k && !bitN s.pnl.stuck.toNat k

/-- Keys other than k are touched. -/
def othersOn (s : State) (k : Nat) : Bool := (List.range 4).any fun j => j != k && keyLive s j

/-- Screens shown: MAINT only while MENU_EN is set. -/
def screens (s : State) : Nat := if bitN (rd s pnlCfg []) 30 then 7 else 6

/-- The function of UP, DOWN and ENTER when touched. -/
def keyFunction (s : State) (k : Nat) : State :=
  match k, s.pnl.menu with
  | 0, some i => modPnl s fun p => { p with menu := some ((i + 2) % 3) }
  | 1, some i => modPnl s fun p => { p with menu := some ((i + 1) % 3) }
  | 2, some i => modPnl (menuItem s i) fun p => { p with menu := none }
  | 0, none => modPnl s fun p => { p with screen := (p.screen + screens s - 1) % screens s }
  | 1, none => modPnl s fun p => { p with screen := (p.screen + 1) % screens s }
  | 2, none => if s.pnl.screen = 6 then modPnl s fun p => { p with menu := some 0 } else s
  | _, _ => s

/-- ENTER and ACK are both touched as key k is (R508). -/
def bothWith (s : State) (k : Nat) : Bool := (k == 2 && keyLive s 3) || (k == 3 && keyLive s 2)

/-- KEY_TOUCH: 50 ms of contact. A touch that wakes the module or lights the display does nothing else (R507, R510); while
EJECT is set a menu item is refused, and nothing else happens (R518, R519). -/
def execKeyTouch (key : Fin 4) (s : State) : Out :=
  .next (
    let k := key.val
    let bit : BitVec 4 := BitVec.ofNat 4 (2 ^ k)
    if s.emb.power ≠ .on ∨ keyOn s k then s
    else
      let others := othersOn s k
      let s := modPnl s fun p =>
        { p with touched := tset none p.touched k (some s.now), consumed := p.consumed &&& ~~~ bit, withOther := others
                 bothSince := if bothWith s k && !s.emb.eject then some s.now else p.bothSince }
      if s.emb.mode = .ember then
        fireWake (modPnl s fun p => { p with consumed := p.consumed ||| bit }) 4
      else if s.emb.eject then
        match s.pnl.menu with
        | some i => if k = 2 ∧ !others then menuItem s i else s
        | none => s
      else if !s.pnl.backlight then modPnl s fun p => { p with backlight := true, consumed := p.consumed ||| bit }
      else if k = 2 ∧ others then s
      else keyFunction s k)

/-- ACK released after its whole time held (R508). -/
def ackReleased (s : State) (held : Nat) : State :=
  if held < 1000000 then s
  else if held ≥ 3000000 ∧ lotoPos s = .maint ∧ forcesActive s ∧ !s.emb.forceAcked then panelForceAck s
  else panelSafeAck s

/-- KEY_RELEASE: 50 ms without contact. -/
def execKeyRelease (key : Fin 4) (s : State) : Out :=
  .next (
    let k := key.val
    match tget none s.pnl.touched k with
    | none => s
    | some t =>
      let dead := bitN s.pnl.stuck.toNat k || bitN s.pnl.consumed.toNat k || s.pnl.withOther
      let bit : BitVec 4 := BitVec.ofNat 4 (2 ^ k)
      let s := modPnl s fun p =>
        { p with touched := tset none p.touched k none, stuck := p.stuck &&& ~~~ bit, consumed := p.consumed &&& ~~~ bit
                 bothSince := if k ≥ 2 then none else p.bothSince, lastTouch := s.now }
      let s := modPnl s fun p => { p with withOther := p.withOther && othersOn s k }
      if k = 3 ∧ !dead ∧ awake s then ackReleased s (s.now - t) else s)

/-- KEY_STUCK: touched for longer than 30 s. -/
def execKeyStuck (key : Fin 4) (s : State) : Out :=
  .next (
    match tget none s.pnl.touched key.val with
    | some t =>
      if s.now ≤ t + 30000000 ∨ bitN s.pnl.stuck.toNat key ∨ !awake s then s
      else stage (modPnl s fun p => { p with stuck := p.stuck ||| BitVec.ofNat 4 (2 ^ key.val)
                                             bothSince := if key.val ≥ 2 then none else p.bothSince }) .pnlKeyStuck bPNL sevWarning
        [BitVec.ofNat 8 key]
    | none => s)

/-- LAMP_TEST: ENTER and ACK touched together for 2 s start one test of 2 s (R508). -/
def execLampTest (s : State) : Out :=
  .next (
    match s.pnl.bothSince with
    | some t =>
      if awake s ∧ !s.emb.eject ∧ s.now ≥ t + 2000000 then
        modPnl s fun p => { p with lampUntil := some (s.now + 2000000), bothSince := none }
      else s
    | none => s)

/-- BACKLIGHT_TIMEOUT: BL_TMO without a touch (R510). DESIGN CHOICE (assumption 65): a key that is touched and not STUCK is a
touch as long as it lasts. -/
def execBacklightTimeout (s : State) : Out :=
  .next (
    if s.pnl.backlight ∧ !(List.range 4).any (keyLive s) ∧ s.now ≥ s.pnl.lastTouch + 1000000 * rdf s pnlCfg [] 15 0 then
      modPnl s fun p => { p with backlight := false }
    else s)

/-! ### PRESENT (R517) -/

/-- PRESENT_LOST: PRESENT breaks; with EJECT clear the module asserts PFAIL at once. -/
def execPresentLost (s : State) : Out :=
  .next (
    if !s.emb.present ∨ s.emb.power = .dark then s
    else
      let s := modEmb s fun e => { e with present := false }
      if s.emb.power ≠ .on ∨ s.emb.eject then s
      else
        let s := stage s .pnlPresentLost bPNL sevFault []
        doPfail (modPnl s fun p => { p with plost := inc16 p.plost }))

/-! ### Extraction (R518) -/

/-- The sequence begins. -/
def ejectStart (s : State) : State :=
  let s := modPnl s fun p => { p with ejState := 1, ejAt := s.now, ejects := inc16 p.ejects }
  let s := stage (allEvent s 13 0) .pnlEject bPNL sevNotice []
  let s := refuseReqs (relayStop (crdEject s))
  if s.emb.mode = .connected ∨ s.emb.mode = .drowse then reqMode s .standby .lever else ejectPrep s

/-- EJECT: the lever opens. In EMBER it wakes the module first (R65). -/
def execEject (s : State) : Out :=
  .next (
    if s.emb.power ≠ .on ∨ s.emb.eject then s
    else
      let s := modEmb s fun e => { e with eject := true }
      if s.emb.mode = .ember then fireWake s 7 else ejectStart s)

/-- A string that still carries 1 A or more as its contactors open: EJECT_UNDER_LOAD. -/
def underLoad (s : State) (k : Nat) : State :=
  if ctrWanted s k ∧ ((mstr s k).invalid ∨ (mstr s k).voted.natAbs ≥ 1000) then
    stage s .ejectUnderLoad bPNL sevWarning (BitVec.ofNat 8 k :: leI 4 (mstr s k).voted)
  else s

/-- EJECT_CONTACTOR_TIMEOUT: 500 ms after EJECT every contactor request is withdrawn. -/
def execEjectContactorTimeout (s : State) : Out :=
  .next (
    if s.pnl.ejState = 0 ∨ !awake s ∨ s.now < s.pnl.ejAt + 500000 then s
    else openAll ((strs s).foldl underLoad s))

/-- The extraction waits for nothing more: contactors open, weld checks ended, CONNECTED and DROWSE left. -/
def ejectOpen (s : State) : Bool :=
  decide (s.pnl.ejState ≠ 0) && awake s && !contactorWanted s && allOpen s && (strs s).all (fun k => (ctr s k).pstate != 4) &&
    s.emb.mode != .connected && s.emb.mode != .drowse && emberReady s

/-- EJECT_FLUSH_COMPLETE: EMBER with cause 0x0A, and dark; a cold start needs the lever closed (R519). -/
def execEjectFlushComplete (s : State) : Out :=
  .next (
    if ejectOpen s then
      let s := enterEmber s 0x0A fun s => impFlush (estPowerFlush (!nvOpen s) (recPowerFlush s))
      modPnl (modEmb s fun e => { e with power := .waiting }) fun p => { p with ejState := 0 }
    else s)

/-! ### Kindling -/

/-- Bytes of the Kiln configuration memory that have changed: billet, offset, value. -/
def kcmUpset (l : List (Nat × Nat × Byte)) (s : State) : State :=
  { s with crd := { s.crd with kcm := l.foldl (fun t u => t.set u.1 ((t.getD u.1 []).set u.2.1 u.2.2)) s.crd.kcm } }

/-- INDEX of the first billet in the Kiln configuration memory whose CRC-32C fails (R66). -/
def kcmBad (s : State) : Option Nat := (s.crd.kcm.findIdx? fun b => !billetCrc b).map (kcmIndex s)

/-- KINDLING: every billet in the Kiln configuration memory passes its CRC, or Kindling is abandoned for a cold start
(R66). No block has started, so nothing remains to be stored before it (R536). With the lever open the extraction follows. -/
def execKindling (upsets : List (Nat × Nat × Byte)) (boot : BootFacts) (s : State) : Out :=
  .next (
    if s.emb.power ≠ .on ∨ s.emb.mode ≠ .ember ∨ !s.emb.wakePend then s
    else
      let s := kcmUpset upsets s
      let s := match kcmBad s with
        | none => doKindling boot s
        | some i => doColdStart (here s boot) (.kindling i) s
      if s.emb.eject then ejectStart s else s)

/-! ### Register views -/

/-- PNL_STAT. -/
def pnlStat (s : State) : Nat :=
  flag s.emb.eject 31 + flag s.emb.present 30 + flag (can s 2).tool 29 + flag s.pnl.backlight 28 + place s.pnl.screen 27 24 +
    place s.pnl.stuck.toNat 7 4 + bitsOf 4 (keyOn s)

/-- The first pattern whose condition holds: fast flash, steady, slow flash, off. -/
def lamp (fast steady slow : Bool) : Nat := if fast then 3 else if steady then 1 else if slow then 2 else 0

/-- The patterns of the six lights (*Table: Lights*, R512). -/
def lamps (s : State) : List Nat :=
  let m := s.emb.mode
  let weld := (strs s).any fun k => (ctr s k).weld
  let links := ((List.range 2).filter fun p => (netPort s p).link).length
  let recent := match s.recd.faultSeen with | some t => decide (s.now ≤ t + 60000000) | none => false
  if m = .ember then [0, 0, 0, 0, 0, if weld then 0 else 1]
  else if (match s.pnl.lampUntil with | some t => decide (s.now < t) | none => false) then [1, 1, 1, 1, 1, 1]
  else
    [lamp (m == .precharge) (m == .connected) (m == .standby || m == .drowse || m == .maintenance),
     lamp (((List.range 3).any fun i => (lane s i).state == 2) || bitN s.saf.dem.toNat 14) (safLatched s) recent,
     lamp (forcesActive s && !s.emb.forceAcked) (forcesActive s) false,
     lamp s.par.conflict (paired s && leaseValid s) (s.par.claimLink || s.par.claimWit),
     lamp (relayRuns s) (links == 2) (links == 1),
     lamp weld (allOpen s) (decide (s.pnl.ejState ≠ 0))]

/-- PNL_LED. -/
def pnlLed (s : State) : Nat := (lamps s).reverse.foldl (fun a x => 4 * a + x) 0

/-- PNL_EJ. -/
def pnlEj (s : State) : Nat :=
  if s.pnl.ejState = 0 then 0
  else
    let st := if contactorWanted s || !allOpen s then 1 else if ((strs s).any fun k => (ctr s k).pstate == 4) then 2 else 3
    place st 31 28 + min 0xFFFF ((s.now - s.pnl.ejAt) / 1000)

/-- PNL_CNT. -/
def pnlCnt (s : State) : Nat := s.pnl.ejects * 65536 + s.pnl.plost

end Sys2Proof.Machine
end

