-- ==== Sys2Proof/Machine/View.lean ====
section
/-!
DEFINITION. The registers that only the module writes, page by page in the order of *Table: Window address map* (R45):
each with its place and the word that a read returns. A register with fields of both kinds stands here with the
module's fields and in `RegDefs` with the host's.
-/

namespace Sys2Proof.Machine

/-- A family of registers, or of fields, that the module computes: its base, strides and counts, the fitted instance
it belongs to (R5) and its value for the reading window. -/
structure RoReg where
  base : Nat
  dims : List (Nat × Nat) := []
  part : List Nat → Nat × Nat := fun _ => (0, 0)
  val : State → Nat → List Nat → Nat

/-- The instance of a family at a window address. -/
def RoReg.ixAt (f : RoReg) (a : Nat) : Option (List Nat) := if a < f.base then none else ixOf f.dims (a - f.base)

/-- The family and instance at an address. -/
def roIn : List RoReg → Nat → Option (RoReg × List Nat)
  | [], _ => none
  | f :: t, a =>
    match f.ixAt a with
    | some ix => some (f, ix)
    | none => roIn t a

/-- One register. -/
def ro (base : Nat) (val : State → Nat) : RoReg := { base := base, val := fun s _ _ => val s }

/-- A register of each of n instances. -/
def roN (base stride n : Nat) (val : State → Nat → Nat) : RoReg :=
  { base := base, dims := [(stride, n)], val := fun s _ ix => val s (ix.headD 0) }

/-- A register of each instance of a kind that the variant or the Cord may leave out (R5, R93). -/
def roP (kind base stride n : Nat) (val : State → Nat → Nat) : RoReg :=
  { base := base, dims := [(stride, n)], part := fun ix => (kind, ix.headD 0), val := fun s _ ix => val s (ix.headD 0) }

/-- A register of each of n instances of each of m. -/
def roNN (base stride n stride' m : Nat) (val : State → Nat → Nat → Nat) : RoReg :=
  { base := base, dims := [(stride, n), (stride', m)], val := fun s _ ix => val s (ix.headD 0) (ix.getD 1 0) }

/-- The same for the units of the loops. -/
def roUnits (base stride n stride' m : Nat) (val : State → Nat → Nat → Nat) : RoReg :=
  { base := base, dims := [(stride, n), (stride', m)], part := fun ix => (4, ix.headD 0)
    val := fun s _ ix => val s (ix.headD 0) (ix.getD 1 0) }

/-- A register of each window. -/
def roW (base : Nat) (val : State → Nat → Nat) : RoReg := { base := base, val := fun s w _ => val s w }

/-- A command register or buffer: it reads 0 (R12, WO). -/
def wo (base : Nat) : RoReg := ro base fun _ => 0

/-- Low and high word of an n-bit two's complement or unsigned count. -/
def loW (x : Int) : Nat := twos 64 x % 2 ^ 32
/-- The high word. -/
def hiW (x : Int) : Nat := twos 64 x / 2 ^ 32

/-- RES[31:24] of a RES register. -/
def resW (c : Code) : Nat := place c.num 31 24

/-! ### WIN and HST (chapter 17) -/

/-- A ring selected in WIN_RMASK holds an entry. -/
def ringsBit (s : State) (w : Nat) : Bool :=
  (List.range 64).any fun r => bitN (rdw s winRmask w [r / 32]) (r % 32) && ringAny s r

/-- WIN_EVPEND of a window: its latched bits, and the level bits RESP, EVT, STREAM and RINGS (R452). -/
def winEvpend (s : State) (w : Nat) : Nat :=
  ((win s w).ev.toNat.land (mask 27 4)) + flag (ringsBit s w) 3 + flag (ringAny s (4 * w + 3)) 2 +
    flag (ringAny s (4 * w + 2)) 1 + flag (ringAny s (4 * w + 1)) 0

/-- WIN_EVPEND AND WIN_EVMASK: HATN is asserted while it is not 0 (R448). -/
def winAttn (s : State) (w : Nat) : Nat := (winEvpend s w).land (rdw s winEvmask w [])

/-- Code of a transport (WIN_BIND.TRANSPORT). -/
def transportCode : Transport → Nat
  | .none => 0 | .qspiA => 1 | .qspiB => 2 | .ethernet => 3 | .usb => 4

/-- WIN_BIND. -/
def winBindW (s : State) (w : Nat) : Nat :=
  let b := winBind s w
  place (transportCode b.transport) 31 28 + flag b.quad 27 + (if bound s w then b.rights.toNat.lor 1 else 0)

/-- WIN_DSP: seconds left of DSP_TMO rounded up, the pending request and the owner (R457). -/
def winDsp (s : State) : Nat :=
  let r := match s.hst.dspReq with
    | some (w, t) =>
      let e := t + 1000000 * rdf s hstHpcfg [] 15 0
      place ((e - s.now + 999999) / 1000000) 31 16 + 2 ^ 8 + place w.val 5 4
    | none => 0
  r + s.hst.owner.val

/-- The WIN page. -/
def roWin : List RoReg :=
  [roW 0 fun s w => 0x72400000 + place (variantCode s.variant) 11 8 + w,
   ro 4 fun _ => Config.serial.toNat % 2 ^ 32,
   ro 8 fun s => 0x72400000 + place (variantCode s.variant) 15 8 + Config.serial.toNat / 2 ^ 32,
   roW 0xC winBindW, roW 0x10 fun s w => resW (win s w).lastRes, roW 0x14 fun s w => (win s w).lastAddr.toNat,
   roW 0x18 winEvpend, ro 0x30 winDsp, wo 0x34, roW 0x38 fun s w => resW (win s w).dspRes]

/-- A QSPI port has carried a transaction within the last 100 ms. -/
def portActive (s : State) (t : Option Nat) : Bool :=
  match t with | some t => decide (s.now ≤ t + 100000) | none => false

/-- HST_STAT. -/
def hstStat (s : State) : Nat :=
  place (bitsOf 4 fun w => (win s w).conn) 31 28 + flag s.hst.usbCfg 27 + flag (portActive s s.hst.qUseB) 1 +
    flag (portActive s s.hst.qUseA) 0

/-- The HST page. -/
def roHst : List RoReg :=
  [ro 0x130000 hstStat, ro 0x130010 fun s => place s.hst.qCrcA 31 16 + place s.hst.qProtoA 15 0,
   ro 0x130014 fun s => place s.hst.qCrcB 31 16 + place s.hst.qProtoB 15 0, ro 0x130018 fun s => s.hst.usbErr,
   roN 0x131004 0x20 64 fun s r => flag (ring s r).overflow 31, roN 0x131008 0x20 64 fun s r => (ring s r).head.toNat,
   roN 0x13100C 0x20 64 fun s r => (ring s r).tail.toNat, roN 0x131010 0x20 64 fun s r => (ring s r).drop]

/-! ### KLN, EMB, CRD (chapters 2 and 3) -/

/-- The KLN page. -/
def roKln : List RoReg :=
  [ro 0x10000 fun _ => 0x72400100 + Config.dieMinor.toNat, wo 0x10010, ro 0x10014 klnHeld,
   ro 0x10020 fun s => s.kln.pviol, ro 0x10024 fun s => s.kln.pviolAddr.toNat, ro 0x10028 fun s => s.kln.pviolSrc.toNat,
   ro 0x10034 klnXovr, ro 0x10040 klnKcm,
   roNN 0x10080 8 6 4 2 fun s p i => klnRetained s p (i == 1)]

/-- SUB of EMB_MODE: CALIBRATE goes before FORCES ACTIVE. -/
def embSub (s : State) : Nat := if calActive s then 1 else if forcesActive s then 2 else 0

/-- EMB_MODE of a window. -/
def embModeW (s : State) (w : Nat) : Nat :=
  resW (win s w).reqRes + place s.emb.cause 23 16 + place (embSub s) 15 12 + place s.emb.prev.num 10 8 + s.emb.mode.num

/-- EMB_RECOV.REMAIN, rounded up. -/
def embRemain (s : State) : Nat :=
  match s.emb.recovAt with
  | some t => min 0xFFFF ((t - s.now + 999999) / 1000000)
  | none => 0

/-- The EMB page. -/
def roEmb : List RoReg :=
  [roW 0x20000 embModeW, wo 0x20004, wo 0x20008, ro 0x2000C embStatus, ro 0x20010 fun _ => 0xE0,
   ro 0x20014 fun s => s.emb.wakeSrc.toNat, ro 0x20024 fun s => place (embRemain s) 31 16,
   ro 0x20028 fun s => place (min 255 s.emb.holdup) 31 24 + place s.emb.vsup 15 0, ro 0x2002C fun s => s.emb.oph.toNat,
   ro 0x20030 fun s => place s.emb.pwc 23 0, ro 0x20034 fun s => place s.emb.pfailCnt 31 16 + place s.emb.glitch 15 0,
   roP 4 0x20040 8 4 fun s k => loW (tget {} s.emb.qdrw k).q, roP 4 0x20044 8 4 fun s k => hiW (tget {} s.emb.qdrw k).q]

/-- The CRD page. -/
def roCrd : List RoReg :=
  [ro 0x30000 crdStatus, wo 0x30004, ro 0x30010 crdResult, ro 0x30014 fun s => s.crd.codes.toNat,
   ro 0x30018 fun s => s.crd.running.seq, ro 0x3001C fun s => s.crd.previous.seq, ro 0x30020 crdIncId,
   ro 0x30024 fun s => s.crd.incoming.bytes.length]

/-! ### CHN and SWP (chapters 4 and 5) -/

/-- The CHN page. -/
def roChn : List RoReg :=
  [wo 0x40000, ro 0x40004 fun s => resW s.chn.res, ro 0x40008 chnPstat, roP 4 0x40108 0x40 4 chnLstat,
   roP 4 0x4010C 0x40 4 chnBrk, roP 4 0x40110 0x40 4 chnDly, roP 4 0x40114 0x40 4 fun s k => fld (lp s k).ts.toNat 31 0,
   roP 4 0x40118 0x40 4 fun s k => fld (lp s k).ts.toNat 63 32,
   roP 7 0x40400 8 8 fun s j => place (port s j).crc 31 16 + place (port s j).code 15 0,
   roP 7 0x40404 8 8 fun s j => place (port s j).tmo 31 16 + place (port s j).disc 15 0,
   roUnits 0x41000 0x100 4 8 32 fun s k p => fld (unitAt (lp s k) (p + 1)).uid.toNat 31 0,
   roUnits 0x41004 0x100 4 8 32 fun s k p => fld (unitAt (lp s k) (p + 1)).uid.toNat 63 32,
   roUnits 0x42000 0x80 4 4 32 fun s k p => place (unitAt (lp s k) (p + 1)).db 31 16 + place (unitAt (lp s k) (p + 1)).da 15 0]

/-- The SWP page. -/
def roSwp : List RoReg :=
  [wo 0x50000, ro 0x50004 fun s => resW s.chn.swpRes, roP 4 0x5011C 0x40 4 swpStat,
   roP 4 0x50120 0x40 4 fun s k => (lp s k).seq.toNat, roP 4 0x50124 0x40 4 fun s k => (lp s k).balQ.toNat,
   roUnits 0x52000 0x80 4 4 32 fun s k p => swpCflag s k (p + 1)]

/-! ### MEA and TRC (chapters 6 and 7) -/

/-- MEA_IFk. -/
def meaIf (s : State) (k : Nat) : Nat :=
  let m := mstr s k
  flag m.invalid 31 + flag m.ovr 30 + place m.latch.toNat 10 8 + m.flag.toNat

/-- MEA_IVk. -/
def meaIv (s : State) (k : Nat) : Nat := if (mstr s k).invalid then 0x80000000 else twos 32 (mstr s k).voted

/-- The MEA page. -/
def roMea : List RoReg :=
  [wo 0x60000, ro 0x60004 fun s => resW s.mea.res, ro 0x60008 fun s => twos 32 s.mea.injVal,
   ro 0x6000C fun s => place s.mea.injSaf 31 16 + place s.mea.injOther 15 0, ro 0x60010 meaStat, ro 0x60014 meaRot,
   ro 0x60018 fun s => place s.mea.restart 31 16 + place s.mea.rotSkip 15 0,
   ro 0x60020 fun s => bitsOf 25 fun i => (sliceOf s i).faulty,
   roN 0x60030 4 6 fun s i => ((List.range 4).map fun j => serving s (4 * i + j) * 256 ^ j).foldl (· + ·) 0,
   ro 0x60050 fun s => place s.mea.ovenOk.toNat 10 8 + place s.mea.excl.toNat 6 4,
   roN 0x60054 4 3 fun s x => place (refTimer s x) 31 16 + twos 16 (tget 0 s.mea.refDev x),
   roP 4 0x60100 0x10 4 meaIv, roP 4 0x60104 0x10 4 meaIf, roP 6 0x60200 4 24 fun s c => twos 32 (chan s c).word,
   roP 4 0x60410 4 4 meaIsor, roP 4 0x60420 4 4 fun s k => place (mstr s k).isoRp 31 16 + place (mstr s k).isoRn 15 0]

/-- A word of a list of bytes. -/
def byteWord (bs : List Byte) (i : Nat) : Nat := getLe bs (4 * i) 4

/-- The instance that a calibration entry belongs to (R5): a channel, or the string of a divider. -/
def entryPart (e : Nat) : Nat × Nat :=
  if e < 24 then (6, e) else if 30 ≤ e ∧ e ≤ 41 then (4, (e - 30) / 3) else (0, 0)

/-- The TRC page. -/
def roTrc : List RoReg :=
  [wo 0x70000, ro 0x70004 fun s => resW s.trc.res, ro 0x70008 trcStat, ro 0x7001C fun s => twos 32 s.trc.j5val,
   ro 0x70020 fun s => twos 32 s.trc.dev,
   ro 0x70024 fun s => place s.trc.verdict 31 30 + place s.trc.vEntry 29 24 + place s.trc.vU 23 0,
   ro 0x70028 fun s => bitsOf 32 fun e => (recBad s).contains e,
   ro 0x7002C fun s => bitsOf 12 fun e => (recBad s).contains (32 + e),
   { base := 0x71000, dims := [(128, 44), (4, 32)], part := fun ix => entryPart (ix.headD 0), val := fun s _ ix =>
      byteWord (CalRec.bytes (ix.headD 0) (calRec s (ix.headD 0))) (ix.getD 1 0) },
   roN 0x74000 4 180 certWord]

/-! ### EST and IMP (chapters 8 and 9) -/

/-- EST_SSTATk. -/
def estSstat (s : State) (k : Nat) : Nat :=
  flag (estr s k).gapSince.isSome 31 + flag (s.emb.mode == .drowse) 30 + place (estr s k).gapCnt 15 0

/-- The EST page. -/
def roEst : List RoReg :=
  [wo 0x80000, ro 0x80004 fun s => resW s.est.res,
   ro 0x80008 fun s => flag s.est.nvDefer 31 + flag s.est.flushing 30 + place (dirtyKb s) 15 0,
   ro 0x8000C fun s => place s.est.deferCnt 31 16 + place s.est.torn 15 0,
   roP 8 0x80100 0x40 4 fun s k => loW (estr s k).q, roP 8 0x80104 0x40 4 fun s k => hiW (estr s k).q,
   roP 8 0x80108 0x40 4 fun s k => loW (estr s k).eChg, roP 8 0x8010C 0x40 4 fun s k => hiW (estr s k).eChg,
   roP 8 0x80110 0x40 4 fun s k => loW (estr s k).eDis, roP 8 0x80114 0x40 4 fun s k => hiW (estr s k).eDis,
   roP 8 0x80118 0x40 4 fun s k => (estr s k).d / 1000000 % 2 ^ 32, roP 8 0x8011C 0x40 4 estSstat,
   roP 8 0x80120 0x40 4 fun s k => (estr s k).gapDur % 2 ^ 32, roP 8 0x80138 0x40 4 fun s k => (estr s k).seed.toNat]

/-- IMP_TZQ byte of a cell: RANGE and STALE (R261). -/
def tzq (s : State) (n : Nat) : Nat :=
  flag (cell s n).tzRange 0 +
    flag (decide (s.now > (cell s n).tzAt + 3000000 * rdf s impTz [n / 512] 31 20)) 1

/-- The IMP page. -/
def roImp : List RoReg :=
  [wo 0x90000, ro 0x90004 fun s => resW s.imp.res, roP 4 0x90100 0x40 4 impStat,
   roP 4 0x90120 0x40 4 fun s k => twos 32 (imps s k).ire, roP 4 0x90124 0x40 4 fun s k => twos 32 (imps s k).iim,
   roP 4 0x90128 0x40 4 fun s k => place (imps s k).rej 31 16 + place (imps s k).skipCnt 15 0,
   roP 4 0x9012C 0x40 4 fun s k => (imps s k).xmis.toNat,
   { base := 0x98000, dims := [(4, 1024)], part := fun ix => (4, ix.headD 0 / 256), val := fun s _ ix =>
      let i := ix.headD 0
      twos 16 (tzNow s (2 * i + 1)) * 65536 + twos 16 (tzNow s (2 * i)) },
   { base := 0x99000, dims := [(4, 512)], part := fun ix => (4, ix.headD 0 / 128), val := fun s _ ix =>
      ((List.range 4).map fun j => tzq s (4 * ix.headD 0 + j) * 256 ^ j).foldl (· + ·) 0 }]

/-! ### CTL, HRP and THM (chapters 10 and 11) -/

/-- CTL_ILIMEk: I_LIMC_E and I_LIMD_E in 100 mA. -/
def ctlIlimE (s : State) (k : Nat) : Nat := let (c, d) := effLimits s k; place (c / 100) 31 16 + place (d / 100) 15 0

/-- The CTL page. -/
def roCtl : List RoReg :=
  [wo 0xA0000, ro 0xA0004 fun s => resW s.ctl.res, ro 0xA0008 fun s => flag s.ctl.internal 31 + ctlLoad s, wo 0xA0010,
   wo 0xA0014, roP 10 0xA011C 0x40 4 cvStat, roP 10 0xA0120 0x40 4 fun s k => twos 32 (conv s k).r,
   roP 10 0xA0124 0x40 4 fun s k => twos 32 (conv s k).iSel, roP 10 0xA0128 0x40 4 fun s k => twos 32 (conv s k).iSet,
   roP 10 0xA012C 0x40 4 ctlIlimE, roP 33 0xA0214 0x20 4 genStat, roP 34 0xA0318 0x20 4 capStat,
   roP 32 0xA100C 0x40 64 ctxStat, roP 32 0xA1010 0x40 64 fun s n => twos 32 (ctx s n).y, roP 32 0xA1014 0x40 64 fun s n => loW (ctx s n).i,
   roP 32 0xA1018 0x40 64 fun s n => hiW (ctx s n).i,
   roP 32 0xA101C 0x40 64 fun s n => place (ctx s n).maxLat 31 16 + place (ctx s n).late 15 0]

/-- The HRP page. -/
def roHrp : List RoReg :=
  [ro 0xB0000 hrpStat, roP 11 0xB0114 0x20 16 fun s j => (pwm s j).duty % 2 ^ 31,
   roP 11 0xB011C 0x20 16 fun s j => place (pwm s j).late 31 16 + place (pwm s j).minp 15 0]

/-- The THM page. -/
def roThm : List RoReg :=
  [ro 0xC0000 thmStat, ro 0xC0030 fun s => twos 16 s.thm.board,
   roP 36 0xC0040 4 8 fun s j => flag (tget false s.thm.thFault j) 16 + twos 16 (tget noTemp s.thm.th j),
   roP 4 0xC0100 0x20 4 thmStrView,
   roP 4 0xC0104 0x20 4 fun s k => twos 16 (thmStr s k).tMin * 65536 + twos 16 (thmStr s k).rate,
   roP 4 0xC0108 0x20 4 fun s k => place (thmStr s k).derD 31 16 + place (thmStr s k).derC 15 0,
   roP 4 0xC010C 0x20 4 fun s k => place (thmStr s k).cool 15 8 + place (thmStr s k).heat 7 0,
   roUnits 0xC1000 0x80 4 4 32 fun s k p =>
     flag (tget false s.thm.unitBlind (32 * k + p)) 31 + flag (tget false s.thm.unitExcl (32 * k + p)) 30 +
       twos 16 (tUnit s k (p + 1)),
   { base := 0xC8000, dims := [(4, 1024)], part := fun ix => (4, ix.headD 0 / 256), val := fun s _ ix =>
      let i := ix.headD 0
      twos 16 (tget noTemp s.thm.tCell (2 * i + 1)) * 65536 + twos 16 (tget noTemp s.thm.tCell (2 * i)) }]

/-! ### SAF (chapter 12) -/

/-- SAF_DEGR: seconds left of LANE_DEG_MAX. -/
def safDegr (s : State) : Nat :=
  match s.saf.degrOph with
  | some t => (t + 3600 * (safB s).laneDegMaxH - s.emb.oph.toNat) % 2 ^ 32
  | none => 0

/-- Positions of loop k's summaries for which f holds. -/
def summBits (s : State) (k : Nat) (f : Summ → Bool) : Nat := bitsOf 32 fun p => f (summ s k (p + 1))

/-- The SAF page; the parameter image of R326 is `Config`'s function of the Safety billet. -/
def roSaf : List RoReg :=
  [wo 0xD0000, ro 0xD0004 fun s => resW s.saf.res, ro 0xD0008 safStat, ro 0xD000C fun s => s.saf.latch.toNat,
   ro 0xD0010 fun s => s.saf.dem.toNat, ro 0xD0014 safFcause,
   roN 0xD0020 4 3 fun s i => place (lane s i).state 31 28 + place (lane s i).cause 27 24 + place (lane s i).disag 15 0,
   ro 0xD002C safDegr, roN 0xD0100 4 8 safSi, roN 0xD0200 4 16 safSo,
   ro 0xD0280 fun s => place s.saf.sgFlt.toNat 7 4 + s.saf.sgClosed.toNat, ro 0xD0284 fun s => place s.saf.slPlus 15 0,
   roP 4 0xD0300 0x10 4 safCt, roP 4 0xD0304 0x10 4 fun s k => twos 32 (ctr s k).v0,
   roP 4 0xD0308 0x10 4 fun s k => twos 32 (ctr s k).v1, roP 4 0xD030C 0x10 4 fun s k => twos 32 (ctr s k).v2,
   roP 4 0xD0400 0x10 4 fun s k => summBits s k (·.lost), roP 4 0xD0404 0x10 4 fun s k => summBits s k (·.ov),
   roP 4 0xD0408 0x10 4 fun s k => summBits s k (·.uv), roP 4 0xD040C 0x10 4 fun s k => summBits s k (·.ot),
   ro 0xD0500 fun s => place s.saf.ocSeen.toNat 27 16 + s.saf.ocTrip.toNat,
   roN 0xD0600 0x10 16 fun s c => place (sconn s c).state 31 29 + flag (connOf s c).required 28 + place (sconn s c).seq 15 0,
   roN 0xD0604 0x10 16 fun s c => place (sconn s c).acc 31 16 + place (sconn s c).disc 15 0,
   roNN 0xD0800 0x20 16 4 6 fun s c i => byteWord (padTo 24 ((sconn s c).data.take (connOf s c).dlen)) i,
   roN 0xD1000 4 1024 fun s i => (Config.safParam (safB s) i).toNat]

/-! ### LGC and FIO (chapters 13 and 14) -/

/-- LGC_TCFGt.ERR. -/
def lgcErr (s : State) (t : Nat) : Nat := match imgOf s t with | some i => flag i.errorTask 30 | none => 0

/-- The LGC page. -/
def roLgc : List RoReg :=
  [wo 0xE0000, ro 0xE0004 fun s => resW s.lgc.res + place s.lgc.entry 7 0, ro 0xE0008 lgcStat,
   ro 0xE0018 fun s => fld s.lgc.time 31 0, ro 0xE001C fun s => fld s.lgc.time 63 32, ro 0xE0020 lgcOlc,
   ro 0xE0024 lgcNv, roP 14 0xE0100 0x20 16 lgcErr, roP 14 0xE010C 0x20 16 lgcTstat, roP 14 0xE0110 0x20 16 lgcTtime,
   roP 14 0xE0114 0x20 16 fun s t => (task s t).cycles.toNat, roP 35 0xE0408 0x10 16 lgcStnstat,
   roP 35 0xE040C 0x10 16 lgcStncnt,
   roNN 0xE4000 16 256 4 4 lgcFtab]

/-- The FIO page. -/
def roFio : List RoReg :=
  [wo 0xF0000, ro 0xF0004 fun s => resW s.fio.res, ro 0xF0008 fioStat, ro 0xF0010 fioFiraw,
   ro 0xF0014 fun s => s.lgc.fi.toNat, ro 0xF0018 fioFq, ro 0xF001C fioOstat, ro 0xF0028 fioLerr,
   ro 0xF002C fun s => place s.fio.vfl 15 0]

/-! ### CAN, NET and TIM (chapters 15 and 16) -/

/-- The CAN page. -/
def roCan : List RoReg :=
  [roP 16 0x100000 0x4000 3 fun _ _ => 0, roP 16 0x100004 0x4000 3 fun s c => resW (can s c).res,
   roP 16 0x100014 0x4000 3 fun s c => place (can s c).tdcv 15 8, roP 16 0x100018 0x4000 3 canStat,
   roP 16 0x10001C 0x4000 3 canEcnt, roP 16 0x100020 0x4000 3 fun s c => place (can s c).boff 31 16 + place (can s c).passive 15 0,
   roP 16 0x100024 0x4000 3 canAbd, ro 0x108028 fun _ => 0, ro 0x10802C fun _ => 0, roP 16 0x100040 0x4000 3 fun _ _ => 0,
   { roNN 0x100044 0x4000 3 4 2 canMbst with part := fun ix => (16, ix.headD 0) },
   roP 16 0x100050 0x4000 3 canHpb, roP 16 0x100054 0x4000 3 canHpovr,
   roP 16 0x100058 0x4000 3 fun s c => (can s c).rxCnt.toNat,
   roP 16 0x10005C 0x4000 3 fun s c => place (can s c).txCnt 31 16 + place (can s c).bad 15 0,
   { base := 0x101000, dims := [(0x4000, 3), (0x100, 4), (0x80, 2), (4, 20)], part := fun ix => (16, ix.headD 0)
     val := fun s _ ix =>
      canHpbWord s (ix.headD 0) (ix.getD 1 0) (ix.getD 2 0 == 1) (ix.getD 3 0) }]

/-- The NET page. -/
def roNet : List RoReg :=
  [wo 0x110000, ro 0x110004 fun s => resW s.tim.netRes, roN 0x110010 4 2 netPstat,
   ro 0x110020 fun _ => Config.mac.toNat % 2 ^ 32, ro 0x110024 fun _ => Config.mac.toNat / 2 ^ 32,
   roN 0x110040 8 3 fun s p => place (netPort s p).rx 31 16 + place (netPort s p).drop 15 0]

/-- TIM_OFS and TIM_XOFSp saturate. -/
def ofsW (x : Int) : Nat := twos 32 (satS 32 x)

/-- The TIM page. -/
def roTim : List RoReg :=
  [ro 0x120000 timStat, ro 0x120004 fun s => resW s.tim.res, ro 0x120008 fun s => fld s.tim.now.toNat 31 0,
   ro 0x12000C fun s => fld s.tim.now.toNat 63 32, ro 0x120010 fun s => ofsW s.tim.ofs,
   ro 0x120014 fun s => if s.tim.refused then loW s.tim.pend else 0,
   ro 0x120018 fun s => if s.tim.refused then hiW s.tim.pend else 0, wo 0x12001C, roN 0x120040 8 2 timPdly,
   roN 0x120044 8 2 fun s p => ofsW (netPort s p).xofs, wo 0x120100,
   roW 0x120104 fun s w => resW (win s w).sRes + place (win s w).sEntry 7 0, ro 0x12010C fun s => s.tim.sched.length,
   roNN 0x121000 16 256 4 4 timStab]

/-! ### REC, PAR, UPD and PNL (chapters 18 to 21) -/

/-- The REC page. -/
def roRec : List RoReg :=
  [wo 0x140000, ro 0x140004 fun s => resW s.recd.res, ro 0x140008 recStat, ro 0x140010 fun s => s.recd.seqNext.toNat,
   ro 0x140014 recOldest, ro 0x140018 fun s => (storeRecs s.recd).length, ro 0x14001C recShigh,
   roN 0x140020 4 7 fun s v => tget 0 s.recd.drops v, ro 0x140040 fun s => s.recd.sdrop, ro 0x140044 recAud,
   ro 0x140048 recArch, ro 0x14004C fun s => s.recd.archMiss, ro 0x140050 recSbase,
   ro 0x140060 fun s => s.recd.liveCur.toNat, roW 0x140104 recRdstat,
   { base := 0x140140, dims := [(4, 16)], val := fun s w ix => recRddata s w (ix.headD 0) },
   roN 0x148000 4 4096 fun _ i => (Config.codeTable i).toNat]

/-- The PAR page. -/
def roPar : List RoReg :=
  [wo 0x150000, ro 0x150004 fun s => resW s.par.res, ro 0x150008 parStat, ro 0x150014 fun s => s.par.term.toNat,
   ro 0x150018 parSilent, ro 0x15001C fun s => place s.par.take 31 16 + place s.par.loss 15 0,
   ro 0x150020 fun s => place s.par.crc 31 16 + place s.par.foreign 15 0, ro 0x150024 fun s => s.par.heldOph.toNat,
   ro 0x150028 fun s => s.par.untested.toNat]

/-- The UPD page. -/
def roUpd : List RoReg :=
  [wo 0x160000, ro 0x160004 fun s => resW s.upd.res, wo 0x160008, ro 0x16000C updStat, ro 0x160018 updCleft,
   ro 0x16001C updSess, ro 0x160020 fun s => s.upd.rxSeq.toNat, ro 0x160024 updTxcnt, ro 0x160028 updErr,
   ro 0x16002C updKeyst]

/-- The PNL page. -/
def roPnl : List RoReg :=
  [ro 0x170000 pnlStat, ro 0x170020 pnlLed, ro 0x170024 pnlEj, ro 0x170028 pnlCnt]

/-- The module's registers of a page. -/
def roPage (p : Nat) : List RoReg :=
  match p with
  | 0x00 => roWin | 0x01 => roKln | 0x02 => roEmb | 0x03 => roCrd | 0x04 => roChn | 0x05 => roSwp | 0x06 => roMea
  | 0x07 => roTrc | 0x08 => roEst | 0x09 => roImp | 0x0A => roCtl | 0x0B => roHrp | 0x0C => roThm | 0x0D => roSaf
  | 0x0E => roLgc | 0x0F => roFio | 0x10 => roCan | 0x11 => roNet | 0x12 => roTim | 0x13 => roHst | 0x14 => roRec
  | 0x15 => roPar | 0x16 => roUpd | 0x17 => roPnl | _ => []

/-- The host's registers of a page. -/
def famPage (p : Nat) : List RegFam := allFams.filter fun f => f.base / 0x10000 == p

/-- LO words whose read latches the HI word 4 bytes above (R77): base, stride and count. -/
def latchPairs : List (Nat × Nat × Nat) :=
  [(0x20040, 8, 4), (0x40114, 0x40, 4), (0x80100, 0x40, 4), (0x80108, 0x40, 4), (0x80110, 0x40, 4), (0xA1014, 0x40, 64),
   (0xE0018, 4, 1), (0x120008, 4, 1), (0x120014, 4, 1)]

/-- True for the LO word of such a pair. -/
def isLo (a : Nat) : Bool :=
  latchPairs.any fun (b, st, n) => decide (b ≤ a) && (a - b) % st == 0 && decide ((a - b) / st < n)

end Sys2Proof.Machine
end

