-- ==== Sys2Proof/Machine/Fabric.lean ====
section
/-!
DEFINITION. The register fabric (R10 to R14, R35, R38, R45, R46, R77, R94 to R101, R439, R441): one word written or
read through a window, whatever brought the request. A write of a command register is the command.
-/

namespace Sys2Proof.Machine

/-- The instance of a strided register at an address. -/
def idxAt (a base stride n : Nat) : Option Nat :=
  if decide (base ≤ a) && (a - base) % stride == 0 && decide ((a - base) / stride < n) then some ((a - base) / stride) else none

/-- A request on one register: the code it ends with and the state it leaves. -/
abbrev Req := State → Code × State

/-- An OP that the table does not list: RANGE, behind the codes of the right given. -/
def badOp (right : State → Bool) (res : Code → State → State) : Req := cmdReq right res (refuse .range)

/-- A signed 32-bit reading that a bare register write does not carry: a free value. -/
def freeReading (s : State) : Int × State := let (v, s) := drawFree s; (sgn 32 v, s)

/-! ### Command registers, block by block -/

/-- KLN_XOVR_SEL and KLN_COMMIT. -/
def cmdKln (w : Win) (a v : Nat) : Option Req :=
  match a with
  | 0x10010 => some (cmdReq (rightOne w rCfg) noRes (opKlnCommit v))
  | 0x10030 => some (cmdReq (rightOne w rCfg) noRes (opXovr v))
  | _ => none

/-- EMB_MODE_REQ, EMB_ACK and EMB_WAKE_SRC. -/
def cmdEmb (w : Win) (a v : Nat) : Option Req :=
  match a with
  | 0x20004 => some (opModeReq w (fld v 2 0))
  | 0x20008 => some (cmdReq (embAckRight w v) noRes (opEmbAck w v))
  | 0x20014 => some (cmdReq (rightOne w rCfg) noRes fun s =>
      okCmd (modEmb s fun e => { e with wakeSrc := e.wakeSrc &&& ~~~ BitVec.ofNat 8 v }))
  | _ => none

/-- CRD_CMD. -/
def cmdCrd (w : Win) (a v : Nat) : Option Req :=
  if a ≠ 0x30004 then none
  else some (crdReq w (match fld v 3 0 with
    | 1 => opEraseIncoming | 2 => opWriteBlock | 3 => opVerifyIncoming | 4 => opCrdActivate | 5 => opRevert
    | 6 => opVerifyRunning | _ => refuse .range))

/-- CHN_CMD, and ALM_SEEN of CHN_LSTATk. -/
def cmdChn (w : Win) (a v : Nat) : Option Req :=
  let k := fld v 9 8
  if a = 0x40000 then
    some (match fld v 3 0 with
      | 1 => cmdReq (chnRight w 1) (busyRes chnRes) (opEnumerate k)
      | 2 => cmdReq (chnRight w 2) (busyRes chnRes) (opLocate k)
      | 3 => cmdReq (chnRight w 3) (busyRes chnRes) (opEchoRefresh k)
      | 4 => cmdReq (chnRight w 4) chnRes (opChnClear k)
      | _ => badOp (rightOne w rMaint) chnRes)
  else match idxAt a 0x40108 0x40 4 with
    | some k => some (cmdReq (rightOne w rCfg) noRes fun s =>
        okCmd (if bitN v 27 && present s 4 k then modLp s k fun l => { l with almSeen := false } else s))
    | none => none

/-- SWP_CMD, and CELL_FAULT of SWP_CFLAGk,p. -/
def cmdSwp (w : Win) (a v : Nat) : Option Req :=
  let k := fld v 9 8
  if a = 0x50000 then
    some (match fld v 3 0 with
      | 1 => cmdReq (swpRight w) (busyRes swpRes) (opOwRun k (fld v 15 10))
      | 2 => cmdReq (swpRight w) swpRes (opBalHalt k)
      | 3 => cmdReq (swpRight w) swpRes (opBalResume k)
      | _ => badOp (swpRight w) swpRes)
  else match idxAt a 0x52000 4 128 with
    | some i => some (cmdReq (rightOne w rMaint) noRes fun s =>
        okCmd (if present s 4 (i / 32) && decide (fld v 15 0 ≠ 0) then clrFault s (i / 32) (i % 32 + 1) (fld v 15 0) else s))
    | none => none

/-- MEA_CMD, and LATCH of MEA_IFk. -/
def cmdMea (w : Win) (a v : Nat) : Option Req :=
  let k := fld v 9 8
  if a = 0x60000 then
    some (match fld v 3 0 with
      | 1 => cmdReq (meaRight w) meaRes opRotHalt
      | 2 => cmdReq (meaRight w) meaRes opRotResume
      | 3 => injectReq w k (fld v 13 12)
      | 4 => cmdReq (meaRight w) meaRes (opIsoNow k)
      | _ => badOp (meaRight w) meaRes)
  else match idxAt a 0x60104 0x10 4 with
    | some k => some (cmdReq (meaRight w) noRes fun s => okCmd (if strOk s k then clearIfLatch s k v else s))
    | none => none

/-- A TRC_CMD with an ENTRY above 43: RANGE, unless a code that goes before it applies. -/
def badEntry (f : Req) (s : State) : Code × State :=
  let c := (f s).1
  (if c = .notPresent ∨ c = .refusedMode ∨ c = .frozen then c else .range, s)

/-- TRC_CMD. What J5 reads is not in the write, so REF_ADJUST takes free readings. -/
def cmdTrc (w : Win) (a v : Nat) : Option Req :=
  let e := fld v 13 8
  if a ≠ 0x70000 then none
  else
    let run (f : Req) : Option Req :=
      some fun s => acceptBusy (cmdReq (trcRight w) trcRes (if e ≥ 44 then badEntry f else f) s)
    match fld v 3 0 with
    | 1 => run (opTrcEnter w)
    | 2 => if e ≥ 44 then run (opTrcLeave w) else some (leaveReq w)
    | 3 => run (opTrcVerify w e)
    | 4 => run (opTrcAdjust w e)
    | 5 => run (opTrcZero w e)
    | 6 => run fun s => let (j, s) := freeReading s; let (u, s) := freeReading s; opTrcRefAdjust w e j u s
    | 7 => run (opTrcRefReadmit w e)
    | _ => some (badOp (trcRight w) trcRes)

/-- EST_CMD. -/
def cmdEst (w : Win) (a v : Nat) : Option Req :=
  if a ≠ 0x80000 then none
  else some (match fld v 3 0 with
    | 1 => cmdReq (estRight w) estRes (opResetCells (fld v 31 21) (fld v 20 9))
    | 2 => cmdReq (estRight w) estRes (opAcceptAll (fld v 31 21) (fld v 20 9))
    | 3 => cmdReq (rightAny w rMaint rCfg) estRes opEstFlush
    | _ => badOp (rightAny w rMaint rCfg) estRes)

/-- IMP_CMD. -/
def cmdImp (w : Win) (a v : Nat) : Option Req :=
  let k := fld v 9 8
  if a ≠ 0x90000 then none
  else some (match fld v 3 0 with
    | 1 => cmdReq (impRight w) impRes (opImpStart k)
    | 2 => cmdReq (impRight w) impRes (opImpStop k)
    | 3 => cmdReq (impRight w) impRes (opTzNow k)
    | 4 => cmdReq (impRight w) impRes (opImpPause k)
    | 5 => cmdReq (impRight w) impRes (opImpResume k)
    | _ => badOp (impRight w) impRes)

/-- CTL_CMD. -/
def ctlCmd (w : Win) (v : Nat) : Req :=
  let k := fld v 17 16
  match fld v 3 0 with
  | 1 => cmdReq (ctlRight w) ctlRes (opConvRun k)
  | 2 => cmdReq (ctlRight w) ctlRes (opConvPark k)
  | 3 => cmdReq (ctlRight w) ctlRes (opGenStart k)
  | 4 => cmdReq (ctlRight w) ctlRes (opGenStop k)
  | 5 => cmdReq (ctlRight w) ctlRes (opCapArm k)
  | 6 => cmdReq (ctlRight w) ctlRes (opCapStop k)
  | 7 => cmdReq (ctlRight w) ctlRes (opCapForce k)
  | 8 => cmdReq (ctlRight w) ctlRes opClrLat
  | _ => badOp (ctlRight w) ctlRes

/-- SAF_ACK: the parts that the word names; where one of them is refused, nothing is done, and the code is the first of
those that apply in the order of R14. The POINT 2 reading of R348 is a free value. -/
def opSafAck (w : Win) (v : Nat) (s : State) : Code × State :=
  let weld : List Req := ((List.range 4).filter fun k => bitN v (8 + k)).map fun k s =>
    let (mv, s) := freeReading s
    opWeldAck k mv s
  let parts : List Req := (if bitN v 0 then [safeAck (BitVec.ofNat 8 w)] else []) ++
    (if bitN v 1 then [opOutfAck] else []) ++ weld
  let c := reported (parts.map fun f => ((f s).1, none))
  if c = .ok then (parts.foldl (fun r f => if r.1 = .ok then f r.2 else r) (okCmd s))
  else match parts with
    | [f] => f s
    | _ => (c, s)

/-- SAF_ACK; every other write to the page needs its right and has no effect (chapter 12). -/
def cmdSaf (w : Win) (a v : Nat) : Option Req :=
  if a = 0xD0000 then some (cmdReq (safRight w) safRes (opSafAck w v))
  else if a / 0x10000 = 0xD then some (cmdReq (safRight w) noRes okCmd)
  else none

/-- LGC_CMD. -/
def cmdLgc (w : Win) (a v : Nat) : Option Req :=
  if a ≠ 0xE0000 then none
  else some (match fld v 3 0 with
    | 1 => cmdReq (lgcRight w 1) lgcRes opForceSet
    | 2 => cmdReq (lgcRight w 2) lgcRes (opForceClr (fld v 23 16))
    | 3 => cmdReq (lgcRight w 3) lgcRes opForceClrAll
    | 4 => olcReq w
    | 5 => cmdReq (lgcRight w 5) lgcRes opLgcClrCnt
    | _ => badOp (rightOne w rCfg) lgcRes)

/-- FIO_CMD, and EDGE_LOST of FIO_STAT. -/
def cmdFio (w : Win) (a v : Nat) : Option Req :=
  match a with
  | 0xF0000 => some (match fld v 3 0 with
      | 1 => cmdReq (fioRight w) fioRes opFltAck
      | 2 => cmdReq (fioRight w) fioRes (opOvlAck (fld v 23 8))
      | 3 => cmdReq (fioRight w) fioRes opFioClrCnt
      | _ => badOp (fioRight w) fioRes)
  | 0xF0008 => some (cmdReq (rightOne w rCfg) noRes fun s => okCmd (fioStatClr s v))
  | _ => none

/-- CAN_CMD, CAN_TXREQ, CAN_HPB and the mailbox records. -/
def cmdCan (w : Win) (a v : Nat) : Option Req :=
  let c := (a - 0x100000) / 0x4000
  let off := a % 0x4000
  if a < 0x100000 ∨ c ≥ 3 then none
  else if off = 0 then some (match fld v 3 0 with
    | 1 => cmdReq (canRight w) (canRes c) (opCanRecover c)
    | 2 => cmdReq (canRight w) (canRes c) (opCanAbort c (fld v 31 16))
    | 3 => cmdReq (canRight w) (canRes c) (opAbdStart c)
    | 4 => cmdReq (canRight w) (canRes c) (opCanClrCnt c)
    | _ => badOp (canRight w) (canRes c))
  else if off = 0x40 then some (cmdReq (canRight w) (canRes c) (opCanTxreq c (fld v 15 0)))
  else if off = 0x50 then some (cmdReq (canRight w) noRes fun s => okCmd (hpbClear (Fin.ofNat 3 c) (fld v 3 0) s))
  else match canMbx.ixAt a with
    | some ix => some (cmdReq (canRight w) noRes (opMailbox (ix.headD 0) (ix.getD 1 0) (ix.getD 2 0) (wd v)))
    | none => none

/-- NET_CMD. -/
def cmdNet (w : Win) (a v : Nat) : Option Req :=
  if a ≠ 0x110000 then none
  else some (match fld v 3 0 with
    | 1 => cmdReq (rightOne w rCfg) netRes opNetClrCnt
    | 2 => cmdReq (rightOne w rCfg) netRes opFlushFdb
    | _ => badOp (rightOne w rCfg) netRes)

/-- TIM_ACCEPT_STEP and TIM_SCMD. -/
def cmdTim (w : Win) (a v : Nat) : Option Req :=
  match a with
  | 0x12001C => some (cmdReq (rightOne w rTime) timRes (opAcceptStep w (bitN v 0)))
  | 0x120100 => some (match fld v 3 0 with
      | 1 => cmdReq (rightOne w rRead) (schedRes w) (opSchedAdd w)
      | 2 => cmdReq (rightOne w rRead) (schedRes w) (opSchedCancel w (fld v 15 8))
      | 3 => cmdReq (rightOne w rRead) (schedRes w) (opSchedCancelAll w)
      | _ => badOp (rightOne w rRead) (schedRes w))
  | _ => none

/-- REC_CMD, the live cursor and a window's cursor. -/
def cmdRec (w : Win) (a v : Nat) : Option Req :=
  match a with
  | 0x140000 => some (match fld v 3 0 with
      | 1 => recFlushReq w
      | 2 => audArchiveReq w
      | 3 => cmdReq (recRight w 3) recRes (opAudRelease w)
      | 4 => cmdReq (recRight w 4) recRes opRecClrCnt
      | _ => badOp (recRight w 0) recRes)
  | 0x140060 => some (cmdReq (rightOne w rCfg) noRes fun s => okCmd (modRec s fun r => { r with liveCur := wd v }))
  | 0x140100 => some (cmdReq (rightOne w rRead) noRes (opCursor w (wd v)))
  | _ => none

/-- PAR_CMD. -/
def cmdPar (w : Win) (a v : Nat) : Option Req :=
  if a ≠ 0x150000 then none
  else some (match fld v 3 0 with
    | 1 => swapReq w
    | 2 => cmdReq (parRight w) parRes opParClrCnt
    | _ => badOp (parRight w) parRes)

/-- UPD_CMD and UPD_HEALTH_OK. -/
def cmdUpd (w : Win) (a v : Nat) : Option Req :=
  match a with
  | 0x160000 => some (match fld v 3 0 with
      | 1 => updReq w (opSend (fld v 31 16) (bitN v 6) (fld v 5 4))
      | 2 => updReq w opUpdAbort
      | 3 => updReq w opUpdActivate
      | 4 => updReq w (opKey true)
      | 5 => updReq w (opKey false)
      | _ => badOp (updRight w) updRes)
  | 0x160008 => some (cmdReq (updRight w) noRes (opHealth (bitN v 0)))
  | _ => none

/-! ### Dispatch ownership (R456 to R458) -/

/-- WIN_DSPRES of a window. -/
def dspRes (s : State) (w : Nat) (c : Code) : State := modWin s w fun x => { x with dspRes := c }

/-- End of the pending request's time in µs. -/
def dspEnd (s : State) (t : Nat) : Nat := t + 1000000 * rdf s hstHpcfg [] 15 0

/-- DSP_TMO has run out: the requester reads EXPIRED. -/
def dspExpire (s : State) : State :=
  match s.hst.dspReq with
  | some (r, t) =>
    if s.now ≥ dspEnd s t then dspRes { s with hst := { s.hst with dspReq := none } } r .expired else s
  | none => s

/-- REQUEST. -/
def dspRequest (w : Win) (s : State) : Code × State :=
  if !hasRight s w rDsp then (.refusedRights, s)
  else if isOwner s w then (.ok, s)
  else if s.hst.dspReq.isSome then (.busy, s)
  else (.ok, winEvent { s with hst := { s.hst with dspReq := some (w, s.now) } } s.hst.owner 7 w)

/-- ACCEPT. -/
def dspAccept (w : Win) (s : State) : Code × State :=
  match s.hst.dspReq with
  | none => (if isOwner s w then .expired else .refusedRights, s)
  | some (r, _) =>
    if !isOwner s w then (.refusedRights, s)
    else
      let s := dspRes { s with hst := { s.hst with owner := r, dspReq := none } } r .ok
      let s := winEvent (winEvent s w 7 r) r 7 r
      (.ok, stage s .dspOwner 0x13 sevNotice [BitVec.ofNat 8 w, BitVec.ofNat 8 r])

/-- DECLINE. -/
def dspDecline (w : Win) (s : State) : Code × State :=
  match s.hst.dspReq with
  | none => (if isOwner s w then .expired else .refusedRights, s)
  | some (r, _) =>
    if !isOwner s w then (.refusedRights, s)
    else
      let s := dspRes { s with hst := { s.hst with dspReq := none } } r .refusedRights
      (.ok, winEvent s r 7 r)

/-- A write of WIN_DSPCMD: an expired request goes first; WIN_DSPRES reads the outcome, BUSY for the request that waits. -/
def opDspCmd (w : Win) (op : Nat) (s : State) : Code × State :=
  let s := dspExpire s
  let (c, t) := match op with
    | 1 => dspRequest w s
    | 2 => dspAccept w s
    | 3 => dspDecline w s
    | _ => (.range, s)
  let waits := op == 1 && c == .ok && !isOwner s w
  (c, dspRes t w (if waits then .busy else c))

/-! ### Windows and rings -/

/-- The index of the host side of a ring, written by the window it is bound to (R48, R453). A STOP ring that the consumer
has drained to empty leaves OVERFLOW (R52); an alarm ring then takes RESYNC (R169). -/
def opRingIndex (w : Win) (r : Nat) (isTail : Bool) (v : Word) (s : State) : Code × State :=
  let g := ring s r
  let mine := ringWin s r == some w.val && (ringHost s r == !isTail)
  let bad := if isTail then decide ((v - g.tail).toNat > ringFill g) else decide ((v - g.tail).toNat > ringDepth s r)
  ifOk (firstCode [when_ (!mine) .refusedRights, rng (!bad)]) s fun s =>
    let t := modRing s r fun g =>
      if isTail then { g with tail := v, overflow := g.overflow && g.head != v } else { g with head := v }
    okCmd (if g.overflow && !(ring t r).overflow && inR r 20 23 then resync t (r - 20) else t)

/-- WIN_EVPEND, WIN_DSPCMD and the ring indices; every window holds the read right that they need. -/
def cmdHst (w : Win) (a v : Nat) : Option Req :=
  match a with
  | 0x18 => some fun s => okCmd (modWin s w fun x =>
      let ev := x.ev &&& ~~~ wd (v.land (mask 27 4))
      { x with ev := ev, evSent := x.evSent &&& ev })
  | 0x34 => some (opDspCmd w (fld v 3 0))
  | _ =>
    match idxAt a 0x131008 0x20 64, idxAt a 0x13100C 0x20 64 with
    | some r, _ => some (opRingIndex w r false (wd v))
    | _, some r => some (opRingIndex w r true (wd v))
    | none, none => none

/-! ### CTL registers with rules of their own -/

/-- A whole-word write of CTL_CVMODEk: FORCE where it changes, under its own rights, and the rest under the configure
right (R282, R439). -/
def opCvmode (w : Win) (k v : Nat) (plain : Req) (s : State) : Code × State :=
  let old := rdPending s ctlCvmode 0 [k]
  let f := fld v 31 30
  let forced := f != fld old 31 30
  let rest := (v.land (mask 29 27 + mask 23 16)) != (old.land (mask 29 27 + mask 23 16))
  let none_ := !forced && !rest && !hasRight s w rCfg && !isOwner s w && !(f == 1 && hasRight s w rMaint)
  if (forced && f != 3 && !forceRight w f s) || (rest && !hasRight s w rCfg) || none_ then (.refusedRights, s)
  else if !present s 10 k then okCmd s
  else ifOk (when_ (forced && f == 1 && s.emb.mode != .maintenance) .refusedMode) s fun s =>
    let (c, t) := plain s
    if c = .ok ∧ forced then (c, modConv t k fun x => { x with forceNew := true }) else (c, t)

/-- The registers of CTL that are commands, or follow R280, R282, R290 or R291. -/
def cmdCtl (w : Win) (a v : Nat) : Option Req :=
  match a with
  | 0xA0000 => some (ctlCmd w v)
  | 0xA0010 => some (cmdReq (ctlRight w) noRes fun s => okCmd { s with ctl := { s.ctl with swapLo := wd v } })
  | 0xA0014 => some (cmdReq (ctlRight w) noRes (opSwap (wd v)))
  | _ =>
    match ctlDsp.ixAt a, ctlBank.ixAt a with
    | some ix, _ => some (cmdReq (fun s => isOwner s w) noRes (opDsp (ix.headD 0) v))
    | _, some ix => some (cmdReq (rightOne w rCfg) noRes (opBankWord (ix.headD 0) (ix.getD 1 0) (ix.getD 2 0) v))
    | none, none => none

/-- The command at an address, by page. -/
def cmdAt (w : Win) (a v : Nat) : Option Req :=
  match a / 0x10000 with
  | 0x00 | 0x13 => cmdHst w a v
  | 0x01 => cmdKln w a v | 0x02 => cmdEmb w a v | 0x03 => cmdCrd w a v | 0x04 => cmdChn w a v | 0x05 => cmdSwp w a v
  | 0x06 => cmdMea w a v | 0x07 => cmdTrc w a v | 0x08 => cmdEst w a v | 0x09 => cmdImp w a v | 0x0A => cmdCtl w a v
  | 0x0D => cmdSaf w a v | 0x0E => cmdLgc w a v | 0x0F => cmdFio w a v | 0x10 => cmdCan w a v | 0x11 => cmdNet w a v
  | 0x12 => cmdTim w a v | 0x14 => cmdRec w a v | 0x15 => cmdPar w a v | 0x16 => cmdUpd w a v
  | _ => none

/-! ### Plain registers -/

/-- Store a word that every check has passed: live fields at once, shadowed ones in the shadow copy, frozen ones in the
configuration (R94, R95, R99), retained ones also behind R543. A write that leaves every frozen field of the word at its present value
is no frozen write: it neither counts nor sets DIVERGED (DESIGN CHOICE: R99 and R100 leave it open, assumption 70). -/
def storeReg (s : State) (f : RegFam) (w : Nat) (ix : List Nat) (v : Nat) : State :=
  let key := regKey f w ix
  let was := (rdFrozen s f w ix).land f.frozen
  let now_ := v.land f.frozen
  let frozenWord := putBits (rdFrozen s f w ix) f.frozen v
  let s := if f.live = 0 then s else wr s f w ix (putBits (rdw s f w ix) f.live v)
  let s := if f.shadow = 0 then s else { s with shadow := tset none s.shadow key (some (wd v)) }
  let s := if now_ = was then s
    else { s with frozen := tset none s.frozen key (some (wd frozenWord))
                  crd := { s.crd with diverged := true, frozenWrites := s.crd.frozenWrites + 1 } }
  if f.kept = 0 then s else { s with kept := tset none s.kept key (some (wd (v.land f.kept))) }

/-- A write of a register without rules of its own: right, fitted instance, FROZEN, then the ranges (R12, R14, R101). -/
def writeReg (w : Nat) (right : Bool) (f : RegFam) (ix : List Nat) (v : Nat) (s : State) : Code × State :=
  let v := v.land f.rw
  let p := f.part ix
  if !right then (.refusedRights, s)
  else if !present s p.1 p.2 then okCmd s
  else
    let changed := v.land f.frozen != (rdFrozen s f w ix).land f.frozen
    ifOk (firstCode [when_ (changed && s.emb.mode != .configure) .frozen, f.check s ix v]) s fun s =>
      let t := storeReg s f w ix v
      okCmd (if f.base = meaRotcfg.base then rotNote t else t)

/-- A word written to a register page: the command there, else the plain register, else a register that only the module
writes (no effect, no code), else an unused address (R45). -/
def writePage (w : Win) (a v : Nat) (s : State) : Code × State :=
  let p := a / 0x10000
  match cmdAt w a v with
  | some f => f s
  | none =>
    match famIn (famPage p) a with
    | some (f, ix) =>
      if f.base = ctlCvmode.base then opCvmode w (ix.headD 0) v (writeReg w true f ix v) s
      else writeReg w (hasRight s w f.right) f ix v s
    | none => if (roIn (roPage p) a).isSome then okCmd s else (.range, s)

/-! ### Reads -/

/-- Registers that hold nothing readable: the staging and statement buffers (R12, WO). -/
def woFam (f : RegFam) : Bool := f.base == crdStageBuf.base || f.base == updStmt.base

/-- The host's fields of a register: live and committed values, the shadow copy where the window asks for it, and the
configured value of a frozen field (R94, R96, R99). -/
def famValue (s : State) (w : Nat) (f : RegFam) (ix : List Nat) : Nat :=
  let p := f.part ix
  if !present s p.1 p.2 || woFam f then 0
  else
    let sh := if bitN (rd s klnView []) w then rdShadow s f w ix else rdw s f w ix
    ((rdw s f w ix).land f.live).lor ((sh.land f.shadow).lor ((rdFrozen s f w ix).land f.frozen))

/-- The module's fields of a register; 0 for an instance that is not fitted (R5). -/
def roValue (s : State) (w : Nat) (r : RoReg) (ix : List Nat) : Nat :=
  let p := r.part ix
  if present s p.1 p.2 then r.val s w ix else 0

/-- The word at an address of a register page. -/
def pageWord (s : State) (w a : Nat) : Code × Nat :=
  let p := a / 0x10000
  match famIn (famPage p) a, roIn (roPage p) a with
  | none, none => (.range, 0)
  | f, r =>
    let x := match f with | some (f, ix) => famValue s w f ix | none => 0
    let y := match r with | some (r, ix) => roValue s w r ix | none => 0
    (.ok, x.lor y)

/-- A read of a register page: the HI word of a pair as its LO word latched it (R77), and the reader that goes on behind
the record's last word (R476). -/
def readPage (w a : Nat) (s : State) : Code × Nat × State :=
  let (c, v) := pageWord s w a
  if isLo a then
    (c, v, modWin s w fun x => { x with latch := tset none x.latch a (some (wd (pageWord s w (a + 4)).2)) })
  else if decide (a ≥ 4) && isLo (a - 4) then
    (c, ((tget none (win s w).latch (a - 4)).map (·.toNat)).getD v, s)
  else if a = 0x14017C then (c, v, advanceReader s w)
  else (c, v, s)

/-! ### Apertures (R35, R36, R46, R239) -/

/-- The grant of a window to the partition of working SRAM that holds a word. -/
def sramGrant (s : State) (w off : Nat) : Access :=
  match s.crd.content with
  | some c =>
    match c.parts.find? fun q => decide (q.base ≤ off) && decide (off + 4 ≤ q.base + q.len) with
    | some q => match q.wins.find? fun p => p.1.val == w with | some p => p.2 | none => .none
    | none => .none
  | none => .none

/-- An access outside a window's partitions: no effect, counted and recorded (R36). -/
def sramViol (s : State) (w a : Nat) : State := partViol s (Config.engTag Engine.window.ctorIdx w) a

/-- A write through the SRAM aperture. -/
def writeSram (w a v : Nat) (s : State) : Code × State :=
  if sramGrant s w (a - 0x10000000) = .readWrite then okCmd (storeBytes .data s (a - 0x10000000) (leB 4 v))
  else (.refusedRights, sramViol s w a)

/-- A read through the SRAM aperture. -/
def readSram (w a : Nat) (s : State) : Code × Nat × State :=
  if sramGrant s w (a - 0x10000000) = .none then (.refusedRights, 0, sramViol s w a)
  else (.ok, fromLe (memRead s.mem (a - 0x10000000) 4), sramAsk .data s (a - 0x10000000) 4)

/-- Four bytes of partition p, whose stored contents are x and which the manual does not lay out. -/
def storedWord {α : Type} (p : Nat) (x : α) (o : Nat) : Nat :=
  fromLe ((List.range 4).map fun j => Config.stored p x (o + j))

/-- What the counters and identity partition keeps: counters, SEQ_NEXT, retained registers, slots and key slots. -/
def identityKept (s : State) : (Nat × Nat × Nat × Nat) × Word × Tab (Option Word) × (Slot × Slot × Slot) :=
  ((s.emb.oph.toNat, s.emb.pwc, s.emb.pfailCnt, s.emb.glitch), s.recd.seqKept, s.kept,
    (s.crd.running, s.crd.previous, s.crd.incoming))

/-- The word at offset o of retained partition p, as stored (R46): the calibration records and the recorder ring as laid
out; of the others, and of what no record fills, the manual lays out no bytes, so they are unknown but fixed by what is
stored. -/
def keptWord (s : State) (p o : Nat) : Nat :=
  match p with
  | 0 => storedWord 0 (s.est.strs.map fun x => (x.1, x.2.copyA, x.2.copyB),
      s.est.cells.map fun x => (x.1, x.2.copyA, x.2.copyB), s.imp.copies) o
  | 1 => storedWord 1 (s.lgc.tasks.map fun x => (x.1, x.2.kept), s.lgc.forces) o
  | 2 => match tget none s.recd.store (o / 64) with
    | some r => byteWord r.bytes (o % 64 / 4)
    | none => storedWord 2 () o
  | 3 => storedWord 3 s.recd.audit o
  | 4 =>
    let e := o % 0x2000 / 128
    if o < 0x4000 ∧ e < 44 then
      byteWord (CalRec.bytes e (tget (factoryRec e) (if o < 0x2000 then s.trc.recA else s.trc.recB) e)) (o % 128 / 4)
    else storedWord 4 () o
  | _ => storedWord 5 (identityKept s) o

/-- A word of the retained store; a byte in no partition reads as 0 (R43). -/
def readRetained (a : Nat) (s : State) : Code × Nat × State :=
  let off := a - 0x20000000
  let parts := match s.crd.content with | some c => c.retained | none => []
  let hit := parts.zipIdx.find? fun q => decide (q.1.1 ≤ off) && decide (off + 4 ≤ q.1.1 + q.1.2)
  (.ok, match hit with | some ((b, _), p) => keptWord s p (off - b) | none => 0, s)

/-- A word of cell n's page (*Table: Cell page*). -/
def readCell (a : Nat) (s : State) : Nat :=
  let n := (a - 0x30000000) / 0x1000
  let o := a % 0x1000
  if !present s 4 (n / 512) then 0
  else if o < 0x40 then byteWord (liveBlock (cell s n)) (o / 4)
  else if o < 0xC0 then byteWord ((cell s n).lr.bytes n) ((o - 0x40) / 4)
  else if o < 0x400 then 0
  else byteWord (ImpEntry.bytes (impEntry s n ((o - 0x400) / 8))) (o % 8 / 4)

/-! ### One word -/

/-- A word written through a window (R10, R38, R45, R46). -/
def writeWord (w : Win) (a v : Nat) (s : State) : Code × State :=
  match accessCode s w a true with
  | .ok =>
    match a / 0x10000000 with
    | 0 => writePage w a v s
    | 1 => writeSram w a v s
    | _ => (.refusedRights, s)
  | c => (c, s)

/-- A word read through a window; one that fails reads 0 (R441). -/
def readWord (w : Win) (a : Nat) (s : State) : Code × Nat × State :=
  match accessCode s w a false with
  | .ok =>
    match a / 0x10000000 with
    | 0 => readPage w a s
    | 1 => readSram w a s
    | 2 => readRetained a s
    | _ => (.ok, readCell a s, s)
  | c => (c, 0, s)

/-! ### Requests of several words (R440, R441, R444) -/

/-- The failing word that a request reports: the first one. -/
def firstFail (was : Option (Code × Nat)) (c : Code) (a : Nat) : Option (Code × Nat) :=
  match was with
  | some x => some x
  | none => if c = .ok ∨ c = .lateDone then none else some (c, a)

/-- Words written in ascending order; a failing word has no effect and the others apply. The flag tells of LATE_DONE. -/
def writeWords (w : Win) (a : Nat) : List Nat → Bool × Option (Code × Nat) × State → Bool × Option (Code × Nat) × State
  | [], r => r
  | v :: t, (late, fail, s) =>
    let (c, s) := writeWord w a v s
    writeWords w (a + 4) t (late || c == .lateDone, firstFail fail c a, s)

/-- Words read in ascending order from one instant. -/
def readWords (w : Win) (a : Nat) : Nat → Option (Code × Nat) × List Nat × State → Option (Code × Nat) × List Nat × State
  | 0, r => r
  | n + 1, (fail, vs, s) =>
    let (c, v, s) := readWord w a s
    readWords w (a + 4) n (firstFail fail c a, vs ++ [v], s)

/-- LEN is a multiple of 4 from 4 to 4096, within one page or aperture (R444). -/
def lenOk (a len : Nat) : Bool :=
  len % 4 == 0 && inR len 4 4096 && (pageKey a).isSome && pageKey a == pageKey (a + len - 1)

/-- A WRITE as a unit: its result and the state with WIN_LASTRES and WIN_LASTADDR set. -/
def writeReq (w : Win) (a len : Nat) (vs : List Nat) (s : State) : Code × State :=
  if !lenOk a len then (.range, finish s w a .range)
  else
    match writeWords w a vs (false, none, s) with
    | (_, some (c, b), s) => (c, finish s w b c)
    | (late, none, s) => (if late then .lateDone else .ok, finish s w a .ok)

/-- A READ as a unit; one in which no word fails leaves WIN_LASTRES and WIN_LASTADDR (R441). -/
def readReq (w : Win) (a len : Nat) (s : State) : Code × List Nat × State :=
  if !lenOk a len then (.range, List.replicate (len / 4) 0, finish s w a .range)
  else
    match readWords w a (len / 4) (none, [], s) with
    | (some (c, b), vs, s) => (c, vs, finish s w b c)
    | (none, vs, s) => (.ok, vs, s)

end Sys2Proof.Machine
end

