-- ==== Sys2Proof/Machine/Hst.lean ====
section
/-!
DEFINITION. The commands that reach the register fabric through a window (chapter 17): register accesses of a window
(R10 to R12, R77, R453), QSPI transactions (R443 to R448), Ethernet and USB messages (R449 to R452), ring commands
(R454) and dispatch ownership (R457). When HRDY is high again is a free value within the bounds of R446.
-/

namespace Sys2Proof.Machine

/-! ### One register access of a window -/

/-- REGISTER_WRITE: `size` is the access's width in bytes (R10). -/
def execRegisterWrite (w : Win) (addr val : Word) (size : Nat) (s : State) : Out :=
  .next (
    if !reachable s w then s
    else
      let (c, t) := if size = 4 then writeWord w addr.toNat val.toNat s
        else ((accessCode s w addr.toNat true).orElse .range, s)
      finish t w addr.toNat c)

/-- LO_READ_LATCH (R77). -/
def execLoReadLatch (w : Win) (addr : Word) (s : State) : Out :=
  .next (if reachable s w ∧ isLo addr.toNat then (readReq w addr.toNat 4 s).2.2 else s)

/-- READER_ADVANCE: a window reads REC_RDDATA + 0x3C (R476). -/
def execReaderAdvance (w : Win) (s : State) : Out :=
  .next (if reachable s w then (readReq w 0x14017C 4 s).2.2 else s)

/-- RING_INDEX_WRITE (R48, R453). -/
def execRingIndexWrite (w : Win) (r : Fin 64) (isTail : Bool) (val : Word) (s : State) : Out :=
  .next (hostCmd w ((if isTail then 0x13100C else 0x131008) + 0x20 * r.val) (opRingIndex w r isTail val) s)

/-- A waiting entry as it is written: SEQ, NTIME and GAP are those of the moment of writing. -/
def restamp (g : Ring) (ntime : Nat) (bs : List Byte) : List Byte :=
  leB 4 g.seq.toNat ++ (bs.drop 4).take 3 ++ [BitVec.ofNat 8 ((byteAt bs 7).lor (flag g.gap 5))] ++ leB 8 ntime ++ bs.drop 16

/-- RING_BLOCK_RESUME (R52). -/
def execRingBlockResume (r : Fin 64) (s : State) : Out :=
  .next (
    let g := ring s r
    match g.waiting with
    | [] => s
    | bs :: rest =>
      if ringLive s r ∧ ringFill g < ringDepth s r then
        modRing (ringPlace s r (restamp g s.tim.now.toNat bs)) r fun g => { g with waiting := rest }
      else s)

/-! ### Requests and their answers -/

/-- The 8 bytes of a STATUS: the masked events and WIN_LASTRES. -/
def statusBytes (s : State) (w : Nat) : List Byte := leB 4 (winAttn s w) ++ leB 4 (resW (win s w).lastRes)

/-- The bytes of words, each least significant byte first. -/
def wordBytes (vs : List Nat) : List Byte := vs.flatMap (leB 4)

/-- The bytes a READ answers: as many as it asks for. -/
def readBytes (len : Nat) (vs : List Nat) : List Byte := padTo len (wordBytes vs)

/-- Keep a window's last answer. -/
def answer (s : State) (w : Nat) (vs : List Nat) (c : Code) : State :=
  modWin s w fun x => { x with reply := vs.map wd, replyRes := c }

/-! ### QSPI (R443 to R448) -/

/-- The window that a QSPI port carries, while the port serves requests. -/
def qspiWin (s : State) (b : Bool) : Option Win :=
  if !awake s then none
  else ([0, 1, 2, 3] : List Win).find? fun w => (winBind s w.val).transport == (if b then .qspiB else .qspiA)

/-- Count in HST_QERRx.CRC. -/
def qspiCrc (b : Bool) (s : State) : State :=
  { s with hst := if b then { s.hst with qCrcB := inc16 s.hst.qCrcB } else { s.hst with qCrcA := inc16 s.hst.qCrcA } }

/-- Count in HST_QERRx.PROTO. -/
def qspiProto (b : Bool) (s : State) : State :=
  { s with hst := if b then { s.hst with qProtoB := inc16 s.hst.qProtoB } else { s.hst with qProtoA := inc16 s.hst.qProtoA } }

/-- The instant from which HRDYx is high. -/
def hrdyAt (s : State) (b : Bool) : Nat := if b then s.hst.hrdyB else s.hst.hrdyA

/-- The module drives HRDYx high: the port carries a window and takes a new transaction (R446, R447). -/
def hrdy (s : State) (b : Bool) : Bool := (qspiWin s b).isSome && decide (s.now ≥ hrdyAt s b)

/-- The module asserts HATNx (R448). -/
def hatn (s : State) (b : Bool) : Bool := match qspiWin s b with | some w => winAttn s w.val != 0 | none => false

/-- HRDYx stays low after a WRITE for a free time up to the bound of *Table: HRDY recovery*, in µs. -/
def hrdyLow (b : Bool) (maxUs : Nat) (s : State) : State :=
  let (f, s) := drawFree s
  let t := s.now + f % (maxUs + 1)
  { s with hst := if b then { s.hst with hrdyB := t } else { s.hst with hrdyA := t } }

/-- A WRITE of n bytes at an address holds a frozen field. -/
def holdsFrozen (a n : Nat) : Bool :=
  (List.range (n / 4)).any fun i => match famAt (a + 4 * i) with | some (f, _) => f.frozen != 0 | none => false

/-- The bound of *Table: HRDY recovery* for a WRITE; that of a longer WRITE to the SRAM aperture serves one to a register
page too, for which the table has none (DESIGN CHOICE, assumption 18). READ and STATUS recover within the µs. -/
def hrdyMax (s : State) (a n : Nat) : Nat :=
  if s.emb.mode = .configure ∧ holdsFrozen a n then 1000
  else if 0x20000000 ≤ a ∧ a < 0x22000000 then (20000 + 20 * n) / 1000
  else if n ≤ 64 then 2
  else (2000 + 2 * n) / 1000

/-- A transaction on a port that carries a window; one started while HRDYx was low is ignored (R446). -/
def onQspi (b : Bool) (tookUs : Nat) (s : State) (f : Win → State → State) : State :=
  match qspiWin s b with
  | some w =>
    let s := { s with hst := if b then { s.hst with qUseB := some s.now } else { s.hst with qUseA := some s.now } }
    if s.now < hrdyAt s b + tookUs then finish (qspiProto b s) w 0 .busy else f w s
  | none => s

/-- Opcode, address and length as the host sends them, most significant byte first. -/
def qspiHead (opc : Byte) (addr : Word) (len : Nat) : List Byte :=
  opc :: ((leB 4 addr.toNat).reverse ++ (leB 2 len).reverse)

/-- The data and trailer that the module sends; the CRC runs from the opcode on. -/
def qspiReply (b : Bool) (hd data : List Byte) (s : State) : State :=
  send s (ifQspi b) (data ++ leB 2 (crc16 (hd ++ data)))

/-- QSPI_WRITE: `words` are those received before chip select rose, `crcOk` tells of the trailer (R445). -/
def execQspiWrite (portB : Bool) (tookUs : Nat) (addr : Word) (len : Nat) (words : List Word) (crcOk : Bool) (s : State) : Out :=
  .next (onQspi portB tookUs s fun w s =>
    if crcOk ∧ 4 * words.length = len ∨ crcOk ∧ !lenOk addr.toNat len then
      let max := hrdyMax s addr.toNat len
      let s := (writeReq w addr.toNat len (words.map (·.toNat)) s).2
      if lenOk addr.toNat len then hrdyLow portB max s else s
    else
      finish (qspiCrc portB s) w addr.toNat (if lenOk addr.toNat len then .checkFail else .range))

/-- QSPI_READ. -/
def execQspiRead (portB : Bool) (tookUs : Nat) (addr : Word) (len : Nat) (s : State) : Out :=
  .next (onQspi portB tookUs s fun w s =>
    let (c, vs, s) := readReq w addr.toNat len s
    qspiReply portB (qspiHead 0x0B addr len) (readBytes len vs) (answer s w vs c))

/-- QSPI_STATUS. -/
def execQspiStatus (portB : Bool) (tookUs : Nat) (s : State) : Out :=
  .next (onQspi portB tookUs s fun w s => qspiReply portB [0x05] (statusBytes s w) s)

/-- QSPI_OTHER_OPCODE (R444): it names no address, so WIN_LASTADDR reads 0. -/
def execQspiOtherOpcode (portB : Bool) (tookUs : Nat) (opcode : Byte) (s : State) : Out :=
  .next (
    if opcode = 0x02 ∨ opcode = 0x0B ∨ opcode = 0x05 then s
    else onQspi portB tookUs s fun w s => finish (qspiProto portB s) w 0 .range)

/-! ### Ethernet and USB (R449 to R452) -/

/-- True while a window's messages are served: its TLS connection is open, or it is on USB (R538). -/
def carries (s : State) (w : Nat) : Bool :=
  awake s && match (winBind s w).transport with
    | .ethernet => (win s w).conn
    | .usb => true
    | _ => false

/-- True when a window is on USB. -/
def onUsb (s : State) (w : Nat) : Bool := (winBind s w).transport == .usb

/-- A message as its transport frames it (R450, R451). -/
def hostMsg (s : State) (w : Nat) (opc : Byte) (tag addr : Nat) (c : Code) (data : List Byte) : List Byte :=
  let body := [opc, 0] ++ leB 2 tag ++ leB 4 addr ++ leB 2 data.length ++ [BitVec.ofNat 8 c.num, 0] ++ data
  if onUsb s w then [0xA5, 0x5A] ++ body ++ leB 2 (crc16 body) else body

/-- A message of a host arrives: HP_IDLE starts anew, and a USB host has configured the port. -/
def msgIn (w : Nat) (s : State) : State :=
  let s := modWin s w fun x => { x with lastMsg := s.now }
  if onUsb s w then { s with hst := { s.hst with usbCfg := true } } else s

/-- A request in a message, and its response. -/
def onMsg (w : Win) (opc : Byte) (tag : BitVec 16) (addr : Nat) (f : State → Code × List Byte × State) (s : State) : State :=
  if carries s w then
    let (c, data, t) := f (msgIn w s)
    send t (ifHost w) (hostMsg t w (opc + 0x80) tag.toNat addr c data)
  else s

/-- HP_CONNECT: `certWindow` is the window that the client's certificate and subject match. A second connection is
closed, and the first one kept. -/
def execHpConnect (certWindow : Option Win) (s : State) : Out :=
  .next (
    match certWindow with
    | none => s
    | some w =>
      if awake s && (winBind s w).transport == .ethernet && !(win s w).conn then
        modWin s w fun x => { x with conn := true, lastMsg := s.now }
      else s)

/-- HP_IDLE_TIMEOUT. -/
def execHpIdleTimeout (w : Win) (s : State) : Out :=
  .next (
    let x := win s w
    if x.conn ∧ s.now ≥ x.lastMsg + 1000000 * rdf s hstHpcfg [] 31 16 then modWin s w fun x => { x with conn := false }
    else s)

/-- HP_WRITE. -/
def execHpWrite (w : Win) (tag : BitVec 16) (addr : Word) (len : Nat) (words : List Word) (s : State) : Out :=
  .next (onMsg w 0x02 tag addr.toNat (fun s =>
    let (c, s) := writeReq w addr.toNat len (words.map (·.toNat)) s
    (c, [], s)) s)

/-- HP_READ. -/
def execHpRead (w : Win) (tag : BitVec 16) (addr : Word) (len : Nat) (s : State) : Out :=
  .next (onMsg w 0x0B tag addr.toNat (fun s =>
    let (c, vs, s) := readReq w addr.toNat len s
    (c, readBytes len vs, answer s w vs c)) s)

/-- HP_STATUS. -/
def execHpStatus (w : Win) (tag : BitVec 16) (s : State) : Out :=
  .next (onMsg w 0x05 tag 0 (fun s => (.ok, statusBytes s w, s)) s)

/-- HP_NOP. -/
def execHpNop (w : Win) (tag : BitVec 16) (s : State) : Out :=
  .next (onMsg w 0x21 tag 0 (fun s => (.ok, [], s)) s)

/-- USB_BAD_FRAME. -/
def execUsbBadFrame (w : Win) (s : State) : Out :=
  .next (if carries s w ∧ onUsb s w then { s with hst := { s.hst with usbErr := inc16 s.hst.usbErr } } else s)

/-- EVENT_MESSAGE: a masked bit has set since the last message, which is at least 1 ms old (R452). -/
def execEventMessage (w : Win) (s : State) : Out :=
  .next (
    let x := win s w
    let v := wd (winAttn s w)
    let due : Bool := match x.evSentAt with | some t => decide (s.now ≥ t + 1000) | none => true
    if carries s w ∧ v &&& ~~~ x.evSent ≠ 0 ∧ due then
      send (modWin s w fun x => { x with evSent := v, evSentAt := some s.now }) (ifEvent w)
        (hostMsg s w 0x20 0 0 .ok (leB 4 v.toNat))
    else s)

/-- A masked bit that has cleared since may be sent again. -/
def evForget (s : State) (w : Nat) : State :=
  if (win s w).evSent &&& ~~~ wd (winAttn s w) = 0 then s
  else modWin s w fun x => { x with evSent := x.evSent &&& wd (winAttn s w) }

/-! ### Ring commands (R454) -/

/-- The command that the module takes next from a window's command ring: the response ring has room for its answer. -/
def ringCmd (s : State) (w : Nat) : Option (List Byte) :=
  if awake s && bound s w && ringLive s (4 * w + 1) && decide (ringFill (ring s (4 * w + 1)) < ringDepth s (4 * w + 1))
  then ringFront s (4 * w) else none

/-- True for a command of a given type that R454 lets run: REG_WRITE and REG_READ need INLINE. -/
def cmdIs (bs : List Byte) (type : Nat) : Bool := byteAt bs 5 == type && (decide (type ≥ 3) || bitN (byteAt bs 7) 7)

/-- True for a command that *Table: Ring commands* does not list, or whose INLINE is clear where it must be set. -/
def cmdBad (bs : List Byte) : Bool := !(cmdIs bs 1 || cmdIs bs 2 || cmdIs bs 3 || cmdIs bs 4 || cmdIs bs 5)

/-- Take a command of the type asked for, run it and answer it on the response ring. -/
def onRing (w : Win) (is : List Byte → Bool) (f : List Byte → State → Code × Nat × State) (s : State) : State :=
  match ringCmd s w with
  | some bs =>
    if is bs then
      let (c, v, t) := f bs (ringPop s (4 * w))
      (ringPut t (4 * w + 1) { flags := 0x80, result := c.num, type := byteAt bs 5, len := 8
                               data := leB 4 v ++ bs.take 4 }).2
    else s
  | none => s

/-- A command that R454 itself refuses: it changes nothing, and LASTERR sets (R452). -/
def ringRefuse (w : Win) (v : Nat) (s : State) : Code × Nat × State :=
  (.checkFail, v, winEvent s w 15 Code.checkFail.num)

/-- The payload buffer lies in the window's buffer partition, which is of the data plane (R51). -/
def cmdBuf (s : State) (w : Win) (bs : List Byte) : Bool :=
  match partOf s (.buffers w) with
  | some p => p.plane == .data && decide (p.base ≤ getLe bs 16 4) && decide (getLe bs 16 4 + getLe bs 20 2 ≤ p.base + p.len)
  | none => false

/-- REG_WRITE. -/
def execRegWrite (w : Win) (s : State) : Out :=
  .next (onRing w (cmdIs · 1) (fun bs s =>
    let a := getLe bs 24 4
    let (c, s) := writeReq w a 4 [getLe bs 28 4] s
    (c, a, s)) s)

/-- REG_READ. -/
def execRegRead (w : Win) (s : State) : Out :=
  .next (onRing w (cmdIs · 2) (fun bs s =>
    let (c, vs, s) := readReq w (getLe bs 24 4) 4 s
    (c, vs.headD 0, s)) s)

/-- The words of a byte list. -/
def bytesWords : Nat → List Byte → List Nat
  | 0, _ => []
  | n + 1, bs => fromLe (bs.take 4) :: bytesWords n (bs.drop 4)

/-- BLOCK_WRITE. -/
def execBlockWrite (w : Win) (s : State) : Out :=
  .next (onRing w (cmdIs · 3) (fun bs s =>
    let a := getLe bs 24 4
    let n := getLe bs 20 2
    if lenOk a n && !cmdBuf s w bs then ringRefuse w a s
    else
      let (data, s) := engRead s .host w (getLe bs 16 4) n
      let (c, s) := writeReq w a n (bytesWords (n / 4) data) s
      (c, a, s)) s)

/-- BLOCK_READ. -/
def execBlockRead (w : Win) (s : State) : Out :=
  .next (onRing w (cmdIs · 4) (fun bs s =>
    let a := getLe bs 24 4
    let n := getLe bs 20 2
    if !lenOk a n then (.range, a, finish s w a .range)
    else if !cmdBuf s w bs then ringRefuse w a s
    else
      let (c, vs, s) := readReq w a n s
      (c, a, engStore s .host w (getLe bs 16 4) (wordBytes vs))) s)

/-- NOP. -/
def execRingNop (w : Win) (s : State) : Out := .next (onRing w (cmdIs · 5) (fun _ s => (.ok, 0, s)) s)

/-- A command of another type, or a REG_WRITE or REG_READ without INLINE. Of an undefined type the manual gives no
response word: a free value. -/
def execRingBadCommand (w : Win) (s : State) : Out :=
  .next (onRing w cmdBad (fun bs s =>
    match byteAt bs 5 with
    | 1 => ringRefuse w (getLe bs 24 4) s
    | 2 => ringRefuse w 0 s
    | _ => let (v, s) := drawFree s; ringRefuse w v s) s)

/-! ### Dispatch ownership (R457) -/

/-- REQUEST. -/
def execDspRequest (w : Win) (s : State) : Out := .next (hostCmd w 0x34 (opDspCmd w 1) s)

/-- ACCEPT. -/
def execDspAccept (w : Win) (s : State) : Out := .next (hostCmd w 0x34 (opDspCmd w 2) s)

/-- DECLINE. -/
def execDspDecline (w : Win) (s : State) : Out := .next (hostCmd w 0x34 (opDspCmd w 3) s)

/-- DSP_TMO runs out. -/
def execDspTimeout (s : State) : Out := .next (dspExpire s)

end Sys2Proof.Machine
end

