-- ==== Sys2Proof/Machine/Dispatch.lean ====
section
/-! DEFINITION. `exec`: one arm per command, each one direct call of the command's meaning. -/

namespace Sys2Proof.Machine

def exec (i : Instr) (s : State) : Host.Outcome State Fault Refusal :=
  match i with
  | .registerWrite w addr val size => Sys2Proof.Machine.execRegisterWrite w addr val size s
  | .loReadLatch w addr => Sys2Proof.Machine.execLoReadLatch w addr s
  | .shadowCommit block inst => Sys2Proof.Machine.execShadowCommit block inst s
  | .commit w block inst => Sys2Proof.Machine.execCommit w block inst s
  | .hold w block inst => Sys2Proof.Machine.execHold w block inst s
  | .releaseHold w block inst => Sys2Proof.Machine.execReleaseHold w block inst s
  | .xovrClr w route cons => Sys2Proof.Machine.execXovrClr w route cons s
  | .modeRequest w target => Sys2Proof.Machine.execModeRequest w target s
  | .modeEvaluation => Sys2Proof.Machine.execModeEvaluation s
  | .gatedEventDelivery sink => Sys2Proof.Machine.execGatedEventDelivery sink s
  | .domainGate d => Sys2Proof.Machine.execDomainGate d s
  | .clockFault d devPpm durUs => Sys2Proof.Machine.execClockFault d devPpm durUs s
  | .agedGrant bank p => Sys2Proof.Machine.execAgedGrant bank p s
  | .partitionViolation e inst addr isWrite => Sys2Proof.Machine.execPartitionViolation e inst addr isWrite s
  | .kilnEngineFault e => Sys2Proof.Machine.execKilnEngineFault e s
  | .ringIndexWrite w r isTail val => Sys2Proof.Machine.execRingIndexWrite w r isTail val s
  | .ringBlockResume r => Sys2Proof.Machine.execRingBlockResume r s
  | .emberWake src => Sys2Proof.Machine.execEmberWake src s
  | .kindling upsets boot => Sys2Proof.Machine.execKindling upsets boot s
  | .coldStart boot => Sys2Proof.Machine.execColdStart boot s
  | .prechargeTimeout k => Sys2Proof.Machine.execPrechargeTimeout k s
  | .rampTimeout => Sys2Proof.Machine.execRampTimeout s
  | .embAckSafeAck w => Sys2Proof.Machine.execEmbAckSafeAck w s
  | .safAckSafeAck w => Sys2Proof.Machine.execSafAckSafeAck w s
  | .forceAck w => Sys2Proof.Machine.execForceAck w s
  | .recoveryTimerExpiry => Sys2Proof.Machine.execRecoveryTimerExpiry s
  | .lotoChange pos => Sys2Proof.Machine.execLotoChange pos s
  | .lotoBetweenTimeout => Sys2Proof.Machine.execLotoBetweenTimeout s
  | .drowseEntry => Sys2Proof.Machine.execDrowseEntry s
  | .emberCounterSample ia => Sys2Proof.Machine.execEmberCounterSample ia s
  | .drowseCurrentWake => Sys2Proof.Machine.execDrowseCurrentWake s
  | .qdrwHandover k => Sys2Proof.Machine.execQdrwHandover k s
  | .holdupChange tenMj vsup10mv => Sys2Proof.Machine.execHoldupChange tenMj vsup10mv s
  | .supplyGlitch durUs => Sys2Proof.Machine.execSupplyGlitch durUs s
  | .pfail vsup10mv => Sys2Proof.Machine.execPfail vsup10mv s
  | .pfailFlushComplete => Sys2Proof.Machine.execPfailFlushComplete s
  | .eraseIncoming w => Sys2Proof.Machine.execEraseIncoming w s
  | .writeBlock w => Sys2Proof.Machine.execWriteBlock w s
  | .verifyIncoming w => Sys2Proof.Machine.execVerifyIncoming w s
  | .verifyRunning w => Sys2Proof.Machine.execVerifyRunning w s
  | .crdActivate w => Sys2Proof.Machine.execCrdActivate w s
  | .revert w => Sys2Proof.Machine.execRevert w s
  | .verificationComplete boot => Sys2Proof.Machine.execVerificationComplete boot s
  | .sweepSync k => Sys2Proof.Machine.execSweepSync k s
  | .sweepReadStart k => Sys2Proof.Machine.execSweepReadStart k s
  | .chainLoopIdle k => Sys2Proof.Machine.execChainLoopIdle k s
  | .chainResponse port bytes codeErr swapped sinceSendNs => Sys2Proof.Machine.execChainResponse port bytes codeErr swapped sinceSendNs s
  | .chainCommandTimeout k => Sys2Proof.Machine.execChainCommandTimeout k s
  | .broadcastReadClose k => Sys2Proof.Machine.execBroadcastReadClose k s
  | .enumerate w k => Sys2Proof.Machine.execEnumerate w k s
  | .enumerationComplete k => Sys2Proof.Machine.execEnumerationComplete k s
  | .locate w k => Sys2Proof.Machine.execLocate w k s
  | .locateComplete k => Sys2Proof.Machine.execLocateComplete k s
  | .chainRejoin k => Sys2Proof.Machine.execChainRejoin k s
  | .echoRefresh w k => Sys2Proof.Machine.execEchoRefresh w k s
  | .echoRefreshDue k => Sys2Proof.Machine.execEchoRefreshDue k s
  | .delayMeasurementComplete k => Sys2Proof.Machine.execDelayMeasurementComplete k s
  | .chnClearCounters w k => Sys2Proof.Machine.execChnClearCounters w k s
  | .sweepClose k => Sys2Proof.Machine.execSweepClose k s
  | .owRun w k pos => Sys2Proof.Machine.execOwRun w k pos s
  | .owPeriodic k => Sys2Proof.Machine.execOwPeriodic k s
  | .owSuspectRetest k pos => Sys2Proof.Machine.execOwSuspectRetest k pos s
  | .balHalt w k => Sys2Proof.Machine.execBalHalt w k s
  | .balResume w k => Sys2Proof.Machine.execBalResume w k s
  | .balanceRun k => Sys2Proof.Machine.execBalanceRun k s
  | .precisionSample x ctl => Sys2Proof.Machine.execPrecisionSample x ctl s
  | .channelFlag k j => Sys2Proof.Machine.execChannelFlag k j s
  | .channelReadmit k j => Sys2Proof.Machine.execChannelReadmit k j s
  | .rotationSlotStart => Sys2Proof.Machine.execRotationSlotStart s
  | .rotationSpareConnect spare => Sys2Proof.Machine.execRotationSpareConnect spare s
  | .rotationSwitchOut => Sys2Proof.Machine.execRotationSwitchOut s
  | .rotationReconnect slice => Sys2Proof.Machine.execRotationReconnect slice s
  | .rotationSwitchBack => Sys2Proof.Machine.execRotationSwitchBack s
  | .rotHalt w => Sys2Proof.Machine.execRotHalt w s
  | .rotResume w => Sys2Proof.Machine.execRotResume w s
  | .inject w k point => Sys2Proof.Machine.execInject w k point s
  | .injectionStart k => Sys2Proof.Machine.execInjectionStart k s
  | .injectionComplete k mv => Sys2Proof.Machine.execInjectionComplete k mv s
  | .isoNow w k => Sys2Proof.Machine.execIsoNow w k s
  | .isoStateEnd => Sys2Proof.Machine.execIsoStateEnd s
  | .refEvaluation ovens => Sys2Proof.Machine.execRefEvaluation ovens s
  | .refExclusion x => Sys2Proof.Machine.execRefExclusion x s
  | .refFail => Sys2Proof.Machine.execRefFail s
  | .warmingEnd => Sys2Proof.Machine.execWarmingEnd s
  | .calAged => Sys2Proof.Machine.execCalAged s
  | .trcEnter w => Sys2Proof.Machine.execTrcEnter w s
  | .trcLeave w => Sys2Proof.Machine.execTrcLeave w s
  | .trcVerify w entry => Sys2Proof.Machine.execTrcVerify w entry s
  | .trcVerifyComplete => Sys2Proof.Machine.execTrcVerifyComplete s
  | .trcAdjust w entry => Sys2Proof.Machine.execTrcAdjust w entry s
  | .trcZero w entry => Sys2Proof.Machine.execTrcZero w entry s
  | .trcZeroComplete => Sys2Proof.Machine.execTrcZeroComplete s
  | .trcRefAdjust w entry reading vstd => Sys2Proof.Machine.execTrcRefAdjust w entry reading vstd s
  | .trcRefReadmit w entry => Sys2Proof.Machine.execTrcRefReadmit w entry s
  | .anchor n full => Sys2Proof.Machine.execAnchor n full s
  | .socDisplayUpdate => Sys2Proof.Machine.execSocDisplayUpdate s
  | .cycleUpdate n => Sys2Proof.Machine.execCycleUpdate n s
  | .estStringWrite k => Sys2Proof.Machine.execEstStringWrite k s
  | .estLearnedWrite n => Sys2Proof.Machine.execEstLearnedWrite n s
  | .estNvResume => Sys2Proof.Machine.execEstNvResume s
  | .resetCells w first count => Sys2Proof.Machine.execResetCells w first count s
  | .acceptUid w first count => Sys2Proof.Machine.execAcceptUid w first count s
  | .estFlush w => Sys2Proof.Machine.execEstFlush w s
  | .impStart w k => Sys2Proof.Machine.execImpStart w k s
  | .impStop w k => Sys2Proof.Machine.execImpStop w k s
  | .tzNow w k => Sys2Proof.Machine.execTzNow w k s
  | .impPause w k => Sys2Proof.Machine.execImpPause w k s
  | .impResume w k => Sys2Proof.Machine.execImpResume w k s
  | .impPeriodic k => Sys2Proof.Machine.execImpPeriodic k s
  | .tzPointDue k => Sys2Proof.Machine.execTzPointDue k s
  | .impAutoResume k => Sys2Proof.Machine.execImpAutoResume k s
  | .impPauseTimeout k => Sys2Proof.Machine.execImpPauseTimeout k s
  | .impTableWrite n => Sys2Proof.Machine.execImpTableWrite n s
  | .contextExecution n ctl waitTenNs => Sys2Proof.Machine.execContextExecution n ctl waitTenNs s
  | .pwmPeriodStart j => Sys2Proof.Machine.execPwmPeriodStart j s
  | .ctlInternalFault => Sys2Proof.Machine.execCtlInternalFault s
  | .converterResume k => Sys2Proof.Machine.execConverterResume k s
  | .convRun w k => Sys2Proof.Machine.execConvRun w k s
  | .convPark w k => Sys2Proof.Machine.execConvPark w k s
  | .genStart w g => Sys2Proof.Machine.execGenStart w g s
  | .genStop w g => Sys2Proof.Machine.execGenStop w g s
  | .generatorEnd g => Sys2Proof.Machine.execGeneratorEnd g s
  | .capArm w c => Sys2Proof.Machine.execCapArm w c s
  | .capStop w c => Sys2Proof.Machine.execCapStop w c s
  | .capForce w c => Sys2Proof.Machine.execCapForce w c s
  | .clrLat w => Sys2Proof.Machine.execClrLat w s
  | .coefficientSwap w hi => Sys2Proof.Machine.execCoefficientSwap w hi s
  | .bankWordWrite w n bank idx val => Sys2Proof.Machine.execBankWordWrite w n bank idx val s
  | .dispatchSetpointWrite w k val => Sys2Proof.Machine.execDispatchSetpointWrite w k val s
  | .forceWrite w k force => Sys2Proof.Machine.execForceWrite w k force s
  | .thermalSample th board => Sys2Proof.Machine.execThermalSample th board s
  | .thermalSlowMode => Sys2Proof.Machine.execThermalSlowMode s
  | .rateEvaluation => Sys2Proof.Machine.execRateEvaluation s
  | .riseTripClear => Sys2Proof.Machine.execRiseTripClear s
  | .recoveryPeriodEnd => Sys2Proof.Machine.execRecoveryPeriodEnd s
  | .thermalCanFrame => Sys2Proof.Machine.execThermalCanFrame s
  | .safetyCycle inp => Sys2Proof.Machine.execSafetyCycle inp s
  | .laneDegradedTimeout => Sys2Proof.Machine.execLaneDegradedTimeout s
  | .laneSelfTestComplete passed failedOuts => Sys2Proof.Machine.execLaneSelfTestComplete passed failedOuts s
  | .safetyWatchdog => Sys2Proof.Machine.execSafetyWatchdog s
  | .summaryTimeout k pos => Sys2Proof.Machine.execSummaryTimeout k pos s
  | .testPulseRead ts1 reads => Sys2Proof.Machine.execTestPulseRead ts1 reads s
  | .offPulse => Sys2Proof.Machine.execOffPulse s
  | .offPulseReadback readback => Sys2Proof.Machine.execOffPulseReadback readback s
  | .offPulseEnd => Sys2Proof.Machine.execOffPulseEnd s
  | .outfAck w => Sys2Proof.Machine.execOutfAck w s
  | .weldAck w k mv => Sys2Proof.Machine.execWeldAck w k mv s
  | .supplyLost => Sys2Proof.Machine.execSupplyLost s
  | .prechargePoll k => Sys2Proof.Machine.execPrechargePoll k s
  | .prechargeKpOpen k => Sys2Proof.Machine.execPrechargeKpOpen k s
  | .weldCheckPoll k => Sys2Proof.Machine.execWeldCheckPoll k s
  | .weldTimeout k => Sys2Proof.Machine.execWeldTimeout k s
  | .safeFrameSend c => Sys2Proof.Machine.execSafeFrameSend c s
  | .safeFrameReceive c bytes => Sys2Proof.Machine.execSafeFrameReceive c bytes s
  | .safeConnectionLost c => Sys2Proof.Machine.execSafeConnectionLost c s
  | .taskDue t => Sys2Proof.Machine.execTaskDue t s
  | .eventTaskTrigger t => Sys2Proof.Machine.execEventTaskTrigger t s
  | .taskStart t => Sys2Proof.Machine.execTaskStart t s
  | .taskWatchdog t => Sys2Proof.Machine.execTaskWatchdog t s
  | .lgcNop t => Sys2Proof.Machine.execLgcNop t s
  | .lgcLd t => Sys2Proof.Machine.execLgcLd t s
  | .lgcSt t => Sys2Proof.Machine.execLgcSt t s
  | .lgcMovb t => Sys2Proof.Machine.execLgcMovb t s
  | .lgcAdd t => Sys2Proof.Machine.execLgcAdd t s
  | .lgcSub t => Sys2Proof.Machine.execLgcSub t s
  | .lgcMul t => Sys2Proof.Machine.execLgcMul t s
  | .lgcDiv t => Sys2Proof.Machine.execLgcDiv t s
  | .lgcMod t => Sys2Proof.Machine.execLgcMod t s
  | .lgcNeg t => Sys2Proof.Machine.execLgcNeg t s
  | .lgcAbs t => Sys2Proof.Machine.execLgcAbs t s
  | .lgcAnd t => Sys2Proof.Machine.execLgcAnd t s
  | .lgcOr t => Sys2Proof.Machine.execLgcOr t s
  | .lgcXor t => Sys2Proof.Machine.execLgcXor t s
  | .lgcNot t => Sys2Proof.Machine.execLgcNot t s
  | .lgcShl t => Sys2Proof.Machine.execLgcShl t s
  | .lgcShr t => Sys2Proof.Machine.execLgcShr t s
  | .lgcRol t => Sys2Proof.Machine.execLgcRol t s
  | .lgcRor t => Sys2Proof.Machine.execLgcRor t s
  | .lgcCmp t => Sys2Proof.Machine.execLgcCmp t s
  | .lgcMin t => Sys2Proof.Machine.execLgcMin t s
  | .lgcMax t => Sys2Proof.Machine.execLgcMax t s
  | .lgcLimit t => Sys2Proof.Machine.execLgcLimit t s
  | .lgcSel t => Sys2Proof.Machine.execLgcSel t s
  | .lgcJmp t => Sys2Proof.Machine.execLgcJmp t s
  | .lgcJc t => Sys2Proof.Machine.execLgcJc t s
  | .lgcJnc t => Sys2Proof.Machine.execLgcJnc t s
  | .lgcCall t => Sys2Proof.Machine.execLgcCall t s
  | .lgcRet t => Sys2Proof.Machine.execLgcRet t s
  | .lgcCvt t => Sys2Proof.Machine.execLgcCvt t s
  | .lgcTmr t => Sys2Proof.Machine.execLgcTmr t s
  | .lgcTrig t => Sys2Proof.Machine.execLgcTrig t s
  | .lgcCtr t => Sys2Proof.Machine.execLgcCtr t s
  | .lgcRdedge t => Sys2Proof.Machine.execLgcRdedge t s
  | .lgcSys t => Sys2Proof.Machine.execLgcSys t s
  | .lgcEnd t => Sys2Proof.Machine.execLgcEnd t s
  | .lgcNvResume => Sys2Proof.Machine.execLgcNvResume s
  | .forceSet w => Sys2Proof.Machine.execForceSet w s
  | .forceClr w index => Sys2Proof.Machine.execForceClr w index s
  | .forceClrAll w => Sys2Proof.Machine.execForceClrAll w s
  | .olcApply w => Sys2Proof.Machine.execOlcApply w s
  | .olcSwitch => Sys2Proof.Machine.execOlcSwitch s
  | .olcTimeout => Sys2Proof.Machine.execOlcTimeout s
  | .lgcClrCnt w => Sys2Proof.Machine.execLgcClrCnt w s
  | .stationOutputFrame st => Sys2Proof.Machine.execStationOutputFrame st s
  | .stationInputFrame st bytes => Sys2Proof.Machine.execStationInputFrame st bytes s
  | .stationLost st => Sys2Proof.Machine.execStationLost st s
  | .debounceChange n => Sys2Proof.Machine.execDebounceChange n s
  | .fioFrameSend arrives => Sys2Proof.Machine.execFioFrameSend arrives s
  | .fioFrameReceive f => Sys2Proof.Machine.execFioFrameReceive f s
  | .fioFrameMissing => Sys2Proof.Machine.execFioFrameMissing s
  | .outputOverload j => Sys2Proof.Machine.execOutputOverload j s
  | .outputRetry j => Sys2Proof.Machine.execOutputRetry j s
  | .flLowDetect => Sys2Proof.Machine.execFlLowDetect s
  | .flRecover => Sys2Proof.Machine.execFlRecover s
  | .fltAck w => Sys2Proof.Machine.execFltAck w s
  | .ovlAck w mask => Sys2Proof.Machine.execOvlAck w mask s
  | .fioClrCnt w => Sys2Proof.Machine.execFioClrCnt w s
  | .canFrameReceive c f => Sys2Proof.Machine.execCanFrameReceive c f s
  | .canArbitration c => Sys2Proof.Machine.execCanArbitration c s
  | .canTxComplete c ok lostArbitration => Sys2Proof.Machine.execCanTxComplete c ok lostArbitration s
  | .canBusOffRecovery c => Sys2Proof.Machine.execCanBusOffRecovery c s
  | .canQueueLoad c => Sys2Proof.Machine.execCanQueueLoad c s
  | .canRecover w c => Sys2Proof.Machine.execCanRecover w c s
  | .canAbort w c mask => Sys2Proof.Machine.execCanAbort w c mask s
  | .abdStart w c => Sys2Proof.Machine.execAbdStart w c s
  | .canClrCnt w c => Sys2Proof.Machine.execCanClrCnt w c s
  | .canTxreq w c req => Sys2Proof.Machine.execCanTxreq w c req s
  | .mailboxWrite w c m idx val => Sys2Proof.Machine.execMailboxWrite w c m idx val s
  | .hpbRelease w c mask => Sys2Proof.Machine.execHpbRelease w c mask s
  | .toolPlug => Sys2Proof.Machine.execToolPlug s
  | .abdMeasureComplete intervals => Sys2Proof.Machine.execAbdMeasureComplete intervals s
  | .toolUnplug => Sys2Proof.Machine.execToolUnplug s
  | .netLinkChange p up fullDuplexGigabit master => Sys2Proof.Machine.execNetLinkChange p up fullDuplexGigabit master s
  | .switchForward ingress frame => Sys2Proof.Machine.execSwitchForward ingress frame s
  | .fdbAge mac => Sys2Proof.Machine.execFdbAge mac s
  | .flushFdb w => Sys2Proof.Machine.execFlushFdb w s
  | .netClrCnt w => Sys2Proof.Machine.execNetClrCnt w s
  | .ptpSync p source rx origin corr => Sys2Proof.Machine.execPtpSync p source rx origin corr s
  | .announceTimeout => Sys2Proof.Machine.execAnnounceTimeout s
  | .ptpMasterSend => Sys2Proof.Machine.execPtpMasterSend s
  | .pdelayMeasure p t1 t2 t3 t4 corr => Sys2Proof.Machine.execPdelayMeasure p t1 t2 t3 t4 corr s
  | .pdelayResponse p reqSeq source rx => Sys2Proof.Machine.execPdelayResponse p reqSeq source rx s
  | .dlyHoldEnd => Sys2Proof.Machine.execDlyHoldEnd s
  | .timAcceptStep w go => Sys2Proof.Machine.execTimAcceptStep w go s
  | .timeStep => Sys2Proof.Machine.execTimeStep s
  | .schedAdd w => Sys2Proof.Machine.execSchedAdd w s
  | .schedCancel w entry => Sys2Proof.Machine.execSchedCancel w entry s
  | .schedCancelAll w => Sys2Proof.Machine.execSchedCancelAll w s
  | .schedExecute => Sys2Proof.Machine.execSchedExecute s
  | .qspiWrite portB tookUs addr len words crcOk => Sys2Proof.Machine.execQspiWrite portB tookUs addr len words crcOk s
  | .qspiRead portB tookUs addr len => Sys2Proof.Machine.execQspiRead portB tookUs addr len s
  | .qspiStatus portB tookUs => Sys2Proof.Machine.execQspiStatus portB tookUs s
  | .hpConnect certWindow => Sys2Proof.Machine.execHpConnect certWindow s
  | .hpIdleTimeout w => Sys2Proof.Machine.execHpIdleTimeout w s
  | .hpWrite w tag addr len words => Sys2Proof.Machine.execHpWrite w tag addr len words s
  | .hpRead w tag addr len => Sys2Proof.Machine.execHpRead w tag addr len s
  | .hpStatus w tag => Sys2Proof.Machine.execHpStatus w tag s
  | .hpNop w tag => Sys2Proof.Machine.execHpNop w tag s
  | .eventMessage w => Sys2Proof.Machine.execEventMessage w s
  | .regWrite w => Sys2Proof.Machine.execRegWrite w s
  | .regRead w => Sys2Proof.Machine.execRegRead w s
  | .blockWrite w => Sys2Proof.Machine.execBlockWrite w s
  | .blockRead w => Sys2Proof.Machine.execBlockRead w s
  | .ringNop w => Sys2Proof.Machine.execRingNop w s
  | .dspRequest w => Sys2Proof.Machine.execDspRequest w s
  | .dspAccept w => Sys2Proof.Machine.execDspAccept w s
  | .dspDecline w => Sys2Proof.Machine.execDspDecline w s
  | .dspTimeout => Sys2Proof.Machine.execDspTimeout s
  | .recorderFlush => Sys2Proof.Machine.execRecorderFlush s
  | .recorderFlushComplete => Sys2Proof.Machine.execRecorderFlushComplete s
  | .archiveCopy => Sys2Proof.Machine.execArchiveCopy s
  | .recFlush w => Sys2Proof.Machine.execRecFlush w s
  | .audArchive w => Sys2Proof.Machine.execAudArchive w s
  | .audArchiveComplete => Sys2Proof.Machine.execAudArchiveComplete s
  | .audRelease w => Sys2Proof.Machine.execAudRelease w s
  | .recClrCnt w => Sys2Proof.Machine.execRecClrCnt w s
  | .readerCursorWrite w seq => Sys2Proof.Machine.execReaderCursorWrite w seq s
  | .readerFetchComplete w => Sys2Proof.Machine.execReaderFetchComplete w s
  | .readerAdvance w => Sys2Proof.Machine.execReaderAdvance w s
  | .liveCopy => Sys2Proof.Machine.execLiveCopy s
  | .pairFrameReceive bytes => Sys2Proof.Machine.execPairFrameReceive bytes s
  | .renewSend => Sys2Proof.Machine.execRenewSend s
  | .claimSend => Sys2Proof.Machine.execClaimSend s
  | .pairStatusSend => Sys2Proof.Machine.execPairStatusSend s
  | .pairLinkDown => Sys2Proof.Machine.execPairLinkDown s
  | .leaseExpiry => Sys2Proof.Machine.execLeaseExpiry s
  | .witnessClaim => Sys2Proof.Machine.execWitnessClaim s
  | .deferredSelfTest failed => Sys2Proof.Machine.execDeferredSelfTest failed s
  | .parSwap w => Sys2Proof.Machine.execParSwap w s
  | .swapTimeout => Sys2Proof.Machine.execSwapTimeout s
  | .parClrCnt w => Sys2Proof.Machine.execParClrCnt w s
  | .relayOffer p bytes => Sys2Proof.Machine.execRelayOffer p bytes s
  | .offerRetry p => Sys2Proof.Machine.execOfferRetry p s
  | .relayAccept p bytes => Sys2Proof.Machine.execRelayAccept p bytes s
  | .relayData p bytes => Sys2Proof.Machine.execRelayData p bytes s
  | .relayAck p bytes => Sys2Proof.Machine.execRelayAck p bytes s
  | .relayNak p bytes => Sys2Proof.Machine.execRelayNak p bytes s
  | .relayResult p bytes => Sys2Proof.Machine.execRelayResult p bytes s
  | .relayAbort p bytes => Sys2Proof.Machine.execRelayAbort p bytes s
  | .relayAckSend => Sys2Proof.Machine.execRelayAckSend s
  | .relayBlockTimeout => Sys2Proof.Machine.execRelayBlockTimeout s
  | .relayResend p => Sys2Proof.Machine.execRelayResend p s
  | .relayDataTimeout => Sys2Proof.Machine.execRelayDataTimeout s
  | .updSend w session src ports => Sys2Proof.Machine.execUpdSend w session src ports s
  | .updAbort w => Sys2Proof.Machine.execUpdAbort w s
  | .updActivate w => Sys2Proof.Machine.execUpdActivate w s
  | .keyProg w => Sys2Proof.Machine.execKeyProg w s
  | .keyRevoke w => Sys2Proof.Machine.execKeyRevoke w s
  | .healthOk w go => Sys2Proof.Machine.execHealthOk w go s
  | .healthEvent => Sys2Proof.Machine.execHealthEvent s
  | .confirmExpiry => Sys2Proof.Machine.execConfirmExpiry s
  | .keyTouch key => Sys2Proof.Machine.execKeyTouch key s
  | .keyRelease key => Sys2Proof.Machine.execKeyRelease key s
  | .keyStuck key => Sys2Proof.Machine.execKeyStuck key s
  | .lampTest => Sys2Proof.Machine.execLampTest s
  | .backlightTimeout => Sys2Proof.Machine.execBacklightTimeout s
  | .presentLost => Sys2Proof.Machine.execPresentLost s
  | .eject => Sys2Proof.Machine.execEject s
  | .ejectContactorTimeout => Sys2Proof.Machine.execEjectContactorTimeout s
  | .ejectFlushComplete => Sys2Proof.Machine.execEjectFlushComplete s
  | .canErrorDetected c kind dataPhase transmitting => Sys2Proof.Machine.execCanErrorDetected c kind dataPhase transmitting s
  | .canBusJoin c => Sys2Proof.Machine.execCanBusJoin c s
  | .ptpAnnounce p a => Sys2Proof.Machine.execPtpAnnounce p a s
  | .undefinedInstruction t => Sys2Proof.Machine.execUndefinedInstruction t s
  | .qspiOtherOpcode portB tookUs opcode => Sys2Proof.Machine.execQspiOtherOpcode portB tookUs opcode s
  | .usbBadFrame w => Sys2Proof.Machine.execUsbBadFrame w s
  | .ringBadCommand w => Sys2Proof.Machine.execRingBadCommand w s
  | .relayEraseComplete => Sys2Proof.Machine.execRelayEraseComplete s
  | .holdUpExhausted => Sys2Proof.Machine.execHoldUpExhausted s

end Sys2Proof.Machine
end

