-- ==== Sys2Proof/Machine/Tick.lean ====
section
/-!
DEFINITION. One µs without a command: what the module's clocks do of themselves (R18, R39). Whatever else happens in
time is a command of the table, guarded by the time it is due at.
-/

namespace Sys2Proof.Machine

/-- True while the module's own clocks run: it is on, or finishes its power-fail flush. -/
def clocked (s : State) : Bool := s.emb.power == .on || s.emb.power == .flushing

/-- The ns of module time that the Ember domain carries forward with a tick in EMBER (R426). -/
def emberNs (n : Nat) : Nat := (n + 1) * 1000000000 / 32768 - n * 1000000000 / 32768

/-- The Ember tick's counters: OPH in seconds at 17.0 V or above (R76), and the confirmation window in awake time
(R505). -/
def emberCount (s : State) : State :=
  if s.emb.vsup < 1700 then s
  else
    let s := if s.upd.confRun && awake s then { s with upd := { s.upd with cleft := s.upd.cleft - 1 } } else s
    modEmb s fun e =>
      if e.ophAcc + 1 = 32768 then { e with ophAcc := 0, oph := e.oph + 1 } else { e with ophAcc := e.ophAcc + 1 }

/-- One Ember tick of 1/32768 s. -/
def emberTick (s : State) : State :=
  let n := s.emb.ticks
  let s := emberCount (modEmb s fun e => { e with ticks := n + 1 })
  if clocked s && s.emb.mode == .ember then
    modTim s fun x => { x with now := x.now + BitVec.ofNat 64 (emberNs n) }
  else s

/-- The Ember oscillator in one µs; without any supply it stands. -/
def emberClock (s : State) : State :=
  if s.emb.power = .dark then s
  else
    let a := s.emb.tickAcc + 32768
    if a ≥ 1000000 then emberTick (modEmb s fun e => { e with tickAcc := a - 1000000 })
    else modEmb s fun e => { e with tickAcc := a }

/-- The lease counter, which counts every 10 µs (R482). -/
def leaseClock (s : State) : State :=
  if s.par.ctr = 0 then s
  else if s.par.ctrAcc + 1 < 10 then modPar s fun x => { x with ctrAcc := x.ctrAcc + 1 }
  else leaseTick (modPar s fun x => { x with ctrAcc := 0 })

/-- The clocks that stand in EMBER. -/
def awakeClock (s : State) : State :=
  if awake s then
    let s := netTick <| relayDrain { s with lgc := { s.lgc with time := s.lgc.time + 1 } }
    let s := noteIdle (commitStarts (violDue (arbTick s)))
    let s := s.kln.evPend.foldl deliverEvent (commitDue (domsRequested s))
    (List.range 4).foldl evForget s
  else s

/-- One µs. -/
def tick (s : State) : State :=
  let s := emberClock { s with now := s.now + 1 }
  let s := if clocked s && s.emb.mode != .ember then trcSecond (timTick s) else s
  awakeClock (leaseClock s)

end Sys2Proof.Machine
end

