-- ==== Sys2Proof/Safety.lean ====
section
/-!
DEFINITION. The terms in which claims are stated: the invariant of every run, a command that completes, a request that
a window may make, and what a command leaves unchanged.
-/

namespace Sys2Proof.Machine

/-- The invariant of every run: working SRAM is in canonical form, so that equal memories are equal data. -/
def State.Inv (s : State) : Prop := Memory.wf s.mem

/-- Every safety output is off in the lanes. -/
def outputsOff (s : State) : Bool := (List.range 16).all fun j => !soOn s j

/-- The command completes: exec answers a next state, and P holds of it. -/
def Runs (i : Instr) (s : State) (P : State → Prop) : Prop := ∃ t, exec i s = .next t ∧ P t

/-- A request of window w reaches the register at address a, and w holds the right r (R38, R439). -/
abbrev Granted (s : State) (w : Win) (a r : Nat) : Prop :=
  reachable s w = true ∧ accessCode s w a true = .ok ∧ hasRight s w r = true

/-- A request of window w reaches the register at address a, but w lacks the right r. -/
abbrev Unentitled (s : State) (w : Win) (a r : Nat) : Prop :=
  reachable s w = true ∧ accessCode s w a true = .ok ∧ hasRight s w r = false

/-- A request of window w reaches the register at address a, and w is the dispatch owner (R456). -/
abbrev AsOwner (s : State) (w : Win) (a : Nat) : Prop :=
  reachable s w = true ∧ accessCode s w a true = .ok ∧ isOwner s w = true

/-- The window's last result reads OK (R441). -/
def answeredOk (w : Win) (s : State) : State := modWin s w fun x => { x with lastRes := .ok }

/-- The response that R454 gives to a ring command: its type, the result, the word v, and the command's SEQ. -/
def ringAnswer (bs : List Byte) (c : Code) (v : Nat) : Desc :=
  { flags := 0x80, result := c.num, type := byteAt bs 5, len := 8, data := leB 4 v ++ bs.take 4 }

/-- Word a is a register (f, ix) of the field tables and no command, and window w may write to its page. -/
abbrev WriteMeets (s : State) (w : Win) (a v : Nat) (f : RegFam) (ix : List Nat) : Prop :=
  reachable s w = true ∧ accessCode s w a true = .ok ∧ a < 0x10000000 ∧ cmdAt w a v = none ∧
    famIn (famPage (a / 0x10000)) a = some (f, ix)

/-- A QSPI port after a transaction began on it now (R446). -/
abbrev portUsed (s : State) (b : Bool) : State :=
  { s with hst := if b then { s.hst with qUseB := some s.now } else { s.hst with qUseA := some s.now } }

/-- Window w takes part in a latched event: its bit is set where the window is bound (R452). -/
abbrev Noted (s : State) (w bit : Nat) : Prop := bound s w = true → (win s w).ev.getLsbD bit = true

/-- A fault of this cause is latched, and a request for SAFE_STOP stands (R57). -/
abbrev Tripped (t : State) (cause : Nat) : Prop :=
  cause ∈ t.emb.latchFaults ∧ { target := .safeStop, src := .fault cause } ∈ t.emb.reqs

/-- The window's last command answered OK (R441). -/
abbrev Accepted (t : State) (w : Win) : Prop := (win t w).lastRes = .ok

/-- Output j is due for an off-pulse: on for TP_PER since its last, or on the list of an output that is searched (R339,
R341). -/
abbrev PulseDue (s : State) (j : Nat) : Prop :=
  soOn s j = true ∧ ((∃ i : Fin 16, j ∈ (sout s i).highLeft) ∨ (sout s j).lastPulse + 1000000 * (outOf s j).tpPer ≤ s.now)

/-- The parts of the state, for frames; `mem` is working SRAM with the requests at its arbiter. -/
inductive Part where
  | pending | variant | now | fresh | regs | shadow | frozen | kept | mem | flash | tx | kln | crd | emb | chn | mea
  | trc | est | imp | ctl | hrp | thm | saf | lgc | fio | can | tim | hst | recd | par | upd | pnl
  deriving DecidableEq, Repr

/-- A part of two states is the same. -/
def Same (s t : State) : Part → Prop
  | .pending => t.pending = s.pending
  | .variant => t.variant = s.variant
  | .now => t.now = s.now
  | .fresh => t.fresh = s.fresh
  | .regs => t.regs = s.regs
  | .shadow => t.shadow = s.shadow
  | .frozen => t.frozen = s.frozen
  | .kept => t.kept = s.kept
  | .mem => t.mem = s.mem ∧ t.arb = s.arb
  | .flash => t.flash = s.flash
  | .tx => t.tx = s.tx
  | .kln => t.kln = s.kln
  | .crd => t.crd = s.crd
  | .emb => t.emb = s.emb
  | .chn => t.chn = s.chn
  | .mea => t.mea = s.mea
  | .trc => t.trc = s.trc
  | .est => t.est = s.est
  | .imp => t.imp = s.imp
  | .ctl => t.ctl = s.ctl
  | .hrp => t.hrp = s.hrp
  | .thm => t.thm = s.thm
  | .saf => t.saf = s.saf
  | .lgc => t.lgc = s.lgc
  | .fio => t.fio = s.fio
  | .can => t.can = s.can
  | .tim => t.tim = s.tim
  | .hst => t.hst = s.hst
  | .recd => t.recd = s.recd
  | .par => t.par = s.par
  | .upd => t.upd = s.upd
  | .pnl => t.pnl = s.pnl

/-- Every part of the state but those listed is as it was. -/
def Unchanged (except : List Part) (s t : State) : Prop := ∀ p, p ∉ except → Same s t p

/-- A request of window w is turned away with code c at address a: nothing but the window's result changes, and the event
that tells of it (R14, R441, R452). -/
abbrev TurnedAway (s t : State) (w : Win) (c : Code) (a : Nat) : Prop :=
  (win t w).lastRes = c ∧ (win t w).lastAddr = wd a ∧ Unchanged [.hst, .mem] s t

/-- The recorder may write the slot of its staging partition that comes next (R35, R466). -/
abbrev StagingGranted (s : State) : Prop :=
  ∀ p, partOf s .staging = some p → engGrant s .recorder 0 (p.base + 64 * s.recd.slot) 64 = .readWrite

/-- Task k runs on an engine that has power, and i is the instruction at its code offset, a defined form of this opcode
(R355, R360). -/
abbrev Fetched (s : State) (k op : Nat) (i : Ins) : Prop :=
  taskRuns s k = true ∧ fetch s k = some i ∧ i.opc = op ∧ insOk i = true

/-- The first operand W, and the second, as integers of TYPE (R361). -/
abbrev opA (s : State) (k : Nat) (i : Ins) : Int := intVal i.ty (wreg (task s k) i.w)
/-- The second operand. -/
abbrev opB (s : State) (k : Nat) (i : Ins) : Int := intVal i.ty (srcVal (task s k) i)
/-- The operands as REAL or LREAL of format f. -/
abbrev fpA (f : FpFmt) (s : State) (k : Nat) (i : Ins) : Fp := f.unpack (wreg (task s k) i.w % 2 ^ f.width)
/-- The second operand. -/
abbrev fpB (f : FpFmt) (s : State) (k : Nat) (i : Ins) : Fp := f.unpack (srcVal (task s k) i % 2 ^ f.width)
/-- The operands as the bits of TYPE. -/
abbrev bitA (s : State) (k : Nat) (i : Ins) : Nat := wreg (task s k) i.w % 2 ^ tyBits i.ty
/-- The second operand. -/
abbrev bitB (s : State) (k : Nat) (i : Ins) : Nat := srcVal (task s k) i % 2 ^ tyBits i.ty

/-- A value that an integer TYPE holds. -/
abbrev inType (ty : Nat) (r : Int) : Prop :=
  if tySigned ty = true then -(2 ^ (tyBits ty - 1)) ≤ r ∧ r < 2 ^ (tyBits ty - 1) else 0 ≤ r ∧ r < 2 ^ tyBits ty

/-- The instruction wrote v to its W and went on. -/
def wrote (x : Task) (i : Ins) (v : Nat) : Task :=
  { x with w := tset 0 x.w i.w (BitVec.ofNat 64 v), wFi := tset 0 x.wFi i.w 0, pc := x.pc + i.len }

/-- Task k became x; no other task and nothing else changed. -/
abbrev TaskIs (s t : State) (k : Nat) (x : Task) : Prop :=
  task t k = x ∧ (∀ j < 16, j ≠ k → task t j = task s j) ∧ t.lgc = { s.lgc with tasks := t.lgc.tasks } ∧ Unchanged [.lgc] s t

/-- Task k wrote the integer r to W under R361: wrapped to TYPE, with OVF set where TYPE does not hold it. -/
abbrev IntResult (s t : State) (k : Nat) (i : Ins) (r : Int) : Prop :=
  TaskIs s t k { wrote (task s k) i (widen i.ty (twos (tyBits i.ty) r)) with ovf := (task t k).ovf } ∧
    ((task t k).ovf = true ↔ (task s k).ovf = true ∨ ¬ inType i.ty r)

/-- Task k wrote a pattern of format f to W; a NaN with some payload where the result is no number. -/
def RealResult (s t : State) (k : Nat) (i : Ins) (f : FpFmt) (r : Option Nat) : Prop :=
  match r with
  | some v => TaskIs s t k (wrote (task s k) i v)
  | none => (∃ n, task t k = wrote (task s k) i (f.nanBits n)) ∧ (∀ j < 16, j ≠ k → task t j = task s j) ∧
      Unchanged [.lgc, .fresh] s t

/-- Task k halted with a cause, and SAFE_STOP is asked for (R357). -/
abbrev Faulted (t : State) (k cause : Nat) : Prop := (task t k).state = 4 ∧ (task t k).cause = cause ∧ Tripped t 5

/-- The module accepts a frame on the pair link (R481): its CRC, its PAIR_ID, its SEQ and its STRAP are right. -/
abbrev PairOk (s : State) (bs : List Byte) : Prop :=
  paired s = true ∧ s.emb.power ≠ .dark ∧ bs.length = 32 ∧ getLe bs 28 4 = crc32c (bs.take 28) ∧
    getLe bs 8 4 = rd s parId [] ∧
    (∀ o ∈ s.par.rxSeq, inR ((getLe bs 2 2 + 65536 - o) % 65536) 1 32767 = true) ∧
    bitN (byteAt bs 1) 2 = !s.par.strapB

/-- The last frame sent on the pair link has this TYPE, TERM and ECHO, the next SEQ, and a right CRC (R480). -/
abbrev PairSent (s t : State) (type : Nat) (term : Word) (echo : Nat) : Prop :=
  byteAt (tget [] t.tx ifPair) 0 = type ∧ getLe (tget [] t.tx ifPair) 2 2 = (s.par.seq + 1) % 65536 ∧
    getLe (tget [] t.tx ifPair) 4 4 = term.toNat ∧ getLe (tget [] t.tx ifPair) 12 2 = echo ∧
    (tget [] t.tx ifPair).length = 32 ∧
    getLe (tget [] t.tx ifPair) 28 4 = crc32c ((tget [] t.tx ifPair).take 28) ∧ t.par.lastTx = some t.now

/-- A relay frame of this TYPE arrives on a port that carries frames, and its length and CRC are right (R496). -/
abbrev RelayGot (s : State) (p type : Nat) (bs : List Byte) : Prop :=
  portUp s p = true ∧ bs.length = 16 + getLe bs 6 2 ∧ getLe bs 6 2 ≤ 1024 ∧
    getLe bs (12 + getLe bs 6 2) 4 = crc32c (bs.take (12 + getLe bs 6 2)) ∧ byteAt bs 0 = type

/-- The payload of a relay frame. -/
abbrev relayPayload (bs : List Byte) : List Byte := (bs.drop 12).take (getLe bs 6 2)

/-- The last frame sent out of a NET port by the relay. -/
abbrev RelaySent (t : State) (p : Nat) (bs : List Byte) : Prop := tget [] t.tx (ifNet p) = bs

end Sys2Proof.Machine
end

