-- ==== Sys2Proof/WellFormed.lean ====
section
/-!
DEFINITION. Well-formed commands: operands that a sender can produce. A command is total whatever its operands are; this
says which ones the hardware's own frames, words and readings admit.
-/

namespace Sys2Proof

/-- A Cord's content as the loader decodes it: four windows and six retained partitions, rights of the read class with
every bound window, and partitions inside working SRAM (R35, R438, R439). -/
def CordContent.wf (c : CordContent) : Bool :=
  c.windows.length == 4 && c.retained.length == 6 &&
    c.parts.all (fun p => decide (p.base + p.len ≤ 0x1000000)) &&
    c.routes.all (fun r => decide (r.consumers.length ≤ 4)) && decide (c.routes.length ≤ 256) &&
    c.est.all (fun e => decide (3600000 ≤ e.cDef) && decide (e.cDef ≤ 4284000000) && decide (e.soc0 ≤ 65536))

/-- What a start or a verification finds. -/
def BootFacts.wf (b : BootFacts) : Bool := b.content.wf

/-- Well-formed commands. -/
def Instr.wf : Instr → Bool
  | .registerWrite _ _ _ size => size == 1 || size == 2 || size == 4
  | .kindling _ b => b.wf
  | .coldStart b => b.wf
  | .emberCounterSample ia => ia.length == 4
  | .verificationComplete b => b.wf
  | .chainResponse _ bytes _ _ _ => decide (bytes.length ≤ 64)
  | .precisionSample x ctl => x.length == 25 && ctl.length == 25
  | .thermalSample th board => th.length == 8 && !board.isEmpty
  | .safeFrameReceive _ bytes => decide (bytes.length ≤ 64)
  | .stationInputFrame _ bytes => decide (bytes.length ≤ 1500)
  | .canFrameReceive _ f => decide (f.data.length ≤ 64)
  | .abdMeasureComplete iv => iv.length == 15
  | .switchForward _ f => decide (60 ≤ f.length) && decide (f.length ≤ 1518)
  | .qspiWrite _ _ _ len words _ => decide (len < 65536) && decide (4 * words.length ≤ len)
  | .qspiRead _ _ _ len => decide (len < 65536)
  | .hpWrite _ _ _ len words => decide (len < 65536) && decide (words.length = len / 4)
  | .hpRead _ _ _ len => decide (len < 65536)
  | .pairFrameReceive bytes => decide (bytes.length ≤ 1500)
  | .relayOffer _ bytes => decide (bytes.length ≤ 1500)
  | .relayAccept _ bytes => decide (bytes.length ≤ 1500)
  | .relayData _ bytes => decide (bytes.length ≤ 1500)
  | .relayAck _ bytes => decide (bytes.length ≤ 1500)
  | .relayNak _ bytes => decide (bytes.length ≤ 1500)
  | .relayResult _ bytes => decide (bytes.length ≤ 1500)
  | .relayAbort _ bytes => decide (bytes.length ≤ 1500)
  | .loReadLatch .. | .shadowCommit .. | .commit .. | .hold .. | .releaseHold .. | .xovrClr .. | .modeRequest ..
  | .modeEvaluation | .gatedEventDelivery .. | .domainGate .. | .clockFault .. | .agedGrant ..
  | .partitionViolation .. | .kilnEngineFault .. | .ringIndexWrite .. | .ringBlockResume .. | .emberWake ..
  | .prechargeTimeout .. | .rampTimeout | .embAckSafeAck .. | .safAckSafeAck .. | .forceAck .. | .recoveryTimerExpiry
  | .lotoChange .. | .lotoBetweenTimeout | .drowseEntry | .drowseCurrentWake | .qdrwHandover .. | .holdupChange ..
  | .supplyGlitch .. | .pfail .. | .pfailFlushComplete | .eraseIncoming .. | .writeBlock .. | .verifyIncoming ..
  | .verifyRunning .. | .crdActivate .. | .revert .. | .sweepSync .. | .sweepReadStart .. | .chainLoopIdle ..
  | .chainCommandTimeout .. | .broadcastReadClose .. | .enumerate .. | .enumerationComplete .. | .locate ..
  | .locateComplete .. | .chainRejoin .. | .echoRefresh .. | .echoRefreshDue .. | .chnClearCounters ..
  | .sweepClose .. | .owRun .. | .owPeriodic .. | .owSuspectRetest .. | .balHalt .. | .balResume .. | .balanceRun ..
  | .channelFlag .. | .channelReadmit .. | .rotationSlotStart | .rotationSpareConnect .. | .rotationSwitchOut ..
  | .rotationReconnect .. | .rotationSwitchBack .. | .rotHalt .. | .rotResume .. | .inject .. | .injectionStart ..
  | .injectionComplete .. | .isoNow .. | .isoStateEnd .. | .refEvaluation .. | .refExclusion .. | .refFail
  | .warmingEnd | .calAged | .trcEnter .. | .trcLeave .. | .trcVerify .. | .trcAdjust .. | .trcZero ..
  | .delayMeasurementComplete .. | .trcZeroComplete .. | .trcVerifyComplete .. | .trcRefAdjust .. | .trcRefReadmit .. | .anchor .. | .socDisplayUpdate | .cycleUpdate ..
  | .estStringWrite .. | .estLearnedWrite .. | .estNvResume | .resetCells .. | .acceptUid .. | .estFlush ..
  | .impStart .. | .impStop .. | .tzNow .. | .impPause .. | .impResume .. | .impPeriodic .. | .tzPointDue ..
  | .impAutoResume .. | .impPauseTimeout .. | .impTableWrite .. | .contextExecution .. | .pwmPeriodStart ..
  | .ctlInternalFault | .converterResume .. | .convRun .. | .convPark .. | .genStart .. | .genStop ..
  | .generatorEnd .. | .capArm .. | .capStop .. | .capForce .. | .clrLat .. | .coefficientSwap .. | .bankWordWrite ..
  | .dispatchSetpointWrite .. | .forceWrite .. | .thermalSlowMode | .rateEvaluation | .riseTripClear
  | .recoveryPeriodEnd | .thermalCanFrame | .safetyCycle .. | .laneDegradedTimeout | .laneSelfTestComplete ..
  | .safetyWatchdog | .summaryTimeout .. | .testPulseRead .. | .offPulse | .offPulseReadback .. | .offPulseEnd
  | .outfAck .. | .weldAck .. | .supplyLost | .prechargePoll .. | .prechargeKpOpen .. | .weldCheckPoll ..
  | .weldTimeout .. | .safeFrameSend .. | .safeConnectionLost .. | .taskDue .. | .eventTaskTrigger .. | .taskStart ..
  | .taskWatchdog .. | .lgcNop .. | .lgcLd .. | .lgcSt .. | .lgcMovb .. | .lgcAdd .. | .lgcSub .. | .lgcMul ..
  | .lgcDiv .. | .lgcMod .. | .lgcNeg .. | .lgcAbs .. | .lgcAnd .. | .lgcOr .. | .lgcXor .. | .lgcNot .. | .lgcShl ..
  | .lgcShr .. | .lgcRol .. | .lgcRor .. | .lgcCmp .. | .lgcMin .. | .lgcMax .. | .lgcLimit .. | .lgcSel ..
  | .lgcJmp .. | .lgcJc .. | .lgcJnc .. | .lgcCall .. | .lgcRet .. | .lgcCvt .. | .lgcTmr .. | .lgcTrig ..
  | .lgcCtr .. | .lgcRdedge .. | .lgcSys .. | .lgcEnd .. | .lgcNvResume | .forceSet .. | .forceClr ..
  | .forceClrAll .. | .olcApply .. | .olcSwitch | .olcTimeout | .lgcClrCnt .. | .stationOutputFrame ..
  | .stationLost .. | .debounceChange .. | .fioFrameSend .. | .fioFrameReceive .. | .fioFrameMissing
  | .outputOverload .. | .outputRetry .. | .flLowDetect | .flRecover | .fltAck .. | .ovlAck .. | .fioClrCnt ..
  | .canArbitration .. | .canTxComplete .. | .canBusOffRecovery .. | .canQueueLoad .. | .canRecover .. | .canAbort ..
  | .abdStart .. | .canClrCnt .. | .canTxreq .. | .mailboxWrite .. | .hpbRelease .. | .toolPlug | .toolUnplug
  | .netLinkChange .. | .fdbAge .. | .flushFdb .. | .netClrCnt .. | .ptpSync .. | .announceTimeout | .ptpMasterSend
  | .pdelayMeasure .. | .pdelayResponse .. | .dlyHoldEnd | .timAcceptStep .. | .timeStep | .schedAdd ..
  | .schedCancel .. | .schedCancelAll .. | .schedExecute | .qspiStatus .. | .hpConnect .. | .hpIdleTimeout ..
  | .hpStatus .. | .hpNop .. | .eventMessage .. | .regWrite .. | .regRead .. | .blockWrite .. | .blockRead ..
  | .ringNop .. | .dspRequest .. | .dspAccept .. | .dspDecline .. | .dspTimeout | .recorderFlush
  | .recorderFlushComplete | .archiveCopy | .recFlush .. | .audArchive .. | .audArchiveComplete | .audRelease ..
  | .recClrCnt .. | .readerCursorWrite .. | .readerFetchComplete .. | .readerAdvance .. | .liveCopy | .renewSend
  | .claimSend | .pairStatusSend | .pairLinkDown | .leaseExpiry | .witnessClaim | .deferredSelfTest .. | .parSwap ..
  | .swapTimeout | .parClrCnt .. | .offerRetry .. | .relayAckSend | .relayBlockTimeout | .relayResend ..
  | .relayDataTimeout | .updSend .. | .updAbort .. | .updActivate .. | .keyProg .. | .keyRevoke .. | .healthOk ..
  | .healthEvent | .confirmExpiry | .keyTouch .. | .keyRelease .. | .keyStuck .. | .lampTest | .backlightTimeout
  | .presentLost | .eject | .ejectContactorTimeout | .ejectFlushComplete | .canErrorDetected .. | .canBusJoin ..
  | .ptpAnnounce .. | .undefinedInstruction .. | .qspiOtherOpcode .. | .usbBadFrame .. | .ringBadCommand ..
  | .relayEraseComplete | .holdUpExhausted => true

end Sys2Proof
end

