-- ==== Sys2Proof/Certificates/Slice0/Obligations.lean ====
section
/-!
DEFINITION. The statements for the provers, from the spec's numbered rules. A statement says which command completes,
in which states, what its own effect is, and what it leaves; values that the spec leaves open stay open in it.
-/

open Sys2Proof Sys2Proof.Machine

/-! ### The step and the clocks -/

/-- A step takes the command at the front of the queue and answers what exec makes of it on the rest (R440: requests
are applied in the order in which they arrive). -/
def Obligations.StepRunsFront : Prop :=
  ∀ (c : Instr) (rest : List Instr) (s : State), step { s with pending := c :: rest } = exec c { s with pending := rest }

/-- With no command waiting, a step lets one µs pass (the model's choice, notes/assumptions/4.md): the uptime goes on by
one, the queue stays empty, the mode stays, the lease counter does not grow, and no Cord slot, no key slot, no byte of the
Cord flash, no configured or retained value, no impedance sweep, no CAN controller, no field input or output and no panel
key changes. -/
def Obligations.IdleStepLetsOneMicrosecondPass : Prop :=
  ∀ s : State, s.pending = [] →
    ∃ t, step s = .next t ∧ t.now = s.now + 1 ∧ t.pending = [] ∧
      t.emb.mode = s.emb.mode ∧ t.par.ctr ≤ s.par.ctr ∧
      Unchanged [.now, .regs, .shadow, .mem, .tx, .kln, .emb, .chn, .mea, .trc, .est, .ctl, .hrp, .thm, .saf, .lgc, .tim, .hst,
        .recd, .par, .upd] s t

/-- The state right after reset meets the invariant of every run. -/
def Obligations.ResetIsCanonical : Prop := State.reset.Inv

/-- Every step that answers a next state keeps working SRAM in its canonical form: no byte listed twice, out of order,
or with the value that an unlisted byte reads as. -/
def Obligations.StepKeepsSramCanonical : Prop :=
  ∀ s t : State, s.Inv → step s = .next t → t.Inv

/-- The module before its first cold start: dark, with nothing commanded on, no Cord, LOTO at LOCK and no command
waiting (R63, R71; values that the spec leaves open are those of notes/assumptions/2.md). -/
def Obligations.ResetIsDark : Prop :=
  State.reset.emb.power = .dark ∧ State.reset.emb.mode = .ember ∧ outputsOff State.reset = true ∧
    hasCord State.reset = false ∧ lotoPos State.reset = .lock ∧ State.reset.pending = []

/-! ### Windows (R10, R77, R441, R443 to R451) -/

/-- A register write through a window: live fields change at once, shadowed ones in the shadow copy, frozen ones in the
configuration, and no other register changes; WIN_LASTRES reads OK. A window without the right, a frozen field changed
outside CONFIGURE, a value out of range, an unused address, a width below 32 bits, a page not granted and the retained
store are refused, the word then having no effect and WIN_LASTRES and WIN_LASTADDR holding code and address; a register
that only the module writes, or of an instance that is not fitted, ignores the write. A command word runs its command; a
word of an SRAM partition granted read and write is stored. A read of a LO word latches its HI word (R5, R10, R12, R14,
R36, R46, R77, R99, R101, R441). A write that leaves a frozen field as it is does not set DIVERGED (the model's choice,
notes/assumptions/70.md). -/
def Obligations.RegisterAccessOfAWindow : Prop :=
  (∀ (w : Win) (a v : Word) s f ix, WriteMeets s w a.toNat v.toNat f ix →
    (f.base ≠ ctlCvmode.base → hasRight s w f.right = true) →
    (f.base = ctlCvmode.base → hasRight s w rCfg = true ∧ fld v.toNat 31 30 = fld (rdPending s f 0 ix) 31 30) →
    present s (f.part ix).1 (f.part ix).2 = true → f.check s ix (v.toNat &&& f.rw) = .ok →
    (s.emb.mode = .configure ∨ v.toNat &&& f.frozen = rdFrozen s f w ix &&& f.frozen) →
    Runs (.registerWrite w a v 4) s fun t => Accepted t w ∧
      rdw t f w ix &&& f.live = v.toNat &&& f.live ∧ rdShadow t f w ix &&& f.shadow = v.toNat &&& f.shadow ∧
      rdFrozen t f w ix &&& f.frozen = v.toNat &&& f.frozen ∧
      (t.crd.diverged = true ↔ s.crd.diverged = true ∨ v.toNat &&& f.frozen ≠ rdFrozen s f w ix &&& f.frozen) ∧
      (∀ (g : RegFam) (u : Win) jx, regKey g u jx ≠ regKey f w ix →
        rdw t g u jx = rdw s g u jx ∧ rdShadow t g u jx = rdShadow s g u jx ∧ rdFrozen t g u jx = rdFrozen s g u jx) ∧
      (f.base ≠ meaRotcfg.base → t.mea = s.mea) ∧ Unchanged [.regs, .shadow, .frozen, .kept, .crd, .mea, .hst] s t) ∧
  (∀ (w : Win) (a v : Word) s f ix, WriteMeets s w a.toNat v.toNat f ix → f.base ≠ ctlCvmode.base →
    hasRight s w f.right = false →
    Runs (.registerWrite w a v 4) s fun t => TurnedAway s t w .refusedRights a.toNat) ∧
  (∀ (w : Win) (a v : Word) s f ix, WriteMeets s w a.toNat v.toNat f ix → f.base ≠ ctlCvmode.base →
    hasRight s w f.right = true → present s (f.part ix).1 (f.part ix).2 = false →
    Runs (.registerWrite w a v 4) s fun t => Accepted t w ∧ Unchanged [.hst] s t) ∧
  (∀ (w : Win) (a v : Word) s f ix, WriteMeets s w a.toNat v.toNat f ix → f.base ≠ ctlCvmode.base →
    hasRight s w f.right = true → present s (f.part ix).1 (f.part ix).2 = true → s.emb.mode ≠ .configure →
    v.toNat &&& f.frozen ≠ rdFrozen s f w ix &&& f.frozen →
    Runs (.registerWrite w a v 4) s fun t => TurnedAway s t w .frozen a.toNat) ∧
  (∀ (w : Win) (a v : Word) s f ix, WriteMeets s w a.toNat v.toNat f ix → f.base ≠ ctlCvmode.base →
    hasRight s w f.right = true → present s (f.part ix).1 (f.part ix).2 = true →
    (s.emb.mode = .configure ∨ v.toNat &&& f.frozen = rdFrozen s f w ix &&& f.frozen) →
    f.check s ix (v.toNat &&& f.rw) = .range →
    Runs (.registerWrite w a v 4) s fun t => TurnedAway s t w .range a.toNat) ∧
  (∀ (w : Win) (a v : Word) s, reachable s w = true → accessCode s w a.toNat true = .ok → a.toNat < 0x10000000 →
    cmdAt w a.toNat v.toNat = none → famIn (famPage (a.toNat / 0x10000)) a.toNat = none →
    Runs (.registerWrite w a v 4) s fun t =>
      if (roIn (roPage (a.toNat / 0x10000)) a.toNat).isSome = true then Accepted t w ∧ Unchanged [.hst] s t
      else TurnedAway s t w .range a.toNat) ∧
  (∀ (w : Win) (a v : Word) s op, reachable s w = true → accessCode s w a.toNat true = .ok → a.toNat < 0x10000000 →
    cmdAt w a.toNat v.toNat = some op → exec (.registerWrite w a v 4) s = .next (hostCmd w a.toNat op s)) ∧
  (∀ (w : Win) (a v : Word) s, reachable s w = true → accessCode s w a.toNat true = .ok →
    a.toNat / 0x10000000 = 1 → sramGrant s w (a.toNat - 0x10000000) = .readWrite →
    Runs (.registerWrite w a v 4) s fun t => Accepted t w ∧
      t.mem = memWrite s.mem (a.toNat - 0x10000000) (leB 4 v.toNat) ∧ Unchanged [.mem, .hst] s t) ∧
  (∀ (w : Win) (a v : Word) s, reachable s w = true → accessCode s w a.toNat true = .ok → 2 ≤ a.toNat / 0x10000000 →
    Runs (.registerWrite w a v 4) s fun t => TurnedAway s t w .refusedRights a.toNat) ∧
  (∀ (w : Win) (a v : Word) s, reachable s w = true → accessCode s w a.toNat true ≠ .ok →
    Runs (.registerWrite w a v 4) s fun t => TurnedAway s t w (accessCode s w a.toNat true) a.toNat) ∧
  (∀ (w : Win) (a v : Word) (n : Nat) s, reachable s w = true → accessCode s w a.toNat true = .ok → n ≠ 4 →
    Runs (.registerWrite w a v n) s fun t => TurnedAway s t w .range a.toNat) ∧
  (∀ (w : Win) (a v : Word) (n : Nat) s, reachable s w = false → exec (.registerWrite w a v n) s = .next s) ∧
  (∀ (w : Win) (a : Word) s, reachable s w = true → accessCode s w a.toNat false = .ok → isLo a.toNat = true →
    Runs (.loReadLatch w a) s fun t => tget none (win t w).latch a.toNat = some (wd (pageWord s w (a.toNat + 4)).2) ∧
      (win t w).lastRes = (win s w).lastRes ∧ Unchanged [.hst] s t) ∧
  (∀ (w : Win) s, reachable s w = true → accessCode s w 0x120008 false = .ok →
    Runs (.loReadLatch w 0x120008) s fun t =>
      tget none (win t w).latch 0x120008 = some (wd (s.tim.now.toNat / 2 ^ 32)) ∧ Unchanged [.hst] s t)

/-- The requests of a QSPI port whose HRDY is high: a WRITE whose trailer passes applies its words and HRDY then stays low
within its bound; a failing trailer applies none and counts; a READ answers its words; a STATUS answers the masked events and
WIN_LASTRES; another opcode sets RANGE and counts; a transaction begun while HRDY was low is ignored (R441, R443 to
R446). -/
def Obligations.QspiTransactionsAreServed : Prop :=
  (∀ (b : Bool) (us : Nat) (a : Word) len (ws : List Word) s (w : Win) c u, qspiWin s b = some w → hrdyAt s b + us ≤ s.now →
    lenOk a.toNat len = true → 4 * ws.length = len →
    writeReq w a.toNat len (ws.map (·.toNat)) (portUsed s b) = (c, u) →
    Runs (.qspiWrite b us a len ws true) s fun t => u.now ≤ hrdyAt t b ∧ hrdyAt t b ≤ u.now + hrdyMax s a.toNat len ∧
      t.hst.wins = u.hst.wins ∧ t.hst.rings = u.hst.rings ∧ Unchanged [.hst, .fresh] u t) ∧
  (∀ (b : Bool) (us : Nat) (a : Word) len (ws : List Word) s (w : Win), qspiWin s b = some w → hrdyAt s b + us ≤ s.now →
    lenOk a.toNat len = true →
    Runs (.qspiWrite b us a len ws false) s fun t =>
      (win t w).lastRes = .checkFail ∧ (win t w).lastAddr = a ∧ Unchanged [.hst, .mem] s t ∧
      (if b then t.hst.qCrcB = min 65535 (s.hst.qCrcB + 1) ∧ t.hst.qCrcA = s.hst.qCrcA
        else t.hst.qCrcA = min 65535 (s.hst.qCrcA + 1) ∧ t.hst.qCrcB = s.hst.qCrcB)) ∧
  (∀ (b : Bool) (us : Nat) (a : Word) len s (w : Win), qspiWin s b = some w → hrdyAt s b + us ≤ s.now →
    lenOk a.toNat len = true →
    Runs (.qspiRead b us a len) s fun t => ∃ u vs c, readReq w a.toNat len (portUsed s b) = (c, vs, u) ∧
      (win t w).reply = vs.map wd ∧ (win t w).replyRes = c ∧ tget [] t.tx (ifQspi b) =
        readBytes len vs ++ leB 2 (crc16 (qspiHead 0x0B a len ++ readBytes len vs)) ∧ Unchanged [.tx, .hst] u t) ∧
  (∀ (b : Bool) (us : Nat) s (w : Win), qspiWin s b = some w → hrdyAt s b + us ≤ s.now →
    Runs (.qspiStatus b us) s fun t =>
      tget [] t.tx (ifQspi b) = statusBytes s w ++ leB 2 (crc16 ([0x05] ++ statusBytes s w)) ∧
      (win t w).lastRes = (win s w).lastRes ∧ Unchanged [.tx, .hst] s t) ∧
  (∀ (b : Bool) (us : Nat) (opc : Byte) s (w : Win), qspiWin s b = some w → hrdyAt s b + us ≤ s.now →
    opc ≠ 0x02 → opc ≠ 0x0B → opc ≠ 0x05 →
    Runs (.qspiOtherOpcode b us opc) s fun t => (win t w).lastRes = .range ∧ Unchanged [.hst, .mem] s t ∧
      (if b then t.hst.qProtoB = min 65535 (s.hst.qProtoB + 1) ∧ t.hst.qProtoA = s.hst.qProtoA
        else t.hst.qProtoA = min 65535 (s.hst.qProtoA + 1) ∧ t.hst.qProtoB = s.hst.qProtoB)) ∧
  (∀ (b : Bool) (us : Nat) (a : Word) len (ws : List Word) (ok : Bool) s (w : Win), qspiWin s b = some w →
    s.now < hrdyAt s b + us →
    Runs (.qspiWrite b us a len ws ok) s fun t => (win t w).lastRes = .busy ∧ Unchanged [.hst, .mem] s t ∧
      (if b then t.hst.qProtoB = min 65535 (s.hst.qProtoB + 1) else t.hst.qProtoA = min 65535 (s.hst.qProtoA + 1)))

/-- The host protocol over Ethernet and USB: a connection opens for the window its client matches, and closes after
HP_IDLE without a message; WRITE, READ, STATUS and NOP are answered with OPC + 0x80 and the same TAG; an EVENT message
carries the masked events; a bad USB frame is counted (R449 to R452).
A message that is turned away: a window's second connection, and a client that matches no window (R449). -/
def Obligations.HostMessagesAreServed : Prop :=
  ((∀ (w : Win) s, awake s = true → (winBind s w).transport = .ethernet → (win s w).conn = false →
    Runs (.hpConnect (some w)) s fun t =>
      (win t w).conn = true ∧ (win t w).lastMsg = s.now ∧ t.hst.owner = s.hst.owner ∧ Unchanged [.hst] s t) ∧
  (∀ (w : Win) s, (win s w).conn = true → (win s w).lastMsg + 1000000 * rdf s hstHpcfg [] 31 16 ≤ s.now →
    Runs (.hpIdleTimeout w) s fun t => (win t w).conn = false ∧ t.hst.owner = s.hst.owner ∧ Unchanged [.hst] s t) ∧
  (∀ (w : Win) (tag : BitVec 16) (a : Word) len (ws : List Word) s c u, carries s w = true → writeReq w a.toNat len (ws.map (·.toNat)) (msgIn w s) = (c, u) →
    Runs (.hpWrite w tag a len ws) s fun t =>
      tget [] t.tx (ifHost w) = hostMsg u w 0x82 tag.toNat a.toNat c [] ∧ Unchanged [.tx] u t) ∧
  (∀ (w : Win) (tag : BitVec 16) (a : Word) len s c vs u, carries s w = true → readReq w a.toNat len (msgIn w s) = (c, vs, u) →
    Runs (.hpRead w tag a len) s fun t =>
      tget [] t.tx (ifHost w) = hostMsg u w 0x8B tag.toNat a.toNat c (readBytes len vs) ∧
      (win t w).reply = vs.map wd ∧ (win t w).replyRes = c ∧ Unchanged [.tx, .hst] u t) ∧
  (∀ (w : Win) (tag : BitVec 16) s, carries s w = true →
    Runs (.hpStatus w tag) s fun t =>
      tget [] t.tx (ifHost w) = hostMsg s w 0x85 tag.toNat 0 .ok (statusBytes s w) ∧
      (win t w).lastMsg = s.now ∧ (win t w).lastRes = (win s w).lastRes ∧ Unchanged [.tx, .hst] s t) ∧
  (∀ (w : Win) (tag : BitVec 16) s, carries s w = true →
    Runs (.hpNop w tag) s fun t =>
      tget [] t.tx (ifHost w) = hostMsg s w 0xA1 tag.toNat 0 .ok [] ∧
      (win t w).lastMsg = s.now ∧ (win t w).lastRes = (win s w).lastRes ∧ Unchanged [.tx, .hst] s t) ∧
  (∀ (w : Win) s, carries s w = true → wd (winAttn s w) &&& ~~~ (win s w).evSent ≠ 0 →
    (∀ t0, (win s w).evSentAt = some t0 → t0 + 1000 ≤ s.now) →
    Runs (.eventMessage w) s fun t =>
      tget [] t.tx (ifEvent w) = hostMsg s w 0x20 0 0 .ok (leB 4 (wd (winAttn s w)).toNat) ∧
      (win t w).evSent = wd (winAttn s w) ∧ Unchanged [.tx, .hst] s t) ∧
  (∀ (w : Win) s, carries s w = true → onUsb s w = true →
    Runs (.usbBadFrame w) s fun t => t.hst.usbErr = min 65535 (s.hst.usbErr + 1) ∧ t.hst.wins = s.hst.wins ∧
      t.hst.rings = s.hst.rings ∧ Unchanged [.hst] s t)) ∧
  ((∀ (w : Win) s, (win s w).conn = true → exec (.hpConnect (some w)) s = .next s) ∧
  (∀ s, exec (.hpConnect none) s = .next s))

/-! ### Rings and dispatch ownership (R48 to R54, R453, R454, R457) -/

/-- The module's entry in a ring: with room it is written at base + 32 × (head mod depth) with the ring's SEQ and the
module time, and head and SEQ advance; on a full ring BLOCK keeps it waiting, DROP discards it, counts it and marks a
GAP, STOP discards it and enters OVERFLOW, in which every entry is discarded and counted; a waiting entry goes out when the
ring has room, and none overtakes it (R48, R49, R52). -/
def Obligations.RingEntryFollowsPolicy : Prop :=
  (∀ (s : State) (r : Nat) (d : Desc), ringLive s r = true →
    ((ring s r).overflow = false → ringFill (ring s r) < ringDepth s r → (ring s r).waiting = [] →
      (ringPut s r d).1 = true ∧
      (ringPut s r d).2.mem = memWrite s.mem (rdf s hstRbase [r] 23 0 + 32 * ((ring s r).head.toNat % ringDepth s r))
        (d.bytes (ring s r).seq.toNat s.tim.now.toNat (ring s r).gap) ∧
      ring (ringPut s r d).2 r = { ring s r with head := (ring s r).head + 1, seq := (ring s r).seq + 1, gap := false }) ∧
    ((ring s r).overflow = false → (ringDepth s r ≤ ringFill (ring s r) ∨ (ring s r).waiting ≠ []) →
      (ringPut s r d).1 = false ∧ (ringPut s r d).2.mem = s.mem ∧
      (ringPolicy s r = 0 → ring (ringPut s r d).2 r =
        { ring s r with waiting := (ring s r).waiting ++ [d.bytes 0 s.tim.now.toNat false] }) ∧
      (ringPolicy s r = 1 → ring (ringPut s r d).2 r =
        { ring s r with seq := (ring s r).seq + 1, drop := inc32 (ring s r).drop, gap := true }) ∧
      (ringPolicy s r ≥ 2 → ring (ringPut s r d).2 r =
        { ring s r with overflow := true, drop := inc32 (ring s r).drop })) ∧
    ((ring s r).overflow = true →
      (ringPut s r d).1 = false ∧ (ringPut s r d).2.mem = s.mem ∧
      ring (ringPut s r d).2 r = { ring s r with drop := inc32 (ring s r).drop }) ∧
    (∀ q, q ≠ r → ring (ringPut s r d).2 q = ring s q) ∧ Unchanged [.hst, .mem] s (ringPut s r d).2) ∧
  (∀ (r : Fin 64) (bs : List Byte) (rest : List (List Byte)) (s : State), (ring s r).waiting = bs :: rest →
    ringLive s r = true → ringFill (ring s r) < ringDepth s r →
    Runs (.ringBlockResume r) s fun t =>
      ring t r = { ring s r with head := (ring s r).head + 1, seq := (ring s r).seq + 1, gap := false, waiting := rest } ∧
      t.mem = memWrite s.mem (ringEntry s r (ring s r).head) (restamp (ring s r) s.tim.now.toNat bs) ∧
      Unchanged [.hst, .mem] s t)

/-- Indices: the module writes an entry at head mod depth and then advances head, and takes one at tail mod depth and then
advances tail; a ring with head equal to tail is empty, one whose difference is the depth is full and takes nothing
more; the host writes its own index alone, and a value past the other side's reach has no effect and is RANGE; an alarm ring that
its consumer drained out of OVERFLOW carries RESYNC next, and ALOST restarts at 0 (R48, R169). -/
def Obligations.RingsAreIndexedByHeadAndTail : Prop :=
  (∀ (s : State) (r : Nat) (d : Desc), ringLive s r = true → (ring s r).overflow = false →
    ringFill (ring s r) < ringDepth s r → (ring s r).waiting = [] →
    (ringPut s r d).2.mem = memWrite s.mem (rdf s hstRbase [r] 23 0 + 32 * ((ring s r).head.toNat % ringDepth s r))
      (d.bytes (ring s r).seq.toNat s.tim.now.toNat (ring s r).gap) ∧
    (ring (ringPut s r d).2 r).head = (ring s r).head + 1 ∧ (ring (ringPut s r d).2 r).tail = (ring s r).tail) ∧
  (∀ (s : State) (r : Nat) (d : Desc), ringDepth s r = ((ring s r).head - (ring s r).tail).toNat →
    (ringPut s r d).2.mem = s.mem ∧ (ring (ringPut s r d).2 r).head = (ring s r).head ∧
    (ring (ringPut s r d).2 r).tail = (ring s r).tail) ∧
  (∀ (s : State) (r : Nat), 0 < ringDepth s r → (ring s r).head ≠ (ring s r).tail →
    ringFront s r = some (memRead s.mem (rdf s hstRbase [r] 23 0 + 32 * ((ring s r).tail.toNat % ringDepth s r)) 32) ∧
    (ring (ringPop s r) r).tail = (ring s r).tail + 1 ∧ (ring (ringPop s r) r).head = (ring s r).head ∧
    (ringPop s r).mem = s.mem) ∧
  (∀ (s : State) (r : Nat), (ring s r).head = (ring s r).tail → ringFront s r = none) ∧
  (∀ (w : Win) (r : Fin 64) (v : Word) (s : State), reachable s w = true →
    accessCode s w (0x131008 + 0x20 * r.val) true = .ok → ringWin s r = some w.val → ringHost s r = true →
    (v - (ring s r).tail).toNat ≤ ringDepth s r →
    Runs (.ringIndexWrite w r false v) s fun t => ring t r = { ring s r with head := v } ∧ (win t w).lastRes = .ok ∧
      (∀ q, q ≠ r.val → ring t q = ring s q) ∧ Unchanged [.hst] s t) ∧
  (∀ (w : Win) (r : Fin 64) (v : Word) (s : State), reachable s w = true →
    accessCode s w (0x13100C + 0x20 * r.val) true = .ok → ringWin s r = some w.val → ringHost s r = false →
    (v - (ring s r).tail).toNat ≤ ((ring s r).head - (ring s r).tail).toNat →
    ((ring s r).overflow = false ∨ v ≠ (ring s r).head ∨ r.val < 20 ∨ 23 < r.val) →
    Runs (.ringIndexWrite w r true v) s fun t =>
      (ring t r).overflow = ((ring s r).overflow && (ring s r).head != v) ∧ (ring t r).tail = v ∧
      (ring t r).head = (ring s r).head ∧
      (win t w).lastRes = .ok ∧ (∀ q, q ≠ r.val → ring t q = ring s q) ∧ Unchanged [.hst] s t) ∧
  (∀ (w : Win) (k : Fin 4) (r : Fin 64) (s : State), r.val = 20 + k.val → reachable s w = true →
    accessCode s w (0x13100C + 0x20 * r.val) true = .ok → ringWin s r = some w.val → ringHost s r = false →
    (ring s r).overflow = true → (ring s r).waiting = [] → ringLive s r = true →
    Runs (.ringIndexWrite w r true (ring s r).head) s fun t => (win t w).lastRes = .ok ∧
      (ring t r).tail = (ring s r).head ∧ (ring t r).overflow = false ∧
      (ring t r).head = (ring s r).head + 1 ∧ (lp t k).alost = 0 ∧
      (memRead t.mem (ringEntry s r (ring s r).head + 5) 1 = [0x3F]) ∧
      Unchanged [.hst, .mem, .chn] s t) ∧
  (∀ (w : Win) (r : Fin 64) (isTail : Bool) (v : Word) (s : State), reachable s w = true →
    accessCode s w ((if isTail then 0x13100C else 0x131008) + 0x20 * r.val) true = .ok → ringWin s r = some w.val →
    ringHost s r = !isTail →
    (if isTail then ((ring s r).head - (ring s r).tail).toNat else ringDepth s r) < (v - (ring s r).tail).toNat →
    Runs (.ringIndexWrite w r isTail v) s fun t => (win t w).lastRes = .range ∧ (ring t r).tail = (ring s r).tail ∧
      (r.val ≠ 4 * w.val + 2 → ring t r = ring s r) ∧ Unchanged [.hst, .mem] s t) ∧
  (∀ (w : Win) (r : Fin 64) (isTail : Bool) (v : Word) (s : State), reachable s w = true →
    accessCode s w ((if isTail then 0x13100C else 0x131008) + 0x20 * r.val) true = .ok →
    (ringWin s r ≠ some w.val ∨ ringHost s r = isTail) →
    Runs (.ringIndexWrite w r isTail v) s fun t => (win t w).lastRes = .refusedRights ∧
      (ring t r).tail = (ring s r).tail ∧ (r.val ≠ 4 * w.val + 2 → ring t r = ring s r) ∧ Unchanged [.hst, .mem] s t)

/-- The module takes one command of a window's command ring, runs it as a request of the window, and writes one response
with the command's type, the result and its SEQ; a payload buffer is read and written under the window's grant, and one
outside its buffer partition is CHECK_FAIL (R51, R454). -/
def Obligations.RingCommandsAreAnswered : Prop :=
  (∀ (w : Win) (s : State) (bs : List Byte) (c : Code) (u : State), ringCmd s w = some bs → cmdIs bs 1 = true →
    writeReq w (getLe bs 24 4) 4 [getLe bs 28 4] (ringPop s (4 * w)) = (c, u) →
    exec (.regWrite w) s = .next (ringPut u (4 * w + 1) (ringAnswer bs c (getLe bs 24 4))).2) ∧
  (∀ (w : Win) (s : State) (bs : List Byte) (c : Code) (v : Nat) (u : State), ringCmd s w = some bs → cmdIs bs 2 = true →
    readReq w (getLe bs 24 4) 4 (ringPop s (4 * w)) = (c, [v], u) →
    exec (.regRead w) s = .next (ringPut u (4 * w + 1) (ringAnswer bs c v)).2) ∧
  (∀ (w : Win) (s : State) (bs : List Byte) (c : Code) (u : State), ringCmd s w = some bs → cmdIs bs 3 = true →
    lenOk (getLe bs 24 4) (getLe bs 20 2) = true → cmdBuf (ringPop s (4 * w)) w bs = true →
    writeReq w (getLe bs 24 4) (getLe bs 20 2)
      (bytesWords (getLe bs 20 2 / 4) (engRead (ringPop s (4 * w)) .host w (getLe bs 16 4) (getLe bs 20 2)).1)
      (engRead (ringPop s (4 * w)) .host w (getLe bs 16 4) (getLe bs 20 2)).2 = (c, u) →
    exec (.blockWrite w) s = .next (ringPut u (4 * w + 1) (ringAnswer bs c (getLe bs 24 4))).2) ∧
  (∀ (w : Win) (s : State) (bs : List Byte) (c : Code) (vs : List Nat) (u : State), ringCmd s w = some bs →
    cmdIs bs 4 = true → lenOk (getLe bs 24 4) (getLe bs 20 2) = true → cmdBuf (ringPop s (4 * w)) w bs = true →
    readReq w (getLe bs 24 4) (getLe bs 20 2) (ringPop s (4 * w)) = (c, vs, u) →
    exec (.blockRead w) s =
      .next (ringPut (engStore u .host w (getLe bs 16 4) (wordBytes vs)) (4 * w + 1) (ringAnswer bs c (getLe bs 24 4))).2) ∧
  (∀ (w : Win) (s : State) (bs : List Byte), ringCmd s w = some bs → cmdIs bs 3 = true →
    lenOk (getLe bs 24 4) (getLe bs 20 2) = true → cmdBuf (ringPop s (4 * w)) w bs = false →
    exec (.blockWrite w) s = .next (ringPut (winEvent (ringPop s (4 * w)) w 15 7) (4 * w + 1)
      (ringAnswer bs .checkFail (getLe bs 24 4))).2) ∧
  (∀ (w : Win) (s : State) (bs : List Byte), ringCmd s w = some bs → cmdIs bs 4 = true →
    lenOk (getLe bs 24 4) (getLe bs 20 2) = true → cmdBuf (ringPop s (4 * w)) w bs = false →
    exec (.blockRead w) s = .next (ringPut (winEvent (ringPop s (4 * w)) w 15 7) (4 * w + 1)
      (ringAnswer bs .checkFail (getLe bs 24 4))).2) ∧
  (∀ (w : Win) (s : State) (bs : List Byte), ringCmd s w = some bs → cmdIs bs 5 = true →
    exec (.ringNop w) s = .next (ringPut (ringPop s (4 * w)) (4 * w + 1) (ringAnswer bs .ok 0)).2) ∧
  (∀ (w : Win) (s : State) (bs : List Byte), ringCmd s w = some bs → cmdBad bs = true → byteAt bs 5 = 1 →
    exec (.ringBadCommand w) s = .next (ringPut (winEvent (ringPop s (4 * w)) w 15 7) (4 * w + 1)
      (ringAnswer bs .checkFail (getLe bs 24 4))).2)

/-- Dispatch ownership moves by REQUEST and ACCEPT alone; DECLINE and the expiry of DSP_TMO leave the owner (R457). -/
def Obligations.DispatchOwnershipMovesByAccept : Prop :=
  (∀ (w : Win) (s : State), Granted s w 0x34 rDsp → isOwner s w = false → s.hst.dspReq = none →
    Runs (.dspRequest w) s fun t => t.hst.dspReq = some (w, s.now) ∧ (win t w).dspRes = .busy ∧
      t.hst.owner = s.hst.owner ∧ Noted t s.hst.owner 7 ∧ Unchanged [.hst, .mem] s t) ∧
  (∀ (w r : Win) (t0 : Nat) (s : State), Granted s w 0x34 rRead → isOwner s w = true → s.hst.dspReq = some (r, t0) →
    s.now < t0 + 1000000 * rdf s hstHpcfg [] 15 0 →
    Runs (.dspAccept w) s fun t => t.hst.owner = r ∧ t.hst.dspReq = none ∧ (win t r).dspRes = .ok ∧
      Noted t w 7 ∧ Noted t r 7 ∧ Unchanged [.hst, .mem, .kln, .recd] s t) ∧
  (∀ (w r : Win) (t0 : Nat) (s : State), Granted s w 0x34 rRead → isOwner s w = true → s.hst.dspReq = some (r, t0) →
    r ≠ w → s.now < t0 + 1000000 * rdf s hstHpcfg [] 15 0 →
    Runs (.dspDecline w) s fun t => t.hst.owner = s.hst.owner ∧ t.hst.dspReq = none ∧
      (win t r).dspRes = .refusedRights ∧ Noted t r 7 ∧ Unchanged [.hst, .mem] s t) ∧
  (∀ (r : Win) (t0 : Nat) (s : State), s.hst.dspReq = some (r, t0) → t0 + 1000000 * rdf s hstHpcfg [] 15 0 ≤ s.now →
    Runs .dspTimeout s fun t => (win t r).dspRes = .expired ∧ t.hst.dspReq = none ∧ t.hst.owner = s.hst.owner ∧
      t.hst.rings = s.hst.rings ∧ Unchanged [.hst] s t)

/-! ### Kiln core and commit groups (R27 to R42, R95 to R98) -/

/-- Shadowed fields take effect at a commit: SHADOW_COMMIT at the group's boundary, COMMIT at once or, in the middle of a
unit of work, at its end; HOLD withholds the boundary of at most 8 groups, COMMIT and a release end it (R95 to R98).
Clauses 1, 4 and 5 say it of TIM_STEPMAX. -/
def Obligations.ShadowedFieldsCommitByGroup : Prop :=
  (∀ (v : Word) (s : State), awake s = true → held s 18 0 = false → s.shadow = [(timStepmax.addr [], some v)] →
    Runs (.shadowCommit 18 0) s fun t => rdf t timStepmax [] 19 0 = v.toNat % 2 ^ 20 ∧ t.shadow = [] ∧
      Unchanged [.regs, .shadow, .kln] s t) ∧
  (∀ (b n : Byte) (s : State), held s b.toNat n.toNat = true → exec (.shadowCommit b n) s = .next s) ∧
  (∀ (w : Win) (b n : Byte) (s : State), Granted s w 0x10010 rCfg → groupCode s b.toNat n.toNat = .ok →
    (s.kln.holds.length < 8 ∨ held s b.toNat n.toNat = true) →
    Runs (.hold w b n) s fun t => Accepted t w ∧ held t b.toNat n.toNat = true ∧ Unchanged [.kln, .hst] s t) ∧
  (∀ (w : Win) (v : Word) (s : State), Granted s w 0x10010 rCfg → s.shadow = [(timStepmax.addr [], some v)] →
    Runs (.commit w 18 0) s fun t => Accepted t w ∧ rdf t timStepmax [] 19 0 = v.toNat % 2 ^ 20 ∧ t.shadow = [] ∧
      held t 18 0 = false ∧ Unchanged [.regs, .shadow, .kln, .hst] s t) ∧
  (∀ (w : Win) (b n : Byte) (s : State), Granted s w 0x10010 rCfg → groupCode s b.toNat n.toNat = .ok →
    midUnit s b.toNat n.toNat = true →
    Runs (.commit w b n) s fun t => Accepted t w ∧ (b.toNat, n.toNat) ∈ t.kln.commitPend ∧
      held t b.toNat n.toNat = false ∧ Unchanged [.kln, .hst] s t) ∧
  (∀ (w : Win) (b n : Byte) (s : State), Granted s w 0x10010 rCfg → groupCode s b.toNat n.toNat = .ok →
    Runs (.releaseHold w b n) s fun t => Accepted t w ∧ held t b.toNat n.toNat = false ∧
      t.kln.commitPend = s.kln.commitPend ∧ Unchanged [.kln, .hst] s t) ∧
  (∀ (w : Win) (b n : Byte) (s : State), Granted s w 0x10010 rCfg → groupCode s b.toNat n.toNat = .ok →
    8 ≤ s.kln.holds.length → held s b.toNat n.toNat = false →
    Runs (.hold w b n) s fun t => (win t w).lastRes = .full ∧ Unchanged [.hst, .mem] s t) ∧
  (∀ (w : Win) (r : BitVec 8) (c : BitVec 2) (s : State), Granted s w 0x10030 rCfg →
    Runs (.xovrClr w r c) s fun t => Accepted t w ∧ tget 0 t.kln.xovr (4 * r.toNat + c.toNat) = 0 ∧
      rdf t klnXovrSel [] 9 0 = 4 * r.toNat + c.toNat ∧ klnXovr t = 0 ∧ Unchanged [.regs, .kln, .hst] s t)

/-- The Kiln core's own events: a domain that nothing requests for 1 ms is gated; a deviation of more than 2 % for more
than 10 µs latches CLOCK_FAULT; a request of a lower plane that has waited 10 µs at a bank is granted, once in 10 µs; an event
held at a gated domain is delivered when its sink's domain runs (R27, R31, R40, R42); which domain a sink lies in is the
model's choice (notes/assumptions/70.md).
An access outside the partitions granted: on a read it is counted, its address and source kept, and nothing else but
the recorder and the host's rings changes; a control-plane engine that suffers one on a write, or fails a check of its
own, stops with its outputs in their fault state, and the module goes to SAFE_STOP (R36, R37, R272). -/
def Obligations.KilnCoreEventsAndViolations : Prop :=
  ((∀ (d : Domain) (t0 : Nat) (s : State), awake s = true → fastDom d = true → domWanted s d = false → gated s d = false →
    tget none s.kln.idleAt d.ctorIdx = some t0 → t0 + 1000 ≤ s.now →
    Runs (.domainGate d) s fun t => gated t d = true ∧ (∀ c, c ≠ d → gated t c = gated s c) ∧ Unchanged [.kln] s t) ∧
  (∀ (d : Domain) (t0 : Nat) (s : State), tget none s.kln.idleAt d.ctorIdx = some t0 → s.now < t0 + 1000 →
    exec (.domainGate d) s = .next s) ∧
  (∀ (d : Domain) (ppm us : Nat) (s : State), checkedDom d = true → domRuns s d = true → 20000 < ppm →
    10 < us → Runs (.clockFault d ppm us) s fun t => t.kln.clockFault = true ∧ Tripped t 5 ∧
      (fastDom d = true → d ∈ t.kln.unlocked) ∧ t.emb.mode = s.emb.mode ∧ Unchanged [.kln, .emb] s t) ∧
  (∀ (d : Domain) (ppm us : Nat) (s : State), ppm ≤ 20000 ∨ us ≤ 10 ∨ domRuns s d = false →
    exec (.clockFault d ppm us) s = .next s) ∧
  (∀ (b : Fin 8) (p : Plane) (r : SramReq) (s : State), awake s = true → p ≠ .control →
    (tget 0 s.kln.aged (4 * b.val + p.ctorIdx) = 0 ∨ tget 0 s.kln.aged (4 * b.val + p.ctorIdx) + 10 ≤ s.now + 1) →
    ((tget [] s.arb.waiting b).find? fun q => q.plane == p && decide (s.now ≥ q.since + 10)) = some r →
    Runs (.agedGrant b p) s fun t => tget [] t.arb.waiting b = (tget [] s.arb.waiting b).erase r ∧
      (∀ c : Fin 8, c ≠ b → tget [] t.arb.waiting c = tget [] s.arb.waiting c) ∧ t.mem = s.mem ∧
      tget 0 t.kln.aged (4 * b.val + p.ctorIdx) = s.now + 1 ∧
      Runs (.agedGrant b p) t (fun u => u = t) ∧ Unchanged [.kln, .mem] s t) ∧
  (∀ (b : Fin 8) (p : Plane) (s : State),
    ((tget [] s.arb.waiting b).find? fun q => q.plane == p && decide (s.now ≥ q.since + 10)) = none →
    exec (.agedGrant b p) s = .next s) ∧
  (∀ (k : EvSink) (s : State), awake s = true → k ∈ s.kln.evPend →
    exec (.gatedEventDelivery k) s = .next (sinkAct (takeEvent (ungate (sinkDom k) s) k) k)) ∧
  (∀ (n : Nat) (s : State), awake s = true → .other n ∈ s.kln.evPend → gated s .sys = false →
    Runs (.gatedEventDelivery (.other n)) s fun t => t.kln.evPend = s.kln.evPend.erase (.other n) ∧
      Unchanged [.kln] s t)) ∧
  ((∀ (e : Engine) (n : Byte) (a : Word) (s : State), awake s = true →
    engGrant s e n.toNat (a.toNat - 0x10000000) 4 = .none →
    Runs (.partitionViolation e n a false) s fun t =>
      (StagingGranted s → t.kln.pviol = min 65535 (s.kln.pviol + 1) ∧ t.kln.pviolAddr = a ∧
        t.kln.pviolSrc = Config.engTag e.ctorIdx n.toNat) ∧ min 65535 (s.kln.pviol + 1) ≤ t.kln.pviol ∧
      t.kln.stopped = s.kln.stopped ∧ Unchanged [.kln, .recd, .mem, .hst] s t) ∧
  (∀ (e : Engine) (n : Byte) (a : Word) (wr : Bool) (s : State),
    engGrant s e n.toNat (a.toNat - 0x10000000) 4 = .readWrite → exec (.partitionViolation e n a wr) s = .next s) ∧
  (∀ (n : Byte) (a : Word) (s : State), awake s = true → Engine.thermal ∉ s.kln.stopped →
    engGrant s .thermal n.toNat (a.toNat - 0x10000000) 4 ≠ .readWrite →
    Runs (.partitionViolation .thermal n a true) s fun t =>
      min 65535 (s.kln.pviol + 1) ≤ t.kln.pviol ∧ Engine.thermal ∈ t.kln.stopped ∧ t.kln.engineFault = true ∧ Tripped t 5 ∧
      (∀ k, strOk s k = true → k < 4 → (thmStr t k).derC = 0 ∧ (thmStr t k).derD = 0 ∧ (thmStr t k).cool = 100) ∧
      Unchanged [.kln, .emb, .thm, .recd, .mem, .hst] s t) ∧
  (∀ (e : Engine) (s : State), awake s = true → faultEngine e = true → e ∉ s.kln.stopped →
    Runs (.kilnEngineFault e) s fun t => e ∈ t.kln.stopped ∧ t.kln.engineFault = true ∧ Tripped t 5 ∧
      t.emb.mode = s.emb.mode ∧ Unchanged [.kln, .emb, .chn, .est, .mea, .thm, .lgc, .recd, .mem, .hst] s t) ∧
  (∀ (e : Engine) (s : State), awake s = true → e = .control ∨ e = .pwm →
    Runs (.kilnEngineFault e) s fun t => t.ctl.internal = true ∧ Tripped t 5 ∧ t.kln.stopped = s.kln.stopped ∧
      Unchanged [.kln, .emb, .ctl, .hrp, .recd, .mem, .hst] s t))

/-! ### Modes and the Ember domain (R22, R55 to R76) -/

/-- A write of EMB_MODE_REQ queues the window's request in place of its last one and reads BUSY; with PFAIL or EJECT set
it is refused at once unless it asks for SAFE_STOP. The mode changes at an evaluation (R22, R55, R74).
MODE_EVALUATION, each 10 µs: a fault takes the module to SAFE_STOP from every mode with every contactor commanded open; STANDBY to
MAINTENANCE needs the maintenance right and the key in MAINT; a window without the right is refused and the mode stays; an
accepted request for EMBER ends in EMBER, with working SRAM gone; with nothing to decide nothing changes (R22, R57,
R64). -/
def Obligations.ModeRequestsAreEvaluatedByTheTable : Prop :=
  ((∀ (w : Win) (m : BitVec 3) (s : State), reachable s w = true → accessCode s w 0x20004 true = .ok →
    s.emb.pfail = false → s.emb.eject = false →
    Runs (.modeRequest w m) s fun t => Accepted t w ∧ (win t w).reqRes = .busy ∧ t.emb.mode = s.emb.mode ∧
      { target := modeOf m.toNat, src := .window w } ∈ t.emb.reqs ∧
      (∀ r ∈ t.emb.reqs, r.src = .window w → r.target = modeOf m.toNat) ∧
      (∀ r ∈ s.emb.reqs, r.src ≠ .window w → r ∈ t.emb.reqs) ∧ Unchanged [.emb, .hst] s t) ∧
  (∀ (w : Win) (m : BitVec 3) (s : State), reachable s w = true → accessCode s w 0x20004 true = .ok →
    s.emb.pfail = true ∨ s.emb.eject = true → modeOf m.toNat ≠ .safeStop →
    Runs (.modeRequest w m) s fun t => Accepted t w ∧ (win t w).reqRes = .refusedMode ∧ t.emb.mode = s.emb.mode ∧
      (∀ r ∈ t.emb.reqs, r.src ≠ .window w ∧ r ∈ s.emb.reqs) ∧ Unchanged [.emb, .hst] s t)) ∧
  ((∀ s : State, evalDue s = false → exec .modeEvaluation s = .next s) ∧
  (∀ (c : Nat) (l : List ModeReq) (s : State), awake s = true → evalDue s = true → hasCord s = true → s.emb.mode ≠ .safeStop →
    s.upd.fbGo = false → s.emb.reqs = { target := .safeStop, src := .fault c } :: l →
    Runs .modeEvaluation s fun t => t.emb.mode = .safeStop ∧ t.emb.prev = s.emb.mode ∧ t.emb.cause = c ∧
      t.emb.reqs = l ∧ contactorWanted t = false ∧ (∀ w : Win, Noted t w 4)) ∧
  (∀ (w : Win) (s : State), awake s = true → evalDue s = true → s.emb.mode = .standby → s.emb.eject = false →
    s.emb.emberAt = none → s.emb.rampSince = none → lotoPos s = .maint → hasRight s w rMaint = true → s.upd.fbGo = false →
    s.emb.reqs = [{ target := .maintenance, src := .window w }] →
    Runs .modeEvaluation s fun t => t.emb.mode = .maintenance ∧ t.emb.prev = .standby ∧ t.emb.cause = 1 ∧
      t.emb.reqs = [] ∧ (win t w).reqRes = .ok ∧ (∀ v : Win, Noted t v 4)) ∧
  (∀ (w : Win) (s : State), awake s = true → evalDue s = true → s.emb.mode = .standby → s.emb.eject = false →
    s.emb.emberAt = none → s.emb.rampSince = none → hasRight s w rMaint = false → s.emb.reqs = [{ target := .maintenance, src := .window w }] →
    Runs .modeEvaluation s fun t => t.emb.mode = .standby ∧ t.emb.reqs = [] ∧ (win t w).reqRes = .refusedRights ∧
      Unchanged [.emb, .hst] s t) ∧
  (∀ (t0 c : Nat) (s : State), awake s = true → evalDue s = true → s.emb.reqs = [] → s.emb.emberAt = some (t0, c) →
    s.emb.eject = false → emberReady s = true →
    Runs .modeEvaluation s fun t => t.emb.mode = .ember ∧ t.emb.cause = c ∧ t.emb.reqs = [] ∧ t.mem = [] ∧
      t.emb.emberEntry = s.emb.ticks ∧ t.emb.wakePend = false ∧ t.emb.emberAt = none) ∧
  (∀ s : State, awake s = true → evalDue s = true → s.emb.reqs = [] → s.emb.emberAt = none → s.emb.rampSince = none →
    leavesMaint s = false →
    Runs .modeEvaluation s fun t => t.emb = { s.emb with evalAt := some s.now } ∧ Unchanged [.emb] s t))

/-- What asks for a mode without changing it: a ramp on which a string still has 1 A after 30 s, the expired recovery timer,
the conditions of DROWSE, t_pre, and the LOTO key, which counts as LOCK after 100 ms between positions (R57, R60, R61,
R63, R67, R70, R345). An INVALID current counting as 1 A, and a key between positions firing no wake source, are the
model's choices (notes/assumptions/17.md and 16.md).
The acknowledge of SAFE_STOP clears the latches and starts the recovery timer of T_RECOV s, through EMB_ACK or
SAF_ACK alike; with a demand present or outside SAFE_STOP it is refused with REFUSED_MODE and clears nothing. FORCE_ACK
acknowledges the forces (R59, R61). -/
def Obligations.TimersKeyAndAcknowledgeMoveTheMode : Prop :=
  ((∀ (t0 : Nat) (s : State), awake s = true → s.emb.rampSince = some t0 → t0 + 30000000 ≤ s.now →
    (∃ k ∈ strs s, ctrOpen s k = false ∧ ((mstr s k).invalid = true ∨ 1000 ≤ (mstr s k).voted.natAbs)) →
    s.emb.rampTimeout = false →
    Runs .rampTimeout s fun t => Tripped t 8 ∧ t.emb.rampTimeout = true ∧ t.emb.mode = s.emb.mode ∧
      Unchanged [.emb] s t) ∧
  (∀ s : State, (∀ k ∈ strs s, (mstr s k).invalid = false ∧ (mstr s k).voted.natAbs < 1000) →
    exec .rampTimeout s = .next s) ∧
  (∀ s : State, awake s = true → s.emb.mode = .safeStop → recovered s = true →
    Runs .recoveryTimerExpiry s fun t => { target := .standby, src := .module 9 } ∈ t.emb.reqs ∧
      t.emb.mode = .safeStop ∧ Unchanged [.emb] s t) ∧
  (∀ s : State, recovered s = false → exec .recoveryTimerExpiry s = .next s) ∧
  (∀ s : State, awake s = true → s.emb.mode = .connected → drowseReady s = true →
    Runs .drowseEntry s fun t => { target := .drowse, src := .module 3 } ∈ t.emb.reqs ∧ t.emb.mode = .connected ∧
      Unchanged [.emb] s t) ∧
  (∀ s : State, awake s = true → s.emb.mode = .drowse → (∃ k ∈ strs s, 10 ≤ (tget {} s.emb.qdrw k).wakeRun) →
    Runs .drowseCurrentWake s fun t => { target := .connected, src := .module 4 } ∈ t.emb.reqs ∧
      t.emb.mode = .drowse ∧ Unchanged [.emb] s t) ∧
  (∀ (k : Str) (t0 : Nat) (s : State), (ctr s k).pstate = 1 → (ctr s k).preFail = false →
    (ctr s k).preSince = some t0 → t0 + 1000 * (safB s).tPre ≤ s.now →
    Runs (.prechargeTimeout k) s fun t => (ctr t k).preFail = true ∧
      { target := .safeStop, src := .module 7 } ∈ t.emb.reqs ∧ Unchanged [.emb, .saf] s t) ∧
  (∀ s : State, s.emb.power ≠ .dark → Runs (.lotoChange .between) s fun t =>
    t.emb.lotoBetween = some (s.emb.lotoBetween.getD s.now) ∧ t.emb.loto = s.emb.loto ∧ t.emb.mode = s.emb.mode ∧
      t.emb.reqs = s.emb.reqs ∧ Unchanged [.emb] s t) ∧
  (∀ (p : Loto) (s : State), s.emb.power ≠ .dark → p ≠ .between →
    Runs (.lotoChange p) s fun t => lotoPos t = p ∧ t.emb.mode = s.emb.mode ∧ Unchanged [.emb] s t ∧
      (p = .lock → awake s = true → allOpen s = false → s.emb.eject = false → Tripped t 6)) ∧
  (∀ (t0 : Nat) (s : State), s.emb.lotoBetween = some t0 → t0 + 100000 < s.now → awake s = true → allOpen s = false →
    s.emb.eject = false → Runs .lotoBetweenTimeout s fun t => Tripped t 6 ∧ Unchanged [.emb] s t)) ∧
  ((∀ (w : Win) (s : State), Granted s w 0x20008 rSafe → s.emb.mode = .safeStop → s.saf.dem = 0 → s.emb.eject = false →
    s.emb.pfail = false →
    Runs (.embAckSafeAck w) s fun t => Accepted t w ∧ t.saf.latch = 0 ∧ t.emb.latchFaults = [] ∧
      t.emb.mode = .safeStop ∧ t.emb.recovAt = some (s.now + 1000000 * rdf s embRecov [] 15 0) ∧
      Unchanged [.emb, .saf, .lgc, .kln, .hst, .mem] s t) ∧
  (∀ (w : Win) (s : State), Granted s w 0xD0000 rSafe → s.emb.mode = .safeStop → s.saf.dem = 0 → s.emb.eject = false →
    s.emb.pfail = false →
    Runs (.safAckSafeAck w) s fun t => Accepted t w ∧ t.saf.latch = 0 ∧ t.saf.res = .ok ∧ t.emb.latchFaults = [] ∧
      t.emb.mode = .safeStop ∧ t.emb.recovAt = some (s.now + 1000000 * rdf s embRecov [] 15 0) ∧
      Unchanged [.emb, .saf, .lgc, .kln, .hst, .mem] s t) ∧
  (∀ (w : Win) (s : State), Granted s w 0x20008 rSafe → s.emb.mode ≠ .safeStop ∨ s.saf.dem ≠ 0 →
    Runs (.embAckSafeAck w) s fun t => (win t w).lastRes = .refusedMode ∧ Unchanged [.kln, .recd, .hst, .mem] s t) ∧
  (∀ (w : Win) (s : State), Granted s w 0xD0000 rSafe → s.emb.mode ≠ .safeStop ∨ s.saf.dem ≠ 0 →
    Runs (.safAckSafeAck w) s fun t => (win t w).lastRes = .refusedMode ∧ t.saf.res = .refusedMode ∧
      t.saf.latch = s.saf.latch ∧ Unchanged [.saf, .kln, .recd, .hst, .mem] s t) ∧
  (∀ (w : Win) (s : State), Granted s w 0x20008 rMaint →
    Runs (.forceAck w) s fun t => Accepted t w ∧ t.emb.forceAcked = true ∧ Unchanged [.emb, .hst] s t))

/-- Starts: an enabled source wakes the module; Kindling comes up in STANDBY, or in SAFE_STOP with a latch kept, with
cause 0x02, or, with a billet that fails its CRC, in a cold start with cause 0x00; a cold start without a Cord comes up in CONFIGURE and counts POWER_CYCLES; a supply below 17.0 V starts
nothing (R56, R62, R65, R66, R71, R76).
The Ember coulomb counter and its handover: each ms a sample adds the current of each string it counts in steps of
10 mA, kept within ±800 A; the handover adds the count to the estimator's charge and stops the counter (R69, R70). The
rounding and the end of the range are the model's choice (notes/assumptions/15.md).
The supply: HOLDUP_OK sets at 1.35 J and clears below 1.30 J; a dip shorter than 100 µs is counted; PFAIL puts every
safety output off, refuses every request but SAFE_STOP and flushes; then the module waits, and goes dark when the
hold-up store runs out below 16.0 V (R72 to R75, R540). -/
def Obligations.StartsEmberCountingAndSupplyFailure : Prop :=
  ((∀ (n : Fin 8) (s : State), s.emb.power = .on → s.emb.mode = .ember → 5 ≤ n.val ∨ bitN (rd s embWakeEn []) n.val = true →
    n ≠ 0 ∨ (rdf s embTimer [] 23 0 ≠ 0 ∧ s.emb.emberEntry + 32768 * rdf s embTimer [] 23 0 ≤ s.emb.ticks) →
    Runs (.emberWake n) s fun t => t.emb.wakePend = true ∧ t.emb.wakeSrc = s.emb.wakeSrc ||| BitVec.ofNat 8 (2 ^ n.val) ∧
      t.emb.mode = .ember ∧ Unchanged [.emb] s t) ∧
  (∀ (ups : List (Nat × Nat × Byte)) (b : BootFacts) (i : Nat) (s : State), s.emb.power = .on → s.emb.mode = .ember → s.emb.wakePend = true →
    s.emb.eject = false → kcmBad (kcmUpset ups s) = some i →
    Runs (.kindling ups b) s fun t => t.emb.power = .on ∧ t.emb.cause = 0 ∧ t.emb.pwc = (s.emb.pwc + 1) % 2 ^ 24 ∧
      t.emb.oph = s.emb.oph ∧ t.now = s.now ∧ t.pending = s.pending ∧ t.variant = s.variant) ∧
  (∀ (ups : List (Nat × Nat × Byte)) (b : BootFacts) (s : State), s.emb.power = .on → s.emb.mode = .ember → s.emb.wakePend = true →
    s.emb.eject = false → kcmBad (kcmUpset ups s) = none →
    Runs (.kindling ups b) s fun t =>
      t.emb.mode = (if s.saf.latch = 0 ∧ s.emb.latchFaults = [] then .standby else .safeStop) ∧ t.emb.prev = .ember ∧
      t.emb.cause = 2 ∧ t.emb.wakePend = false ∧ t.emb.reqs = [] ∧ t.emb.pwc = s.emb.pwc ∧ t.emb.oph = s.emb.oph ∧
      t.now = s.now ∧ t.pending = s.pending ∧ t.variant = s.variant) ∧
  (∀ (b : BootFacts) (s : State), s.emb.power = .dark ∨ s.emb.power = .waiting → s.crd.running.bytes = [] →
    1700 ≤ b.vsup10mv → b.present = true → b.leverOpen = false →
    Runs (.coldStart b) s fun t => t.emb.power = .on ∧ t.emb.mode = .configure ∧ t.emb.cause = 0 ∧
      hasCord t = false ∧ t.emb.pwc = (s.emb.pwc + 1) % 2 ^ 24 ∧ t.emb.oph = s.emb.oph ∧
      t.now = s.now ∧ t.pending = s.pending ∧ t.variant = s.variant) ∧
  (∀ (b : BootFacts) (s : State), b.vsup10mv < 1700 → exec (.coldStart b) s = .next s)) ∧
  ((∀ (ia : List Int) (s : State), s.now < s.emb.counterAt + 1000 → exec (.emberCounterSample ia) s = .next s) ∧
  (∀ (ia : List Int) (s : State), awake s = true → s.emb.counterAt + 1000 ≤ s.now → Runs (.emberCounterSample ia) s fun t =>
    (∀ k < 4, strOk s k = true → (tget {} s.emb.qdrw k).counting = true →
      (tget {} t.emb.qdrw k).q = (tget {} s.emb.qdrw k).q + clampI (-800000) 800000 (10 * rdiv (ia.getD k 0) 10)) ∧
    (∀ k, (tget {} s.emb.qdrw k).counting = false → tget {} t.emb.qdrw k = tget {} s.emb.qdrw k) ∧
    t.emb.counterAt = s.now ∧ t.emb.mode = s.emb.mode ∧ Unchanged [.emb] s t) ∧
  (∀ (k : Str) (t0 : Nat) (s : State), s.emb.drowseExit = some t0 → (tget {} s.emb.qdrw k).counting = true →
    (mstr s k).invalid = false →
    Runs (.qdrwHandover k) s fun t => (estr t k).q = (estr s k).q + (tget {} s.emb.qdrw k).q ∧
      (tget {} t.emb.qdrw k).counting = false ∧ (tget {} t.emb.qdrw k).q = (tget {} s.emb.qdrw k).q ∧
      (∀ j, j ≠ k.val → estr t j = estr s j) ∧ Unchanged [.emb, .est] s t)) ∧
  ((∀ (e v : Nat) (s : State), s.emb.power ≠ .dark → Runs (.holdupChange e v) s fun t => t.emb.holdup = e ∧ t.emb.vsup = v ∧
    (135 ≤ e → t.emb.holdupOk = true) ∧ (e < 130 → t.emb.holdupOk = false) ∧
    (130 ≤ e → e < 135 → t.emb.holdupOk = s.emb.holdupOk) ∧ Unchanged [.emb, .lgc] s t) ∧
  (∀ (us : Nat) (s : State), s.emb.power ≠ .dark → us < 100 →
    Runs (.supplyGlitch us) s fun t => t.emb.glitch = min 65535 (s.emb.glitch + 1) ∧ t.emb.pfail = s.emb.pfail ∧
      Unchanged [.emb] s t) ∧
  (∀ (v : Nat) (s : State), v < 1600 → awake s = true →
    Runs (.pfail v) s fun t => t.emb.pfail = true ∧ t.emb.pfailCnt = min 65535 (s.emb.pfailCnt + 1) ∧
      t.emb.power = .flushing ∧ t.emb.mode = s.emb.mode ∧ outputsOff t = true ∧ contactorWanted t = false ∧
      (∀ r ∈ t.emb.reqs, r.target = .safeStop)) ∧
  (∀ (v : Nat) (s : State), v < 1600 → s.emb.power = .on → s.emb.mode = .ember →
    Runs (.pfail v) s fun t => t.emb.pfail = true ∧ t.emb.pfailCnt = min 65535 (s.emb.pfailCnt + 1) ∧
      t.emb.power = .flushing ∧ Unchanged [.emb] s t) ∧
  (∀ s : State, s.emb.power = .flushing → s.emb.mode ≠ .ember → s.emb.pfailAt + 2000 ≤ s.now →
    Runs .pfailFlushComplete s fun t => t.emb.power = .waiting ∧ t.emb.mode = s.emb.mode ∧
      Unchanged [.emb, .est, .fio, .kln, .recd, .hst] s t) ∧
  (∀ s : State, s.emb.power = .flushing → s.emb.mode = .ember →
    exec .pfailFlushComplete s = .next (modEmb s fun e => { e with power := .waiting })) ∧
  (∀ s : State, s.emb.power = .waiting → s.emb.vsup < 1600 →
    Runs .holdUpExhausted s fun t => t.emb.power = .dark ∧ t.mem = [] ∧ t.tx = [] ∧ Unchanged [.emb, .mem, .tx] s t))

/-! ### The Cord loader and the online change (R84 to R91, R373 to R375) -/

/-- The host fills the incoming slot block by block and starts a verification: ERASE_INCOMING empties the slot and opens a
transfer, WRITE_BLOCK appends LEN bytes of the staging buffer in rising order, and VERIFY_INCOMING, VERIFY_RUNNING,
ACTIVATE and REVERT read BUSY until the verification ends. The running and previous slots stay (R84, R87 to R91). -/
def Obligations.LoaderCommandsWorkOnTheIncomingSlot : Prop :=
  (∀ (w : Win) (s : State), Granted s w 0x30004 rCfg → s.crd.verifying = none → slotBusy s = false →
    Runs (.eraseIncoming w) s fun t => Accepted t w ∧ t.crd.incoming.bytes = [] ∧ t.crd.xferOpen = true ∧
      t.crd.incValid = false ∧ t.crd.nextBlock = 0 ∧ t.crd.res = .ok ∧ t.crd.running = s.crd.running ∧
      t.crd.previous = s.crd.previous ∧ Unchanged [.crd, .hst] s t) ∧
  (∀ (w : Win) (s : State), Granted s w 0x30004 rCfg → s.crd.verifying = none → slotBusy s = false →
    s.crd.xferOpen = true → s.crd.shortBlock = false → rdf s crdXferOff [] 31 12 = s.crd.nextBlock →
    Runs (.writeBlock w) s fun t => Accepted t w ∧
      t.crd.incoming.bytes = s.crd.incoming.bytes ++ stagingBytes s (rdf s crdXferLen [] 12 0) ∧
      t.crd.nextBlock = s.crd.nextBlock + 1 ∧ t.crd.incValid = false ∧ t.crd.res = .ok ∧
      t.crd.running = s.crd.running ∧ t.crd.previous = s.crd.previous ∧ Unchanged [.crd, .hst] s t) ∧
  (∀ (w : Win) (s : State), Granted s w 0x30004 rCfg → s.crd.verifying = none →
    s.crd.xferOpen = false ∨ s.crd.shortBlock = true ∨ rdf s crdXferOff [] 31 12 ≠ s.crd.nextBlock →
    Runs (.writeBlock w) s fun t => (win t w).lastRes = .range ∧ t.crd.res = .range ∧
      t.crd.incoming = s.crd.incoming ∧ Unchanged [.crd, .hst, .mem] s t) ∧
  (∀ (w : Win) (s : State), Granted s w 0x30004 rCfg → s.crd.verifying = none →
    Runs (.verifyIncoming w) s fun t => Accepted t w ∧ t.crd.verifying = some .verifyIncoming ∧ t.crd.resBusy = true ∧
      t.crd.xferOpen = false ∧ t.crd.incoming = s.crd.incoming ∧ Unchanged [.crd, .hst] s t) ∧
  (∀ (w : Win) (s : State), Granted s w 0x30004 rCfg → s.crd.verifying = none →
    Runs (.verifyRunning w) s fun t => Accepted t w ∧ t.crd.verifying = some .verifyRunning ∧ t.crd.resBusy = true ∧
      t.crd.xferOpen = s.crd.xferOpen ∧ t.crd.running = s.crd.running ∧ Unchanged [.crd, .hst] s t) ∧
  (∀ (w : Win) (s : State), Granted s w 0x30004 rCfg → s.crd.verifying = none → s.emb.mode = .configure →
    s.upd.confRun = false → s.upd.fbDue = false →
    Runs (.crdActivate w) s fun t => Accepted t w ∧ t.crd.verifying = some .activate ∧ t.crd.resBusy = true ∧
      t.crd.xferOpen = false ∧ Unchanged [.crd, .hst] s t) ∧
  (∀ (w : Win) (s : State), Granted s w 0x30004 rCfg → s.crd.verifying = none → s.emb.mode = .configure →
    s.crd.previous.bytes ≠ [] →
    Runs (.revert w) s fun t => Accepted t w ∧ t.crd.verifying = some .revert ∧ t.crd.resBusy = true ∧
      t.crd.xferOpen = s.crd.xferOpen ∧ Unchanged [.crd, .hst] s t) ∧
  (∀ (w : Win) (s : State), Granted s w 0x30004 rCfg → s.crd.verifying = none → s.emb.mode ≠ .configure →
    Runs (.crdActivate w) s fun t => (win t w).lastRes = .refusedMode ∧ t.crd.res = .refusedMode ∧
      t.crd.verifying = none ∧ Unchanged [.crd, .hst, .mem] s t) ∧
  (∀ (w : Win) (v : VerifyFor) (s : State), Granted s w 0x30004 rCfg → s.crd.verifying = some v →
    Runs (.verifyIncoming w) s fun t => (win t w).lastRes = .busy ∧ Unchanged [.hst, .mem] s t)

/-- The end of a verification: RES is the code that R14 selects, STAGE the stage that failed, INC_VALID set for an
incoming slot that passed; a verification alone changes nothing else (R82, R85).
The online change: OLC_APPLY starts the verification of the incoming slot and LGC_RES reads BUSY; at a quiet instant the
new code takes over and the slots rotate; without one within 1 s the change ends with BUSY and the old code runs on
(R373 to R375). -/
def Obligations.VerificationsAndOnlineChangesEnd : Prop :=
  ((∀ (b : BootFacts) (s : State), awake s = true → s.crd.verifying = some .verifyIncoming → s.upd.rx.state ≠ 3 →
    s.upd.fbDue = false →
    Runs (.verificationComplete b) s fun t => t.crd.verifying = none ∧ t.crd.resBusy = false ∧
      t.crd.res = reported (cordCheck s b.facts b.content s.crd.incoming.bytes).2 ∧
      t.crd.stage = (cordCheck s b.facts b.content s.crd.incoming.bytes).1 ∧ t.crd.incValid = (t.crd.res == .ok) ∧
      t.crd.running = s.crd.running ∧ t.crd.content = s.crd.content ∧ Unchanged [.crd] s t) ∧
  (∀ (b : BootFacts) (s : State), awake s = true → s.crd.verifying = some .verifyRunning → s.upd.rx.state ≠ 3 →
    s.upd.fbDue = false →
    Runs (.verificationComplete b) s fun t => t.crd.verifying = none ∧
      t.crd.stage = (cordCheck s b.facts b.content s.crd.running.bytes).1 ∧ t.crd.incValid = s.crd.incValid ∧
      t.crd.running = s.crd.running ∧ t.crd.content = s.crd.content ∧ Unchanged [.crd] s t) ∧
  (∀ (b : BootFacts) (s : State), s.crd.verifying = none → exec (.verificationComplete b) s = .next s)) ∧
  ((∀ (w : Win) (s : State), Granted s w 0xE0000 rCfg →
    s.emb.mode = .standby ∨ s.emb.mode = .connected ∨ s.emb.mode = .maintenance ∨ s.emb.mode = .safeStop →
    s.lgc.olc = none → s.crd.verifying = none → s.upd.confRun = false → s.upd.fbDue = false →
    Runs (.olcApply w) s fun t => Accepted t w ∧ t.crd.verifying = some (.olc w) ∧ t.lgc.res = .busy ∧
      t.lgc.tasks = s.lgc.tasks ∧ Unchanged [.crd, .lgc, .hst] s t) ∧
  (∀ (w : Win) (s : State), Granted s w 0xE0000 rCfg → s.emb.mode = .drowse ∨ s.emb.mode = .precharge ∨ s.emb.mode = .configure →
    Runs (.olcApply w) s fun t => (win t w).lastRes = .refusedMode ∧ t.lgc.res = .refusedMode ∧ t.crd = s.crd ∧
      Unchanged [.lgc, .hst, .mem] s t) ∧
  (∀ (w : Win) (t0 : Nat) (c : CordContent) (s : State), s.lgc.olc = some (w, t0) → s.crd.content = some c →
    awake s = true → quietInstant s = true → s.crd.incValid = true →
    Runs .olcSwitch s fun t => t.lgc.olc = none ∧ t.lgc.olcRes = .ok ∧
      t.lgc.olcWait = min 65535 ((s.now - t0) / 1000) ∧ t.crd.running = s.crd.incoming ∧ t.crd.incoming.bytes = [] ∧
      t.crd.previous = (if s.crd.runBad then s.crd.previous else s.crd.running) ∧
      t.crd.content = some { c with tasks := s.lgc.olcNew } ∧ t.emb = s.emb ∧
      Unchanged [.regs, .kept, .mem, .crd, .saf, .lgc, .hst, .kln, .recd] s t) ∧
  (∀ s : State, quietInstant s = false → exec .olcSwitch s = .next s) ∧
  (∀ (w : Win) (t0 : Nat) (s : State), s.lgc.olc = some (w, t0) → awake s = true → t0 + 1000000 ≤ s.now →
    Runs .olcTimeout s fun t => t.lgc.olc = none ∧ t.lgc.olcRes = .busy ∧ t.lgc.olcWait = 1000 ∧
      t.lgc.tasks = s.lgc.tasks ∧ Unchanged [.lgc, .kln, .recd, .hst, .mem] s t))

/-! ### The chain protocol (R109 to R140) -/

/-- What a port does with a frame: a code error and a frame that fails CRC or length are counted and discarded, a response that fits the
transaction ends it, and one that fits none is counted in DISC; a discarded one on the port where a command's response is awaited is its
timeout (R109, R112, R114, R132). The frame of clause 4 answers a CFG_WRITE.
The transactions of a loop: one at a time; the open sweep's READ_SWEEP goes before everything else, and READ_ID starts an enumeration;
a command without a response in time is sent again up to RETRY times, then given up with a break suspected; a READ_SWEEP to which every
unit answers ends the read, and one that some leave out is followed by a read from the B end (R130, R132, R135, R137). -/
def Obligations.ChainPortsAndTransactions : Prop :=
  ((∀ (j : Fin 8) (bs : List Byte) (sw : Bool) (ns : Nat) (s : State), awake s = true → loopOn s (j.val / 2) = true →
    (∀ x ∈ (lp s (j.val / 2)).tx, x.pos = 0 ∨ x.cmd.fromA ≠ (j.val % 2 == 0)) →
    Runs (.chainResponse j bs true sw ns) s fun t => (port t j).code = min 65535 ((port s j).code + 1) ∧
      (port t j).crc = (port s j).crc ∧ t.chn.loops = s.chn.loops ∧ Unchanged [.chn] s t) ∧
  (∀ (j : Fin 8) (bs : List Byte) (sw : Bool) (ns : Nat) (s : State), awake s = true → loopOn s (j.val / 2) = true →
    rxFrame bs = none → (∀ x ∈ (lp s (j.val / 2)).tx, x.pos = 0 ∨ x.cmd.fromA ≠ (j.val % 2 == 0)) →
    Runs (.chainResponse j bs false sw ns) s fun t => (port t j).crc = min 65535 ((port s j).crc + 1) ∧
      (port t j).disc = (port s j).disc ∧ t.chn.loops = s.chn.loops ∧ Unchanged [.chn] s t) ∧
  (∀ (j : Fin 8) (bs : List Byte) (sw : Bool) (ns : Nat) (x : ChainTx) (s : State), awake s = true →
    loopOn s (j.val / 2) = true → rxFrame bs = none → (lp s (j.val / 2)).tx = some x → x.pos ≠ 0 →
    x.cmd.fromA = (j.val % 2 == 0) → x.retries < rdf s chnLcfg [j.val / 2] 27 24 →
    Runs (.chainResponse j bs false sw ns) s fun t => (port t j).crc = min 65535 ((port s j).crc + 1) ∧
      (port t j).tmo = min 65535 ((port s j).tmo + 1) ∧
      (lp t (j.val / 2)).tx = some { x with retries := x.retries + 1, sentAt := s.now } ∧
      tget [] t.tx (ifChain j) = frame 0 x.cmd.hop x.cmd.opc x.tag.toNat x.cmd.payload ∧ Unchanged [.chn, .tx] s t) ∧
  (∀ (j : Fin 8) (bs : List Byte) (sw : Bool) (ns : Nat) (f : RxFrame) (x : ChainTx) (s : State), awake s = true →
    loopOn s (j.val / 2) = true → rxFrame bs = some f → f.typ = 1 → f.alm = false → f.opc = 0x0D →
    (lp s (j.val / 2)).tx = some x → x.pos ≠ 0 → x.cmd.opc = 0x0D → x.tag.toNat = f.tag → x.cmd.hop = f.hop →
    x.cmd.fromA = (j.val % 2 == 0) →
    Runs (.chainResponse j bs false sw ns) s fun t => (lp t (j.val / 2)).tx = none ∧ (port t j).lastAcc = some s.now ∧
      (port t j).pol = sw ∧ (port t j).disc = (port s j).disc ∧ Unchanged [.chn, .imp] s t) ∧
  (∀ (j : Fin 8) (bs : List Byte) (sw : Bool) (ns : Nat) (f : RxFrame) (s : State), awake s = true →
    loopOn s (j.val / 2) = true → rxFrame bs = some f → f.typ = 1 → (lp s (j.val / 2)).tx = none →
    Runs (.chainResponse j bs false sw ns) s fun t => (port t j).disc = min 65535 ((port s j).disc + 1) ∧
      t.chn.loops = s.chn.loops ∧ Unchanged [.chn] s t)) ∧
  ((∀ (k : Str) (s : State), awake s = true → loopOn s k = true → (lp s k).tx = none → (lp s k).state = .enum →
    (lp s k).op = .enumA →
    Runs (.chainLoopIdle k) s fun t => (∃ x, (lp t k).tx = some x ∧ x.cmd = bcast true 0x03 [limAll] ∧ x.pos = 0 ∧
        x.tag = (lp s k).tag + 1 ∧
        tget [] t.tx (ifChain (2 * k.val)) = frame 0 hopAll 0x03 x.tag.toNat [limAll]) ∧ Unchanged [.chn, .tx] s t) ∧
  (∀ (k : Str) (s : State), awake s = true → loopOn s k = true → (lp s k).tx = none → (lp s k).state = .closed →
    (lp s k).op = .idle → (lp s k).sweepOpen = true → (lp s k).readDue = true → (lp s k).readDone = false →
    Runs (.chainLoopIdle k) s fun t => (∃ x, (lp t k).tx = some x ∧ x.pos = 0 ∧ x.limit = (lp s k).n ∧
        x.cmd = bcast true 0x05 [BitVec.ofNat 8 (lp s k).n]) ∧ Unchanged [.chn, .tx] s t) ∧
  (∀ (k : Str) (x : ChainTx) (s : State), (lp s k).tx = some x → exec (.chainLoopIdle k) s = .next s) ∧
  (∀ (k : Str) (x : ChainTx) (s : State), (lp s k).tx = some x → 1000 * s.now < 1000 * x.sentAt + timeoutNs (lp s k) x →
    exec (.chainCommandTimeout k) s = .next s) ∧
  (∀ (k : Str) (x : ChainTx) (s : State), awake s = true → (lp s k).tx = some x → x.pos ≠ 0 →
    1000 * x.sentAt + timeoutNs (lp s k) x ≤ 1000 * s.now → x.retries < rdf s chnLcfg [k] 27 24 →
    Runs (.chainCommandTimeout k) s fun t => (lp t k).tx = some { x with retries := x.retries + 1, sentAt := s.now } ∧
      (port t (sendPort k x.cmd.fromA)).tmo = min 65535 ((port s (sendPort k x.cmd.fromA)).tmo + 1) ∧
      tget [] t.tx (ifChain (sendPort k x.cmd.fromA)) = frame 0 x.cmd.hop x.cmd.opc x.tag.toNat x.cmd.payload ∧
      Unchanged [.chn, .tx] s t) ∧
  (∀ (k : Str) (x : ChainTx) (s : State), awake s = true → (lp s k).tx = some x → x.pos ≠ 0 → x.cmd.opc ≠ 0x0A →
    1000 * x.sentAt + timeoutNs (lp s k) x ≤ 1000 * s.now → rdf s chnLcfg [k] 27 24 ≤ x.retries →
    Runs (.chainCommandTimeout k) s fun t => (lp t k).tx = none ∧
      (port t (sendPort k x.cmd.fromA)).tmo = min 65535 ((port s (sendPort k x.cmd.fromA)).tmo + 1) ∧
      ((lp s k).state = .closed → (lp t k).suspect = true) ∧ (lp t k).state = (lp s k).state ∧ Unchanged [.chn] s t) ∧
  (∀ (k : Str) (x : ChainTx) (e : Nat) (s : State), (lp s k).tx = some x → x.lastEnd = some e → s.now < e + 40 →
    exec (.broadcastReadClose k) s = .next s) ∧
  (∀ (k : Str) (x : ChainTx) (e : Nat) (s : State), awake s = true → (lp s k).tx = some x → x.pos = 0 →
    x.lastEnd = some e → e + 40 ≤ s.now → x.cmd.opc = 0x05 → x.cmd.fromA = true → (lp s k).sweepOpen = true →
    (lp s k).state = .closed → x.resps.length = (lp s k).n → x.arrived = true →
    Runs (.broadcastReadClose k) s fun t => (lp t k).tx = none ∧ (lp t k).resps = x.resps ∧ (lp t k).readDone = true ∧
      (lp t k).suspect = (lp s k).suspect ∧ Unchanged [.chn] s t) ∧
  (∀ (k : Str) (x : ChainTx) (e : Nat) (s : State), awake s = true → (lp s k).tx = some x → x.pos = 0 →
    x.lastEnd = some e → e + 40 ≤ s.now → x.cmd.opc = 0x05 → x.cmd.fromA = true → (lp s k).sweepOpen = true →
    (lp s k).state = .closed → x.resps.length < (lp s k).n →
    Runs (.broadcastReadClose k) s fun t => (lp t k).suspect = true ∧ (lp t k).readDone = false ∧
      (∃ y, (lp t k).tx = some y ∧ y.pos = 0 ∧ y.limit = (lp s k).n - x.resps.length ∧
        y.cmd = bcast false 0x05 [BitVec.ofNat 8 ((lp s k).n - x.resps.length)]) ∧ Unchanged [.chn, .tx] s t))

/-- The outcome of an enumeration: both ends list the same units, without a double, and the broadcast arrives both ways: CLOSED with
that N; an answer from beyond position 32: DOWN with TOO_MANY; no unit from either end and no arrival: LOST with the
configured count (R121).
A delay measurement's end: D is half of the mean round trip less the unit's 4 µs, the mean taken over 16 exchanges, for
each unit and end that was measured, and the others keep theirs; an enumeration goes on with SET_COMP, a refresh ends
(R122, R124). -/
def Obligations.EnumerationAndDelayMeasurement : Prop :=
  ((∀ (e : Nat) (ids : List Word64) (l : LoopS), ids.Nodup → 0 < ids.length → ids.length ≤ 32 →
    l.listA = ids.mapIdx (fun i u => (i + 1, u)) → l.listB = ids.reverse.mapIdx (fun i u => (i + 1, u)) →
    l.arrA = true → l.arrB = true →
    (enumOutcome e l).n = ids.length ∧ (enumOutcome e l).state = .closed ∧ (enumOutcome e l).tooMany = false ∧
      (enumOutcome e l).idConflict = false ∧ (enumOutcome e l).countMismatch = (e != 0 && ids.length != e)) ∧
  (∀ (e : Nat) (l : LoopS), (∃ x ∈ l.listA, 32 < x.1) →
    (enumOutcome e l).state = .down ∧ (enumOutcome e l).n = 0 ∧ (enumOutcome e l).tooMany = true) ∧
  (∀ (e : Nat) (l : LoopS), l.listA = [] → l.listB = [] → l.arrA = false → l.arrB = false →
    (enumOutcome e l).state = .lost ∧ (enumOutcome e l).n = e) ∧
  (∀ (k : Str) (s : State), (lp s k).state = .enum → (lp s k).readBoth = true → (lp s k).tx = none →
    (lp s k).queue.any (fun i => i.rank == 10) = false →
    Runs (.enumerationComplete k) s fun t => (lp t k).state = (outcomeOf s k).state ∧ (lp t k).n = (outcomeOf s k).n ∧
      (lp t k).countMismatch = (outcomeOf s k).countMismatch ∧ (lp t k).tooMany = (outcomeOf s k).tooMany ∧
      (lp t k).idConflict = (outcomeOf s k).idConflict ∧ (lp t k).op = .idle ∧
      Unchanged [.chn, .est, .imp, .kln, .recd, .hst, .mem] s t)) ∧
  ((∀ sum : Nat, 64000 ≤ sum → 32 * delayOf sum ≤ sum - 64000 + 16 ∧ sum - 64000 + 16 < 32 * (delayOf sum + 1)) ∧
  (∀ (k : Str) (s : State), awake s = true → (lp s k).tx = none → (lp s k).op ≠ .enumDelay → (lp s k).refresh = true →
    sweeps (lp s k) = true → (lp s k).echoTodo = [] → (lp s k).echoCmds = [] →
    Runs (.delayMeasurementComplete k) s fun t => (lp t k).refresh = false ∧ (lp t k).state = (lp s k).state ∧
      (∀ p d, 1 ≤ p → p ≤ (lp s k).n → measured (lp s k) p true = some d → (unitAt (lp t k) p).da = min 65535 d) ∧
      (∀ p d, 1 ≤ p → p ≤ (lp s k).n → measured (lp s k) p false = some d → (unitAt (lp t k) p).db = min 65535 d) ∧
      (∀ p, measured (lp s k) p true = none → measured (lp s k) p false = none →
        unitAt (lp t k) p = unitAt (lp s k) p) ∧ Unchanged [.chn, .kln, .recd, .hst, .mem] s t) ∧
  (∀ (k : Str) (s : State), awake s = true → (lp s k).tx = none → (lp s k).op = .enumDelay → (lp s k).readBoth = false →
    (lp s k).queue.any (fun i => i.rank == 10) = false →
    Runs (.delayMeasurementComplete k) s fun t => (lp t k).readBoth = true ∧ (lp t k).op = .enumDelay ∧
      (∀ p ∈ answered (outcomeOf s k), ∀ d, measured (lp s k) p true = some d →
        (unitAt (lp t k) p).da = min 65535 d) ∧
      (∀ p ∈ answered (outcomeOf s k),
        (p, setCompFrom (unitAt (lp t k) p) (outcomeOf s k).n (outcomeOf s k).a p) ∈
          ((lp t k).queue.headD { rank := 0, cmds := [] }).cmds) ∧ Unchanged [.chn] s t))

/-- The operations of CHN_CMD and what follows them: ENUMERATE needs maintenance or configure and no connected mode; LOCATE
and ECHO_REFRESH are queued; CLEAR_COUNTERS clears the two ports of the loop alone; the loop's state after a location is
that of R136; three arrivals in a row suspect that a broken loop is whole again (R119, R124, R136, R139). -/
def Obligations.ChainCommandsAndLocation : Prop :=
  (∀ (w : Win) (k : Str) (s : State), Granted s w 0x40000 rMaint ∨ Granted s w 0x40000 rCfg → loopOn s k = true →
    s.emb.mode ≠ .precharge → s.emb.mode ≠ .connected → s.emb.mode ≠ .drowse → (lp s k).state ≠ .enum →
    Runs (.enumerate w k) s fun t => Accepted t w ∧ t.chn.res = .busy ∧ (lp t k).state = .enum ∧ (lp t k).op = .enumA ∧
      (lp t k).sweepOpen = false ∧ (lp t k).hostOp = true ∧ (∀ j, j ≠ k.val → lp t j = lp s j) ∧
      Unchanged [.chn, .imp, .tx, .hst, .mem] s t) ∧
  (∀ (w : Win) (k : Str) (s : State), Granted s w 0x40000 rCfg → loopOn s k = true →
    s.emb.mode = .precharge ∨ s.emb.mode = .connected ∨ s.emb.mode = .drowse →
    Runs (.enumerate w k) s fun t => (win t w).lastRes = .refusedMode ∧ t.chn.res = .refusedMode ∧
      t.chn.loops = s.chn.loops ∧ Unchanged [.chn, .hst, .mem] s t) ∧
  (∀ (w : Win) (k : Str) (s : State), Granted s w 0x40000 rMaint ∨ Granted s w 0x40000 rCfg → loopOn s k = true →
    (lp s k).state ≠ .enum → (lp s k).op ≠ .locateA → (lp s k).op ≠ .locateB → queued (lp s k) < 16 →
    Runs (.locate w k) s fun t => Accepted t w ∧ t.chn.res = .busy ∧ (lp t k).suspect = true ∧
      (lp t k).state = (lp s k).state ∧ Unchanged [.chn, .hst] s t) ∧
  (∀ (w : Win) (k : Str) (s : State), Granted s w 0x40000 rMaint → loopOn s k = true → sweeps (lp s k) = true →
    (lp s k).refresh = false → queued (lp s k) < 16 →
    Runs (.echoRefresh w k) s fun t => Accepted t w ∧ t.chn.res = .busy ∧ (lp t k).refresh = true ∧
      (lp t k).echoTodo = reachablePos (lp s k) ∧ (lp t k).lastEcho = s.now ∧ Unchanged [.chn, .hst] s t) ∧
  (∀ (w : Win) (k : Str) (s : State), Granted s w 0x40000 rMaint → loopOn s k = true →
    Runs (.chnClearCounters w k) s fun t => Accepted t w ∧ t.chn.res = .ok ∧
      (∀ j, j = 2 * k.val ∨ j = 2 * k.val + 1 →
        (port t j).crc = 0 ∧ (port t j).code = 0 ∧ (port t j).tmo = 0 ∧ (port t j).disc = 0) ∧
      (∀ j, j ≠ 2 * k.val → j ≠ 2 * k.val + 1 → port t j = port s j) ∧ t.chn.loops = s.chn.loops ∧
      Unchanged [.chn, .hst] s t) ∧
  (∀ (k : Str) (s : State), (lp s k).op = .locateB → (lp s k).readBoth = true → (lp s k).tx = none →
    Runs (.locateComplete k) s fun t => (lp t k).op = .idle ∧ (lp t k).suspect = false ∧ (lp t k).n = (lp s k).n ∧
      (runLen (lp s k).listA 63 0 = (lp s k).n → (lp s k).arrA = true → (lp t k).state = .closed) ∧
      ((lp s k).arrA = false → runLen (lp s k).listA 63 0 = 0 → runLen (lp s k).listB 63 0 = 0 → (lp t k).state = .lost) ∧
      ((lp s k).arrA = false → 0 < runLen (lp s k).listA 63 0 ∨ 0 < runLen (lp s k).listB 63 0 →
        (lp t k).state = .rerouted ∧ (lp t k).aLast = runLen (lp s k).listA 63 0 ∧
        (lp t k).bFirst = (lp s k).n + 1 - runLen (lp s k).listB 63 0) ∧
      Unchanged [.chn, .est, .imp, .kln, .recd, .hst, .mem] s t) ∧
  (∀ (k : Str) (s : State), 3 ≤ (lp s k).rejoin → (lp s k).state = .rerouted ∨ (lp s k).state = .lost →
    Runs (.chainRejoin k) s fun t => (lp t k).suspect = true ∧ (lp t k).rejoin = 0 ∧
      (lp t k).state = (lp s k).state ∧ Unchanged [.chn] s t) ∧
  (∀ (k : Str) (s : State), awake s = true → loopOn s k = true → rdf s chnLcfg [k] 15 0 ≠ 0 →
    (lp s k).lastEcho + 1000000 * rdf s chnLcfg [k] 15 0 ≤ s.now →
    Runs (.echoRefreshDue k) s fun t => (lp t k).lastEcho = s.now ∧
      (sweeps (lp s k) = true → (lp s k).refresh = false → queued (lp s k) < 16 →
        (lp t k).refresh = true ∧ (lp t k).echoTodo = reachablePos (lp s k)) ∧
      (sweeps (lp s k) = false → lp t k = { lp s k with lastEcho := s.now }) ∧ Unchanged [.chn] s t)

/-! ### Sweeps, sense-wire faults and balancing (R125 to R165) -/

/-- A sweep: at its instant SYNC leaves from both ends with the next SYNC_ID; a sweep whose read is still open is skipped and counted;
RD_DLY after t0 the read starts; at the close one record is counted, each unit without a response carries NO_RESPONSE, and the sweep's
descriptor takes the next place of ring 16 + k (R125, R131, R142 to R147).
Open-wire triggers: OW_RUN, the period OW_PER and a cell that has been SENSE_SUSPECT for 60 s each queue a test of the
unit, or of the whole loop (position 0); a position the loop does not have is NOT_PRESENT (R151, R542). -/
def Obligations.SweepsAndOpenWireTests : Prop :=
  ((∀ (k : Str) (s : State), awake s = true → loopOn s k = true → sweeps (lp s k) = true → sweepInstant s k = true →
    (lp s k).sweepOpen = false → (lp s k).tx = none → (imps s k).armed = false → owApplied s k = false →
    Runs (.sweepSync k) s fun t => (lp t k).syncId = (lp s k).syncId + 1 ∧ (lp t k).sweepOpen = true ∧
      (lp t k).t0 = s.now ∧ (lp t k).ts = s.tim.now + BitVec.ofNat 64 (25 * rdf s chnLtim [k] 15 0) ∧
      (lp t k).kind = 0 ∧ (lp t k).readDue = false ∧
      (∀ fromA : Bool, tget [] t.tx (ifChain (sendPort k fromA)) =
        frame 2 hopAll 0 ((lp s k).syncId + 1).toNat (leB 2 (rdf s chnLtim [k] 15 0))) ∧
      (∀ j, j ≠ k.val → lp t j = lp s j) ∧ Unchanged [.chn, .tx] s t) ∧
  (∀ (k : Str) (s : State), awake s = true → loopOn s k = true → sweeps (lp s k) = true → sweepInstant s k = true →
    (lp s k).sweepOpen = true →
    Runs (.sweepSync k) s fun t => (lp t k).skip = min 255 ((lp s k).skip + 1) ∧ (lp t k).skipped = true ∧
      (lp t k).syncId = (lp s k).syncId ∧ Unchanged [.chn] s t) ∧
  (∀ (k : Str) (s : State), sweepInstant s k = false → exec (.sweepSync k) s = .next s) ∧
  (∀ (k : Str) (s : State), awake s = true → (lp s k).sweepOpen = true → (lp s k).readDue = false →
    (lp s k).t0 + rdf s chnLtim [k] 31 16 ≤ s.now →
    Runs (.sweepReadStart k) s fun t => (lp t k).readDue = true ∧ (lp t k).sweepOpen = true ∧
      ((lp s k).tx = none → (lp s k).readDone = false → ∃ x, (lp t k).tx = some x ∧ x.pos = 0 ∧ x.limit = aLast (lp s k) ∧
        x.cmd = bcast true 0x05 [BitVec.ofNat 8 (aLast (lp s k))]) ∧
      (∀ x, (lp s k).tx = some x → (lp t k).tx = some x) ∧ Unchanged [.chn, .tx] s t) ∧
  (∀ (k : Str) (s : State), (lp s k).sweepOpen = true → (lp s k).readDone = true → (lp s k).tx = none →
    Runs (.sweepClose k) s fun t => (lp t k).sweepOpen = false ∧ (lp t k).records = (lp s k).records + 1 ∧
      (lp t k).seq = BitVec.ofNat 32 (lp s k).records ∧ (lp t k).lastRecord = some (lp s k).t0 ∧
      (∀ p, 1 ≤ p → p ≤ (lp s k).n → (∀ r ∈ (lp s k).resps, r.pos ≠ p) → (unitAt (lp t k) p).uflags.getLsbD 15 = true) ∧
      (ringLive s (16 + k.val) = true → (ring s (16 + k.val)).overflow = false →
        ringFill (ring s (16 + k.val)) < ringDepth s (16 + k.val) → (ring s (16 + k.val)).waiting = [] →
        (ring t (16 + k.val)).head = (ring s (16 + k.val)).head + 1) ∧
      Unchanged [.chn, .est, .imp, .hst, .mem, .kln, .recd, .fresh] s t)) ∧
  ((∀ (w : Win) (k : Str) (p : BitVec 6) (s : State), Granted s w 0x50000 rMaint ∨ Granted s w 0x50000 rCfg →
    loopOn s k = true → p.toNat ≤ (lp s k).n →
    Runs (.owRun w k p) s fun t => Accepted t w ∧ t.chn.swpRes = .busy ∧ p.toNat ∈ (lp t k).owWait ∧
      (lp t k).owState = (lp s k).owState ∧ Unchanged [.chn, .hst] s t) ∧
  (∀ (w : Win) (k : Str) (p : BitVec 6) (s : State), Granted s w 0x50000 rMaint → (lp s k).n < p.toNat →
    Runs (.owRun w k p) s fun t => (win t w).lastRes = .notPresent ∧ t.chn.swpRes = .notPresent ∧
      t.chn.loops = s.chn.loops ∧ Unchanged [.chn, .hst, .mem] s t) ∧
  (∀ (k : Str) (s : State), awake s = true → loopOn s k = true → rdf s swpOw [k] 11 0 ≠ 0 →
    (lp s k).lastOwAll + 60000000 * rdf s swpOw [k] 11 0 ≤ s.now →
    Runs (.owPeriodic k) s fun t => (lp t k).lastOwAll = s.now ∧ (sweeps (lp s k) = true → 0 ∈ (lp t k).owWait) ∧
      (sweeps (lp s k) = false → (lp t k).owWait = (lp s k).owWait) ∧ Unchanged [.chn] s t) ∧
  (∀ (k : Str) (p : BitVec 6) (s : State), awake s = true → p ≠ 0 → p.toNat ≤ (lp s k).n →
    (unitAt (lp s k) p.toNat).susp ≠ 0 → (unitAt (lp s k) p.toNat).lastTest + 60000000 ≤ s.now → (lp s k).owState = 0 →
    Runs (.owSuspectRetest k p) s fun t => p.toNat ∈ (lp t k).owWait ∧ Unchanged [.chn] s t))

/-- Balancing: BAL_HALT stops it and sends a broadcast of zero durations, BAL_RESUME lets it go on, and every BAL_PER the
bleed charge is read and, in the modes of R158, BAL_SET goes to the units (R158 to R161, R165). In DROWSE the halt's BAL_SET
waits for the end of DROWSE (the model's choice, notes/assumptions/35.md). -/
def Obligations.BalancingRunsByPeriod : Prop :=
  (∀ (w : Win) (k : Str) (s : State), Granted s w 0x50000 rMaint ∨ Granted s w 0x50000 rCfg → loopOn s k = true →
    Runs (.balHalt w k) s fun t => Accepted t w ∧ t.chn.swpRes = .ok ∧ (lp t k).balHalted = true ∧ balStopped t k = true ∧
      (s.emb.mode = .drowse → (lp t k).queue = (lp s k).queue) ∧
      (s.emb.mode ≠ .drowse → (lp s k).state = .closed → queued (lp s k) < 16 → ∃ i, (lp t k).queue = (lp s k).queue ++ [i] ∧
        i.cmds = [(0, bcast true 0x07 (BitVec.ofNat 8 (lp s k).n :: List.replicate 32 0))]) ∧
      Unchanged [.chn, .hst] s t) ∧
  (∀ (w : Win) (k : Str) (s : State), Granted s w 0x50000 rMaint ∨ Granted s w 0x50000 rCfg → loopOn s k = true →
    Runs (.balResume w k) s fun t => Accepted t w ∧ t.chn.swpRes = .ok ∧ (lp t k).balHalted = false ∧
      (lp t k).queue = (lp s k).queue ∧ Unchanged [.chn, .hst] s t) ∧
  (∀ (k : Str) (s : State), awake s = true → loopOn s k = true →
    (lp s k).lastBal + 1000000 * rdf s swpBcfg [k] 11 0 ≤ s.now → balMode s.emb.mode = true → s.emb.emberAt = none →
    balStopped s k = false → sweeps (lp s k) = true → queued (lp s k) < 15 →
    Runs (.balanceRun k) s fun t => (lp t k).lastBal = s.now ∧
      (∃ i, (lp t k).queue = (lp s k).queue ++ [readBalItem (lp s k), i] ∧ ∀ c ∈ i.cmds, c.2.opc = 0x07) ∧
      Unchanged [.chn, .est] s t) ∧
  (∀ (k : Str) (s : State), awake s = true → loopOn s k = true →
    (lp s k).lastBal + 1000000 * rdf s swpBcfg [k] 11 0 ≤ s.now → s.emb.mode = .drowse → sweeps (lp s k) = true →
    queued (lp s k) < 16 →
    Runs (.balanceRun k) s fun t => (lp t k).lastBal = s.now ∧
      (lp t k).queue = (lp s k).queue ++ [readBalItem (lp s k)] ∧ Unchanged [.chn] s t) ∧
  (∀ (k : Str) (s : State), awake s = true → balStopped s k = true → s.emb.mode ≠ .drowse →
    exec (.balanceRun k) s = .next s)

/-! ### The measurement bank (R171 to R197) -/

/-- One precision-path instant, each 100 µs: every channel that converts takes its corrected word, clamped with OVR beyond its
range, and with three channels admitted and none over range the voted current is their median (R171, R172, R189, R191).
A current channel that has deviated for VOTE_T is flagged; one that has stayed within the threshold for 10 s and is not
latched is admitted again (R190). -/
def Obligations.CurrentSamplesAndChannelFlags : Prop :=
  ((∀ (x ctl : List Int) (s : State), awake s = true → Engine.bank ∉ s.kln.stopped → sampleDue s = true →
    Runs (.precisionSample x ctl) s fun t =>
      (∀ c < 24, inUse s c = true → converts s c = true → vbHeld s c = false →
        (chan t c).word = (chanWord s x c).1 ∧ (chan t c).ovr = (chanWord s x c).2) ∧
      (∀ k < 4, strOk s k = true → s.emb.mode ≠ .drowse → (mstr s k).flag = 0 →
        (∀ j < 3, inUse s (3 * k + j) = true ∧ (chanWord s x (3 * k + j)).2 = false) →
        (mstr t k).invalid = false ∧ (mstr t k).voted =
          median3 (chanWord s x (3 * k)).1 (chanWord s x (3 * k + 1)).1 (chanWord s x (3 * k + 2)).1) ∧
      t.mea.sampleAt = s.now ∧ t.emb.mode = s.emb.mode ∧ t.now = s.now) ∧
  (∀ (x ctl : List Int) (s : State), sampleDue s = false → exec (.precisionSample x ctl) s = .next s) ∧
  (∀ (c : Nat) (v : Int × Int) (trim : Int) (s : State), (chanLimit c * 1000 * v.2).natAbs < v.1.natAbs → 0 ≤ v.1 →
    wordOf s c v trim = (chanLimit c, true)) ∧
  (∀ (c : Nat) (v : Int × Int) (trim : Int) (s : State), (chanLimit c * 1000 * v.2).natAbs < v.1.natAbs → v.1 < 0 →
    wordOf s c v trim = (-chanLimit c, true)) ∧
  (∀ a b c : Int, a ≤ b → b ≤ c → median3 a b c = b ∧ median3 b a c = b ∧ median3 c b a = b)) ∧
  ((∀ (k : Str) (j : Fin 3) (t0 : Nat) (s : State), tget none (mstr s k).devSince j.val = some t0 →
    (mstr s k).flag.getLsbD j.val = false → inUse s (3 * k.val + j.val) = true → converts s (3 * k.val + j.val) = true →
    t0 + 1000 * rdf s meaIvcfg [k] 31 22 ≤ s.now →
    Runs (.channelFlag k j) s fun t => (mstr t k).flag = (mstr s k).flag ||| BitVec.ofNat 3 (2 ^ j.val) ∧
      (mstr t k).voted = (mstr s k).voted ∧ (∀ i, i ≠ k.val → mstr t i = mstr s i) ∧
      Unchanged [.mea, .kln, .recd, .hst, .mem] s t) ∧
  (∀ (k : Str) (j : Fin 3) (t0 : Nat) (s : State), tget none (mstr s k).devSince j.val = some t0 →
    s.now < t0 + 1000 * rdf s meaIvcfg [k] 31 22 → exec (.channelFlag k j) s = .next s) ∧
  (∀ (k : Str) (j : Fin 3) (t0 : Nat) (s : State), tget none (mstr s k).okSince j.val = some t0 →
    (mstr s k).flag.getLsbD j.val = true → (mstr s k).latch.getLsbD j.val = false → converts s (3 * k.val + j.val) = true →
    t0 + 10000000 ≤ s.now →
    Runs (.channelReadmit k j) s fun t => (mstr t k).flag = (mstr s k).flag &&& ~~~ BitVec.ofNat 3 (2 ^ j.val) ∧
      (mstr t k).latch = (mstr s k).latch ∧ (∀ i, i ≠ k.val → mstr t i = mstr s i) ∧ Unchanged [.mea] s t) ∧
  (∀ (k : Str) (j : Fin 3) (s : State), (mstr s k).latch.getLsbD j.val = true → exec (.channelReadmit k j) s = .next s))

/-- A slot of the calibration rotation: the spare calibrates, connects after 48 ms unless an injection waits on the input,
takes the channel's words after 1 ms of overlap with the trim m, the difference of the overlap's means; the slice calibrates
for 200 ms, overlaps, and takes its words back with the difference removed over T_SLEW; ROT_HALT and ROT_RESUME pause the
rotation, and a pause abandons a step before the switch out (R174 to R179, R183).
Injected conversions: INJECT waits in the queue of its string with MEA_RES reading BUSY, or is FULL behind four; one
runs at a time, is counted by its requester, and delivers its result once it has ended, after 11 µs (R180, R181; the µs within
10.5 to 11.5 µs is the model's choice, notes/assumptions/5.md). -/
def Obligations.RotationAndInjectedConversions : Prop :=
  ((∀ s : State, rotPaused s = false → s.mea.rotRun = false → s.mea.rotPhase = 0 → usedChans s ≠ [] →
    Runs .rotationSlotStart s fun t => t.mea.rotRun = true ∧ t.mea.rotAt = s.now ∧ inUse t t.mea.rotCh = true ∧
      t.mea.rotPhase = 0 ∧ t.mea.chans = s.mea.chans ∧ Unchanged [.mea] s t) ∧
  (∀ (r : CalReadings) (s : State), rotPaused s = false → s.mea.rotRun = true → s.mea.rotPhase = 0 →
    s.mea.rotAt + 48000 ≤ s.now → (sliceOf s 24).calibrated = false → injPending s s.mea.rotCh = false →
    Runs (.rotationSpareConnect r) s fun t => t.mea.rotPhase = 1 ∧ t.mea.rotAt = s.now ∧ t.mea.rotCh = s.mea.rotCh ∧
      (sliceOf t 24).calibrated = true ∧ (sliceOf t 24).off = r.zero ∧ t.mea.chans = s.mea.chans ∧
      Unchanged [.mea, .fresh] s t) ∧
  (∀ (r : CalReadings) (s : State), rotPaused s = false → s.mea.rotRun = true → s.mea.rotPhase = 0 →
    s.mea.rotAt + 48000 ≤ s.now → (sliceOf s 24).calibrated = false → injPending s s.mea.rotCh = true →
    Runs (.rotationSpareConnect r) s fun t => t.mea.rotPhase = 0 ∧ t.mea.rotRun = false ∧
      t.mea.rotSkip = min 65535 (s.mea.rotSkip + 1) ∧ t.mea.chans = s.mea.chans ∧
      Unchanged [.mea, .fresh, .kln, .recd, .hst, .mem] s t) ∧
  (∀ s : State, rotPaused s = false → overlapDone s 1 = true →
    Runs .rotationSwitchOut s fun t => (chan t s.mea.rotCh).slice = some 24 ∧
      (chan t s.mea.rotCh).trim = ovMean s s.mea.ovSlice - ovMean s s.mea.ovSpare ∧
      t.mea.rotPhase = 2 ∧ t.mea.rotAt = s.now ∧ (∀ c, c ≠ s.mea.rotCh → chan t c = chan s c) ∧ Unchanged [.mea] s t) ∧
  (∀ s : State, rotPaused s = true → s.mea.rotPhase ≤ 1 →
    Runs .rotationSwitchOut s fun t => t.mea.rotPhase = 4 ∧ t.mea.rotRun = false ∧ t.mea.chans = s.mea.chans ∧
      Unchanged [.mea] s t) ∧
  (∀ (r : CalReadings) (s : State), s.mea.rotRun = true → s.mea.rotPhase = 2 → s.mea.rotAt + 200000 ≤ s.now →
    (sliceOf s s.mea.rotCh).calibrated = false →
    Runs (.rotationReconnect r) s fun t => t.mea.rotPhase = 3 ∧ t.mea.rotAt = s.now ∧
      (sliceOf t s.mea.rotCh).calibrated = true ∧ (sliceOf t s.mea.rotCh).off = r.zero ∧ t.mea.chans = s.mea.chans ∧
      Unchanged [.mea, .fresh, .kln, .recd, .hst, .mem] s t) ∧
  (∀ s : State, overlapDone s 3 = true → rotPaused s = false →
    Runs .rotationSwitchBack s fun t => (chan t s.mea.rotCh).slice = none ∧
      (chan t s.mea.rotCh).ramp = ovMean s s.mea.ovSpare - ovMean s s.mea.ovSlice ∧
      (chan t s.mea.rotCh).rampAt = s.now ∧ t.mea.rotRun = false ∧ t.mea.rotPhase = 0 ∧
      (∀ c, c ≠ s.mea.rotCh → chan t c = chan s c) ∧ Unchanged [.mea] s t) ∧
  (∀ (w : Win) (s : State), Granted s w 0x60000 rMaint →
    Runs (.rotHalt w) s fun t => Accepted t w ∧ t.mea.halted = true ∧ t.mea.res = .ok ∧ rotHalted t = true ∧
      (s.mea.rotPhase ≤ 1 → t.mea.rotPhase = 4) ∧ Unchanged [.mea, .hst] s t) ∧
  (∀ (w : Win) (s : State), Granted s w 0x60000 rMaint →
    Runs (.rotResume w) s fun t => Accepted t w ∧ t.mea.halted = false ∧ t.mea.res = .ok ∧ Unchanged [.mea, .hst] s t)) ∧
  ((∀ (w : Win) (k : Str) (p : BitVec 2) (s : State), Granted s w 0x60000 rMaint → strOk s k = true →
    Engine.bank ∉ s.kln.stopped → p ≠ 3 → (mstr s k).waiting.length < 4 →
    Runs (.inject w k p) s fun t => Accepted t w ∧ t.mea.res = .busy ∧
      (mstr t k).waiting = (mstr s k).waiting ++ [(.host w, p.toNat)] ∧ (mstr t k).running = (mstr s k).running ∧
      Unchanged [.mea, .hst] s t) ∧
  (∀ (w : Win) (k : Str) (p : BitVec 2) (s : State), Granted s w 0x60000 rMaint → strOk s k = true →
    Engine.bank ∉ s.kln.stopped → p ≠ 3 → 4 ≤ (mstr s k).waiting.length →
    Runs (.inject w k p) s fun t => (win t w).lastRes = .full ∧ t.mea.res = .full ∧ t.mea.strs = s.mea.strs ∧
      Unchanged [.mea, .hst, .mem] s t) ∧
  (∀ (w : Win) (k : Str) (s : State), Granted s w 0x60000 rMaint → strOk s k = true → Engine.bank ∉ s.kln.stopped →
    Runs (.inject w k 3) s fun t => (win t w).lastRes = .range ∧ t.mea.strs = s.mea.strs ∧
      Unchanged [.mea, .hst, .mem] s t) ∧
  (∀ (k : Str) (r : InjReq) (p : Nat) (q : List (InjReq × Nat)) (s : State), awake s = true → Engine.bank ∉ s.kln.stopped →
    (mstr s k).running = none → (mstr s k).waiting = (r, p) :: q →
    Runs (.injectionStart k) s fun t => (mstr t k).running = some (r, p, s.now) ∧ (mstr t k).waiting = q ∧
      (if r = .lanes then t.mea.injSaf = (s.mea.injSaf + 1) % 2 ^ 16 ∧ t.mea.injOther = s.mea.injOther
        else t.mea.injOther = (s.mea.injOther + 1) % 2 ^ 16 ∧ t.mea.injSaf = s.mea.injSaf) ∧ Unchanged [.mea] s t) ∧
  (∀ (k : Str) (mv : Int) (w : Win) (p t0 : Nat) (s : State), awake s = true →
    (mstr s k).running = some (.host w, p, t0) → t0 + 11 ≤ s.now →
    Runs (.injectionComplete k mv) s fun t => (mstr t k).running = none ∧ t.mea.injVal = mv ∧ t.mea.res = .ok ∧
      (mstr t k).waiting = (mstr s k).waiting ∧ Unchanged [.mea] s t) ∧
  (∀ (k : Str) (mv : Int) (s : State), (mstr s k).running = none → exec (.injectionComplete k mv) s = .next s))

/-- The insulation monitor: ISO_NOW restarts the measurement of its string; a settled state 1 is followed by state 2, a
settled state 2 publishes R_iso from the means of its last 100 ms, and a state unsettled after 10 s reads NOT_SETTLED (R194,
R195).
The references: each second's deviations, from the means of channels 22 and 23, are taken from the median of those not
excluded, the runs above 3 ppm stand still while WARMING, an oven out of its range excludes at once after it, 10 min above
3 ppm excludes a first reference, and with one excluded the other two raise REF_FAIL (R185 to R187). -/
def Obligations.InsulationAndReferences : Prop :=
  ((∀ (w : Win) (k : Str) (s : State), Granted s w 0x60000 rMaint → strOk s k = true → Engine.bank ∉ s.kln.stopped →
    isoMay s = true →
    Runs (.isoNow w k) s fun t => Accepted t w ∧ t.mea.res = .ok ∧ t.mea.isoStr = k.val ∧ t.mea.isoState = 1 ∧
      t.mea.isoSince = s.now ∧ Unchanged [.mea, .hst] s t) ∧
  (∀ s : State, s.mea.isoState = 1 → s.mea.isoSince + 1000000 ≤ s.now → isoMay s = true → isoSettled s = true →
    (mstr s s.mea.isoStr).running = none →
    Runs .isoStateEnd s fun t => t.mea.isoState = 2 ∧ t.mea.isoSince = s.now ∧
      t.mea.isoVp1 = isoMean (s.mea.isoHist.map (·.1)) ∧ t.mea.isoVn1 = isoMean (s.mea.isoHist.map (·.2)) ∧
      t.mea.isoU1 = s.mea.isoU ∧ t.mea.isoStr = s.mea.isoStr ∧ Unchanged [.mea] s t) ∧
  (∀ (det : Int) g (s : State), s.mea.isoState = 2 → s.mea.isoSince + 1000000 ≤ s.now → isoMay s = true →
    isoSettled s = true → (mstr s s.mea.isoStr).running = none →
    det = isoDet s.mea.isoVp1 s.mea.isoVn1 (isoMean (s.mea.isoHist.map (·.1))) (isoMean (s.mea.isoHist.map (·.2))) →
    g = isoG s s.mea.isoStr s.mea.isoVp1 s.mea.isoVn1 s.mea.isoU1 (isoMean (s.mea.isoHist.map (·.1)))
      (isoMean (s.mea.isoHist.map (·.2))) s.mea.isoU →
    Runs .isoStateEnd s fun t => (mstr t s.mea.isoStr).isoR = (isoResult det g s).1.1 ∧
      (mstr t s.mea.isoStr).isoAt = s.now ∧ Unchanged [.mea, .fresh, .kln, .recd, .hst, .mem] s t) ∧
  (∀ s : State, s.mea.isoState = 1 ∨ s.mea.isoState = 2 → s.mea.isoSince + 10000000 ≤ s.now → isoSettled s = false →
    isoMay s = true → (mstr s s.mea.isoStr).running = none →
    Runs .isoStateEnd s fun t => (mstr t s.mea.isoStr).isoStat = 4 ∧ Unchanged [.mea] s t) ∧
  (∀ s : State, isoSettled s = false → s.now < s.mea.isoSince + 10000000 → exec .isoStateEnd s = .next s) ∧
  (∀ (d : Int) (s : State), (isoResult d none s).1.1 = 0xFFFFFF) ∧
  (∀ (d gp gn : Int) (s : State), d ≤ 0 ∨ gp + gn ≤ 20000 → (isoResult d (some (gp, gn)) s).1.1 = 0xFFFFFF) ∧
  (∀ (d gp gn : Int) (s : State), 0 < d → 20000 < gp + gn →
    (isoResult d (some (gp, gn)) s).1.1 = (rdiv 1000000000 (gp + gn)).toNat)) ∧
  ((∀ (ovens : BitVec 3) (s : State), s.now < s.mea.refAt + 1000000 → exec (.refEvaluation ovens) s = .next s) ∧
  (∀ (ovens : BitVec 3) (s : State), awake s = true → s.mea.refAt + 1000000 ≤ s.now → s.trc.warming = true →
    Runs (.refEvaluation ovens) s fun t => t.mea.excl = s.mea.excl ∧
      (∀ x < 3, tget 0 t.mea.refDev x = rdiv (refOff s x) (refDen s) ∧ refTimer t x = refTimer s x) ∧
      t.mea.ovenOk = ovens ∧ t.mea.refAt = s.now ∧ t.mea.refNB = 0 ∧ t.mea.refNC = 0 ∧ Unchanged [.mea] s t) ∧
  (∀ s : State, awake s = true → s.mea.refAt + 1000000 ≤ s.now → s.trc.warming = false →
    Runs (.refEvaluation 7) s fun t => t.mea.excl = s.mea.excl ∧
      (∀ x < 3, (300 * refDen s < (refOff s x).natAbs → refTimer t x = min 65535 (refTimer s x + 1)) ∧
        ((refOff s x).natAbs ≤ 300 * refDen s → refTimer t x = 0)) ∧ Unchanged [.mea] s t) ∧
  (∀ (ovens : BitVec 3) (s : State), awake s = true → s.mea.refAt + 1000000 ≤ s.now → s.trc.warming = false →
    Runs (.refEvaluation ovens) s fun t => (∀ x < 3, ovens.getLsbD x = false → t.mea.excl.getLsbD x = true) ∧
      Unchanged [.mea, .kln, .recd, .hst, .mem] s t) ∧
  (∀ (x : Fin 3) (s : State), s.trc.warming = false → s.mea.excl = 0 → 600 ≤ refTimer s x →
    Runs (.refExclusion x) s fun t => t.mea.excl = BitVec.ofNat 3 (2 ^ x.val) ∧ t.mea.refFail = s.mea.refFail ∧
      Unchanged [.mea, .kln, .recd, .hst, .mem] s t) ∧
  (∀ (x : Fin 3) (s : State), s.mea.excl = BitVec.ofNat 3 (2 ^ x.val) → s.mea.refFail = false →
    (∀ y < 3, y ≠ x.val → 600 ≤ refTimer s y) →
    Runs .refFail s fun t => t.mea.refFail = true ∧ t.mea.refFailSince = some s.now ∧ t.mea.excl = s.mea.excl ∧
      Unchanged [.mea, .kln, .recd, .hst, .mem] s t))

/-! ### Traceability (R198 to R213) -/

/-- CALIBRATE: a window with the calibrate right enters it in MAINTENANCE with WARMING clear and becomes its owner; any other window then
gets BUSY; the owner leaves it, and an operation that still runs is then abandoned with REFUSED_MODE in RES (R206). WARMING ends 1800 s of Ember ticks after its start, and CAL_AGED follows 720 h
after ROT_DEGR (R200, R201).
VERIFY and ADJUST: VERIFY integrates whole seconds over T_INT and then writes one AUDIT record and publishes DEV, U and the verdict;
a mean J5 reading below 10 % of the range ends it with RANGE, a full audit partition with FULL; ADJUST applies the last VERIFY of the
same entry of this stay, at most 600 s old, and writes GCORR with SOURCE 2 and the next REV to both copies, and no other
entry; it answers RANGE, FULL or EXPIRED with no record changed (R14, R204, R205, R208 to R211).
ZERO, REF_ADJUST and REF_READMIT: ZERO runs with the contactors open and takes the mean of the channel's words over T_INT off OCORR
with SOURCE 3; REF_ADJUST scales the VALUE of a reference by the standard over the reading (where the manual states no
result, a free value: assumption 67); REF_READMIT admits one again. Each writes one AUDIT record (R188, R205, R212). -/
def Obligations.CalibrationRunsUnderOneOwner : Prop :=
  ((∀ (w : Win) (s : State), Granted s w 0x70000 rCal → s.emb.mode = .maintenance → s.trc.warming = false →
    s.trc.owner = none →
    Runs (.trcEnter w) s fun t => Accepted t w ∧ t.trc.owner = some w ∧ calActive t = true ∧ t.trc.res = .ok ∧
      t.trc.recA = s.trc.recA ∧ t.trc.recB = s.trc.recB ∧ Unchanged [.trc, .mea, .hst] s t) ∧
  (∀ (w : Win) (s : State), Granted s w 0x70000 rCal → s.trc.owner = none → s.emb.mode ≠ .maintenance ∨ s.trc.warming = true →
    Runs (.trcEnter w) s fun t => (win t w).lastRes = .refusedMode ∧ t.trc.owner = none ∧ t.trc.res = .refusedMode ∧
      Unchanged [.trc, .hst, .mem] s t) ∧
  (∀ (w o : Win) (s : State), Granted s w 0x70000 rCal → s.trc.owner = some o → o ≠ w →
    Runs (.trcEnter w) s fun t => (win t w).lastRes = .busy ∧ t.trc.owner = some o ∧ Unchanged [.trc, .hst, .mem] s t) ∧
  (∀ (w : Win) (s : State), Granted s w 0x70000 rCal → s.trc.owner = some w →
    Runs (.trcLeave w) s fun t => Accepted t w ∧ t.trc.owner = none ∧ t.trc.op = .idle ∧
      t.trc.res = (if s.trc.op = .idle then .ok else .refusedMode) ∧
      t.trc.recA = s.trc.recA ∧ t.trc.recB = s.trc.recB ∧ Unchanged [.trc, .mea, .hst] s t) ∧
  (∀ (t0 : Nat) (s : State), s.trc.warmAt = some t0 → s.trc.warming = true → t0 + 1800 * 32768 ≤ s.emb.ticks →
    Runs .warmingEnd s fun t => t.trc.warming = false ∧ t.trc.warmAt = none ∧
      (s.mea.ovenOk = 7 → t.mea = s.mea) ∧ Unchanged [.trc, .mea, .kln, .recd, .hst, .mem] s t) ∧
  (∀ s : State, s.mea.rotDegr = true → s.trc.calAged = false → s.mea.rotDegrOph + 720 * 3600 ≤ s.emb.oph.toNat →
    Runs .calAged s fun t => t.trc.calAged = true ∧ Unchanged [.trc] s t)) ∧
  ((∀ (w : Win) (e : BitVec 6) (s : State), Granted s w 0x70000 rCal → s.trc.owner = some w → s.trc.op = .idle →
    e.toNat < 22 → present s 6 e.toNat = true → rd s trcJ5s [] ≠ 0 → j5Range s = (if e.toNat < 12 then 1 else 0) →
    Runs (.trcVerify w e) s fun t => Accepted t w ∧ t.trc.op = .verify e.toNat s.now ∧ t.trc.res = .busy ∧
      t.trc.owner = some w ∧ t.trc.secs = [] ∧ t.trc.opN = 0 ∧ t.trc.secAt = s.now ∧ Unchanged [.trc, .hst] s t) ∧
  (∀ (w : Win) (e t0 : Nat) (s : State), s.trc.op = .verify e t0 → s.trc.owner = some w → awake s = true →
    t0 + 1000000 * tInt s ≤ s.now → tInt s ≤ s.trc.secs.length → auditFullNow s = false →
    j5Full s * s.trc.opN ≤ (sumI (s.trc.secs.map (·.2))).natAbs * 10 →
    Runs .trcVerifyComplete s fun t => t.trc.op = .idle ∧ t.trc.res = .ok ∧ t.trc.vEntry = e ∧
      t.trc.dev = devOf (ratioOf s e (sumI (s.trc.secs.map (·.1))) (sumI (s.trc.secs.map (·.2)))) ∧
      t.trc.vU = (verifyU s e).1 ∧ ((∀ p ∈ s.trc.secs, p.2 ≠ 0) → t.fresh = s.fresh) ∧
      tget none t.trc.verifs e = some { dev := t.trc.dev, u := t.trc.vU, at_ := s.now } ∧
      t.trc.verdict = verdictOf t.trc.dev t.trc.vU (rdf s trcJ5cfg [] 15 0) ∧
      t.recd.audit.length = s.recd.audit.length + 1 ∧ (∀ f, calRec t f = calRec s f) ∧ Unchanged [.trc, .recd, .fresh] s t) ∧
  (∀ (w : Win) (e t0 : Nat) (s : State), s.trc.op = .verify e t0 → s.trc.owner = some w → awake s = true →
    t0 + 1000000 * tInt s ≤ s.now → tInt s ≤ s.trc.secs.length →
    (sumI (s.trc.secs.map (·.2))).natAbs * 10 < j5Full s * s.trc.opN →
    Runs .trcVerifyComplete s fun t => t.trc = { s.trc with op := .idle, res := .range } ∧ Unchanged [.trc] s t) ∧
  (∀ (w : Win) (e t0 : Nat) (s : State), s.trc.op = .verify e t0 → s.trc.owner = some w → awake s = true →
    t0 + 1000000 * tInt s ≤ s.now → tInt s ≤ s.trc.secs.length → auditFullNow s = true →
    j5Full s * s.trc.opN ≤ (sumI (s.trc.secs.map (·.2))).natAbs * 10 →
    Runs .trcVerifyComplete s fun t => t.trc = { s.trc with op := .idle, res := .full } ∧
      t.recd = { s.recd with auditFull := true } ∧ Unchanged [.trc, .recd, .fresh] s t) ∧
  (∀ (w : Win) (e : BitVec 6) (x : Verified) (s : State), Granted s w 0x70000 rCal → s.trc.owner = some w → s.trc.op = .idle →
    e.toNat < 22 → present s 6 e.toNat = true → tget none s.trc.verifs e.toNat = some x → s.trc.second = none →
    s.now ≤ x.at_ + 600000000 → (gcorrNew (calRec s e.toNat).gcorr x.dev).natAbs ≤ 5000000 → auditFullNow s = false →
    Runs (.trcAdjust w e) s fun t => Accepted t w ∧ t.trc.res = .ok ∧
      calRec t e.toNat = { calRec s e.toNat with
        gcorr := gcorrNew (calRec s e.toNat).gcorr x.dev, source := 2, rev := (calRec s e.toNat).rev + 1, u := x.u
        ntime := s.tim.now, oph := s.emb.oph, calid := wd (rd s trcCalid []) } ∧
      tget (factoryRec e.toNat) (trcSecond t).trc.recA e.toNat = calRec t e.toNat ∧
      tget (factoryRec e.toNat) (trcSecond t).trc.recB e.toNat = calRec t e.toNat ∧
      (∀ f, f ≠ e.toNat → calRec t f = calRec s f) ∧
      t.recd.audit.length = s.recd.audit.length + 1 ∧ Unchanged [.trc, .recd, .hst] s t) ∧
  (∀ (w : Win) (e : BitVec 6) (s : State), Granted s w 0x70000 rCal → s.trc.owner = some w → s.trc.op = .idle →
    e.toNat < 22 → present s 6 e.toNat = true → auditFullNow s = false →
    (∀ x, tget none s.trc.verifs e.toNat = some x →
      x.at_ + 600000000 < s.now ∧ (gcorrNew (calRec s e.toNat).gcorr x.dev).natAbs ≤ 5000000) →
    Runs (.trcAdjust w e) s fun t => (win t w).lastRes = .expired ∧ t.trc = { s.trc with res := .expired } ∧
      Unchanged [.trc, .hst, .mem] s t) ∧
  (∀ (w : Win) (e : BitVec 6) (x : Verified) (s : State), Granted s w 0x70000 rCal → s.trc.owner = some w → s.trc.op = .idle →
    e.toNat < 22 → present s 6 e.toNat = true → tget none s.trc.verifs e.toNat = some x →
    5000000 < (gcorrNew (calRec s e.toNat).gcorr x.dev).natAbs →
    Runs (.trcAdjust w e) s fun t => (win t w).lastRes = .range ∧ t.trc = { s.trc with res := .range } ∧
      Unchanged [.trc, .hst, .mem] s t) ∧
  (∀ (w : Win) (e : BitVec 6) (s : State), Granted s w 0x70000 rCal → s.trc.owner = some w → s.trc.op = .idle →
    e.toNat < 22 → present s 6 e.toNat = true → auditFullNow s = true →
    (∀ x, tget none s.trc.verifs e.toNat = some x → (gcorrNew (calRec s e.toNat).gcorr x.dev).natAbs ≤ 5000000) →
    Runs (.trcAdjust w e) s fun t => (win t w).lastRes = .full ∧ t.trc = { s.trc with res := .full } ∧
      t.recd = { s.recd with auditFull := true } ∧ Unchanged [.trc, .recd, .hst, .mem] s t)) ∧
  ((∀ (w : Win) (e : BitVec 6) (s : State), Granted s w 0x70000 rCal → s.trc.owner = some w → s.trc.op = .idle →
    e.toNat < 22 → present s 6 e.toNat = true → zeroOpen s e.toNat = true →
    Runs (.trcZero w e) s fun t => Accepted t w ∧ t.trc.op = .zero e.toNat s.now ∧ t.trc.res = .busy ∧
      t.trc.secs = [] ∧ t.trc.opN = 0 ∧ Unchanged [.trc, .hst] s t) ∧
  (∀ (w : Win) (e : BitVec 6) (s : State), Granted s w 0x70000 rCal → s.trc.owner = some w → e.toNat < 22 →
    present s 6 e.toNat = true → zeroOpen s e.toNat = false →
    Runs (.trcZero w e) s fun t => (win t w).lastRes = .refusedMode ∧ t.trc = { s.trc with res := .refusedMode } ∧
      Unchanged [.trc, .hst, .mem] s t) ∧
  (∀ (w : Win) (e t0 : Nat) (s : State), s.trc.op = .zero e t0 → s.trc.owner = some w → awake s = true →
    t0 + 1000000 * tInt s ≤ s.now → tInt s ≤ s.trc.secs.length → auditFullNow s = false → s.trc.second = none →
    Runs .trcZeroComplete s fun t => t.trc.op = .idle ∧ t.trc.res = .ok ∧
      calRec t e = { calRec s e with
        ocorr := (calRec s e).ocorr - rdiv (sumI (s.trc.secs.map (·.1))) (max 1 s.trc.opN : Nat), source := 3
        rev := (calRec s e).rev + 1, ntime := s.tim.now, oph := s.emb.oph, calid := wd (rd s trcCalid []) } ∧
      (∀ f, f ≠ e → calRec t f = calRec s f) ∧
      t.recd.audit.length = s.recd.audit.length + 1 ∧ Unchanged [.trc, .recd] s t) ∧
  (∀ (w : Win) (e : BitVec 6) (x v q : Int) (s : State), Granted s w 0x70000 rCal → s.trc.owner = some w → s.trc.op = .idle →
    24 ≤ e.toNat → e.toNat ≤ 26 → j5Range s = 0 → auditFullNow s = false → s.trc.second = none →
    q = rdiv (((calRec s e.toNat).value : Int) * v) x →
    Runs (.trcRefAdjust w e x v) s fun t => Accepted t w ∧ t.trc.res = .ok ∧
      (x ≠ 0 → 0 ≤ q → q < 2 ^ 32 → (calRec t e.toNat).value = q.toNat ∧ t.fresh = s.fresh) ∧
      calRec t e.toNat = { calRec s e.toNat with
        value := (calRec t e.toNat).value, source := 2, rev := (calRec s e.toNat).rev + 1, u := rd s trcUref []
        ntime := s.tim.now, oph := s.emb.oph, calid := wd (rd s trcCalid []) } ∧
      (∀ f, f ≠ e.toNat → calRec t f = calRec s f) ∧
      t.recd.audit.length = s.recd.audit.length + 1 ∧ Unchanged [.trc, .recd, .hst, .fresh] s t) ∧
  (∀ (w : Win) (e : BitVec 6) (s : State), Granted s w 0x70000 rCal → s.trc.owner = some w → s.trc.op = .idle →
    24 ≤ e.toNat → e.toNat ≤ 26 → auditFullNow s = false →
    Runs (.trcRefReadmit w e) s fun t => Accepted t w ∧ t.trc.res = .ok ∧ t.mea.excl.getLsbD (e.toNat - 24) = false ∧
      (∀ x, x ≠ e.toNat - 24 → t.mea.excl.getLsbD x = s.mea.excl.getLsbD x) ∧ refTimer t (e.toNat - 24) = 0 ∧
      (∀ f, calRec t f = calRec s f) ∧
      t.recd.audit.length = s.recd.audit.length + 1 ∧ Unchanged [.trc, .mea, .recd, .hst] s t))

/-! ### Estimation (R214 to R237) -/

/-- Charge is counted exactly: the counter and its remainder together grow by the current of the instant, in tenths of a
µC, and throughput grows on discharge alone (R214, R215).
An anchor that is due sets SOC to 1 (FULL) or 0 (EMPTY) and arms the other type; the displayed SOC moves by at most
2796 units of 2⁻²⁴ a second; cycles are counted every 86,400 operating seconds (R220, R222 to R224, R229). Clause 3 is about an estimator that
holds the data of one cell. -/
def Obligations.ChargeAnchorsAndDisplay : Prop :=
  (∀ (e : EstStr) (i v : Int),
    10 * (e.count i v).q + (e.count i v).qRem = 10 * e.q + e.qRem + i ∧ 0 ≤ (e.count i v).qRem ∧ (e.count i v).qRem < 10 ∧
    (i < 0 → 10 * (e.count i v).d + (e.count i v).dRem = 10 * e.d + e.dRem + i.natAbs) ∧
    (0 ≤ i → (e.count i v).d = e.d ∧ (e.count i v).dRem = e.dRem ∧ (e.count i v).eDis = e.eDis) ∧
    (i < 0 → (e.count i v).eChg = e.eChg)) ∧
  ((∀ (n : Fin 2048) (full : Bool) (s : State), anchorDue s (n.val / 512) full (cell s n) = true →
    Runs (.anchor n full) s fun t => ((cell t n).lr.cl ≠ 0 → (cell t n).socRaw = (if full then 65536 else 0)) ∧
      (cell t n).lr.aType = (if full then 1 else 2) ∧ (cell t n).lr.qA = (cell s n).qCell ∧
      (cell t n).lr.arm = (if full then 2 else 1) ∧ (cell t n).lr.countGap = false ∧ (cell t n).lr.traverse = true ∧
      (∀ m, m ≠ n.val → cell t m = cell s m) ∧ Unchanged [.est, .hst, .mem, .kln, .recd] s t) ∧
  (∀ (n : Fin 2048) (full : Bool) (s : State), anchorDue s (n.val / 512) full (cell s n) = false →
    exec (.anchor n full) s = .next s) ∧
  (∀ (n : Fin 2048) (c : CellS) (s : State), awake s = true → s.est.lastDisp + 1000000 ≤ s.now → s.est.cells = [(n.val, c)] →
    Runs .socDisplayUpdate s fun t => t.est.lastDisp = s.now ∧
      (c.disp + 2796 ≤ c.soc * 256 → (cell t n).disp = c.disp + 2796) ∧
      (c.soc * 256 + 2796 ≤ c.disp → (cell t n).disp = c.disp - 2796) ∧
      (c.soc * 256 < c.disp + 2796 → c.disp < c.soc * 256 + 2796 → (cell t n).disp = c.soc * 256) ∧
      (cell t n).soc = c.soc ∧ Unchanged [.est] s t) ∧
  (∀ (n : Fin 2048) (s : State), (cell s n).lastCyc + 86400 ≤ s.emb.oph.toNat → (cell s n).lr.cl ≠ 0 →
    Runs (.cycleUpdate n) s fun t => (cell t n).lastCyc = s.emb.oph.toNat ∧
      (cell t n).lr.cyc = (cell s n).lr.cyc +
        BitVec.ofNat 32 (((estr s (n.val / 512)).d - (cell s n).lr.dRef) * 1024 / (1000 * (cell s n).lr.cl)) ∧
      (cell t n).lr.cl = (cell s n).lr.cl ∧ (cell t n).lr.qE = (cell s n).lr.qE ∧
      (∀ m, m ≠ n.val → cell t m = cell s m) ∧ Unchanged [.est] s t))

/-- Retained estimator records: the newer copy holds what was written, the other copy stays; writes wait while the board temperature is
outside its range, and go on after the hysteresis; EST_CMD FLUSH writes at once (R231 to R234). Clause 6 is about an estimator that holds the data
of one cell.
EST_CMD on cells: RESET_CELLS seeds every cell of the range from its Estimator billet, ACCEPT_UID clears LEARN_STALE
and keeps what was learned; no cell outside the range changes, and a connected mode refuses both (R235 to R237). -/
def Obligations.EstimatorRecordsAndCellCommands : Prop :=
  ((∀ (k : Str) (s : State), awake s = true → (estr s k).lastWrite + 1000000 ≤ s.now → nvOpen s = true →
    Runs (.estStringWrite k) s fun t => bestStr (estr t k) = some (strRecord (estr s k) false) ∧
      (estr t k).lastWrite = s.now ∧ (estr t k).q = (estr s k).q ∧ (∀ j, j ≠ k.val → estr t j = estr s j) ∧
      Unchanged [.est] s t) ∧
  (∀ (n : Fin 2048) (t0 : Nat) (s : State), (cell s n).dirty = some t0 → awake s = true → t0 ≤ s.now + 1000000 →
    nvOpen s = true →
    Runs (.estLearnedWrite n) s fun t => (cell t n).dirty = none ∧ bestLearned (cell t n) = some (cell t n).lr ∧
      (cell t n).lr.qE = (cell s n).lr.qE ∧ (cell t n).lr.cl = (cell s n).lr.cl ∧
      (∀ m, m ≠ n.val → cell t m = cell s m) ∧ Unchanged [.est] s t) ∧
  (∀ (k : Str) (s : State), awake s = true → (estr s k).lastWrite + 1000000 ≤ s.now → s.emb.holdupOk = false →
    boardOk s = true → exec (.estStringWrite k) s = .next s) ∧
  (∀ s : State, s.est.nvDefer = true → -368 ≤ s.thm.board → s.thm.board ≤ 1328 →
    Runs .estNvResume s fun t => t.est.nvDefer = false ∧ t.est.cells = s.est.cells ∧ Unchanged [.est] s t) ∧
  (∀ s : State, s.thm.board < -368 ∨ 1328 < s.thm.board → exec .estNvResume s = .next s) ∧
  (∀ (w : Win) (n : Fin 2048) (c : CellS) (s : State), Granted s w 0x80000 rMaint ∨ Granted s w 0x80000 rCfg →
    nvOpen s = true → s.est.cells = [(n.val, c)] → c.dirty ≠ none →
    Runs (.estFlush w) s fun t => Accepted t w ∧ t.est.res = .ok ∧ (cell t n).dirty = none ∧
      bestLearned (cell t n) = some (cell t n).lr ∧ (cell t n).lr.qE = c.lr.qE ∧
      (∀ k < 4, strOk s k = true → bestStr (estr t k) = some (strRecord (estr s k) false)) ∧
      Unchanged [.est, .hst] s t)) ∧
  ((∀ (w : Win) (a : BitVec 11) (c : BitVec 12) (s : State), Granted s w 0x80000 rMaint → cellsCheck a.toNat c.toNat s = .ok →
    Runs (.resetCells w a c) s fun t => Accepted t w ∧ t.est.res = .ok ∧
      (∀ n b, a.toNat ≤ n → n < a.toNat + c.toNat → estBillet s (n / 512) = some b →
        (cell t n).lr.cl = b.cDef ∧ (cell t n).lr.defaults = true ∧ (cell t n).lr.cyc = 0 ∧
        (cell t n).lr.learnStale = false ∧ (cell t n).lr.traverse = false ∧ (cell t n).lr.bCell = (cell s n).lr.bCell) ∧
      (∀ n, n < a.toNat ∨ a.toNat + c.toNat ≤ n → cell t n = cell s n) ∧
      Unchanged [.est, .imp, .kln, .recd, .hst, .mem] s t) ∧
  (∀ (w : Win) (a : BitVec 11) (c : BitVec 12) (s : State), Granted s w 0x80000 rMaint → cellsCheck a.toNat c.toNat s = .ok →
    Runs (.acceptUid w a c) s fun t => Accepted t w ∧ t.est.res = .ok ∧
      (∀ n, a.toNat ≤ n → n < a.toNat + c.toNat → (cell t n).lr.learnStale = false ∧ (cell t n).lr.cl = (cell s n).lr.cl ∧
        (cell t n).lr.qE = (cell s n).lr.qE ∧ (cell t n).lr.uid = (cell s n).lr.uid) ∧
      (∀ n, n < a.toNat ∨ a.toNat + c.toNat ≤ n → cell t n = cell s n) ∧
      Unchanged [.est, .imp, .kln, .recd, .hst, .mem] s t) ∧
  (∀ (w : Win) (a : BitVec 11) (c : BitVec 12) (s : State), Granted s w 0x80000 rMaint → (∀ k < 4, strOk s k = true) →
    s.emb.mode = .precharge ∨ s.emb.mode = .connected ∨ s.emb.mode = .drowse →
    Runs (.resetCells w a c) s fun t => (win t w).lastRes = .refusedMode ∧ t.est.res = .refusedMode ∧
      t.est.cells = s.est.cells ∧ Unchanged [.est, .hst, .mem] s t))

/-! ### Impedance sweeps (R240 to R263) -/

/-- IMP_CMD: the dispatch owner starts a sweep at the first enabled point, with balancing stopped on the loop, and PAUSED at once where a
condition already holds that pauses a sweep (DEDUCED, assumption 44); a second START is BUSY; STOP ends it as STOPPED; PAUSE holds
it until RESUME lets it go on; TZ_NOW asks for a temperature point (R241, R253 to R255, R260).
What runs by time: a sweep IMP_PER hours after the last, a temperature point every TZ_PER seconds, a pause that ends when its
conditions have cleared and a hold when no open-wire test waits, a pause of PAUSE_MAX that aborts the sweep, and the
write of a changed table to the older copy, which waits while R233 defers it (R233, R254, R255, R259, R260). -/
def Obligations.ImpedanceSweepsRun : Prop :=
  ((∀ (w : Win) (k : Str) (p : Nat) (s : State), AsOwner s w 0x90000 → strOk s k = true → impMay s = true →
    (imps s k).inSweep = false → (imps s k).tz = false → genOnConv s k = false → nextPoint s k 0 = some p →
    (lp s k).state = .closed → derated s k = false → (mstr s k).invalid = false →
    Runs (.impStart w k) s fun t => Accepted t w ∧ t.imp.res = .ok ∧ (imps t k).state = 1 ∧ (imps t k).inSweep = true ∧
      (imps t k).point = p ∧ (imps t k).due = true ∧ (imps t k).skips = 0 ∧ (lp t k).balImp = true ∧
      balStopped t k = true ∧ (∀ j, j ≠ k.val → imps t j = imps s j) ∧ Unchanged [.imp, .chn, .hst, .mem] s t) ∧
  (∀ (w : Win) (k : Str) (p : Nat) (s : State), AsOwner s w 0x90000 → strOk s k = true → impMay s = true →
    (imps s k).inSweep = false → (imps s k).tz = false → genOnConv s k = false → nextPoint s k 0 = some p →
    (lp s k).state ≠ .closed →
    Runs (.impStart w k) s fun t => Accepted t w ∧ t.imp.res = .ok ∧ (imps t k).state = 2 ∧ (imps t k).inSweep = true ∧
      (imps t k).why = 2 ∧ (imps t k).pausedAt = s.now ∧ (lp t k).balImp = true ∧
      (∀ j, j ≠ k.val → imps t j = imps s j) ∧ Unchanged [.imp, .chn, .hst, .mem] s t) ∧
  (∀ (w : Win) (k : Str) (s : State), AsOwner s w 0x90000 → strOk s k = true → impMay s = true → (imps s k).inSweep = true →
    Runs (.impStart w k) s fun t => (win t w).lastRes = .busy ∧ t.imp.res = .busy ∧ t.imp.loops = s.imp.loops ∧
      Unchanged [.imp, .hst, .mem] s t) ∧
  (∀ (w : Win) (k : Str) (s : State), AsOwner s w 0x90000 → strOk s k = true → impMay s = false →
    Runs (.impStart w k) s fun t => (win t w).lastRes = .refusedMode ∧ t.imp.loops = s.imp.loops ∧
      Unchanged [.imp, .hst, .mem] s t) ∧
  (∀ (w : Win) (k : Str) (s : State), AsOwner s w 0x90000 → strOk s k = true → impActive s k = true → (imps s k).inSweep = true →
    Runs (.impStop w k) s fun t => Accepted t w ∧ t.imp.res = .ok ∧ (imps t k).state = 0 ∧ (imps t k).last = 4 ∧
      (imps t k).lastEnd = s.now ∧ (imps t k).epoch = none ∧ (lp t k).balImp = false ∧
      (∀ j, j ≠ k.val → imps t j = imps s j) ∧ Unchanged [.imp, .chn, .hst, .mem] s t) ∧
  (∀ (w : Win) (k : Str) (s : State), AsOwner s w 0x90000 → strOk s k = true → impActive s k = true → (imps s k).inSweep = false →
    Runs (.impStop w k) s fun t => Accepted t w ∧ t.imp.res = .ok ∧ (imps t k).state = 0 ∧ (imps t k).tz = false ∧
      (imps t k).last = 4 ∧ (imps t k).epoch = none ∧ (imps t k).swCnt = (imps s k).swCnt ∧
      (∀ j, j ≠ k.val → imps t j = imps s j) ∧ Unchanged [.imp, .hst, .mem] s t) ∧
  (∀ (w : Win) (k : Str) (s : State), AsOwner s w 0x90000 → strOk s k = true → (imps s k).state = 1 →
    (imps s k).inSweep = true →
    Runs (.impPause w k) s fun t => Accepted t w ∧ t.imp.res = .ok ∧ (imps t k).state = 2 ∧ (imps t k).why = 7 ∧
      (imps t k).hostPause = true ∧ (imps t k).point = (imps s k).point ∧ (imps t k).pausedAt = s.now ∧
      Unchanged [.imp, .hst, .mem] s t) ∧
  (∀ (w : Win) (k : Str) (s : State), AsOwner s w 0x90000 → strOk s k = true →
    Runs (.impResume w k) s fun t => Accepted t w ∧ t.imp.res = .ok ∧ (imps t k).hostPause = false ∧
      (imps t k).point = (imps s k).point ∧
      (imps t k).state = (if (imps s k).state = 2 ∧ impClear (modImp s k fun i => { i with hostPause := false }) k = true then 1
        else (imps s k).state) ∧ Unchanged [.imp, .hst, .mem] s t) ∧
  (∀ (w : Win) (k : Str) (s : State), AsOwner s w 0x90000 → strOk s k = true → impMay s = true → (imps s k).tz = false →
    (imps s k).tzDue = false → genOnConv s k = false →
    Runs (.tzNow w k) s fun t => Accepted t w ∧ t.imp.res = .ok ∧ (imps t k).tzDue = true ∧ (imps t k).lastTz = s.now ∧
      (imps t k).state = (imps s k).state ∧ Unchanged [.imp, .hst] s t)) ∧
  ((∀ (k : Str) (p : Nat) (s : State), awake s = true → rdf s impTim [k] 15 0 ≠ 0 → (imps s k).inSweep = false → (imps s k).tz = false →
    impMay s = true → (lp s k).state = .closed → genOnConv s k = false → derated s k = false → (mstr s k).invalid = false →
    (imps s k).lastEnd + rdf s impTim [k] 15 0 * 3600000000 ≤ s.now → nextPoint s k 0 = some p →
    Runs (.impPeriodic k) s fun t => (imps t k).state = 1 ∧ (imps t k).point = p ∧ (imps t k).inSweep = true ∧
      (lp t k).balImp = true ∧ Unchanged [.imp, .chn, .hst, .mem] s t) ∧
  (∀ (k : Str) (s : State), impMay s = false → exec (.impPeriodic k) s = .next s ∧ exec (.tzPointDue k) s = .next s) ∧
  (∀ (k : Str) (s : State), awake s = true → rdf s impTz [k] 31 20 ≠ 0 → impMay s = true → (lp s k).state = .closed → owWaiting s k = false →
    genOnConv s k = false → (imps s k).tz = false →
    (imps s k).lastTz + rdf s impTz [k] 31 20 * 1000000 ≤ s.now →
    Runs (.tzPointDue k) s fun t => (imps t k).tzDue = true ∧ (imps t k).lastTz = s.now ∧ Unchanged [.imp] s t) ∧
  (∀ (k : Str) (s : State), awake s = true → (imps s k).state = 2 → impClear s k = true →
    Runs (.impAutoResume k) s fun t => (imps t k).state = 1 ∧ (imps t k).due = true ∧
      (imps t k).point = (imps s k).point ∧ Unchanged [.imp, .hst, .mem] s t) ∧
  (∀ (k : Str) (s : State), awake s = true → (imps s k).state = 3 → owWaiting s k = false →
    Runs (.impAutoResume k) s fun t => (imps t k).state = 1 ∧ (imps t k).point = (imps s k).point ∧
      Unchanged [.imp] s t) ∧
  (∀ (k : Str) (s : State), (imps s k).state = 2 → impClear s k = false → exec (.impAutoResume k) s = .next s) ∧
  (∀ (k : Str) (s : State), awake s = true → (imps s k).state = 2 → (imps s k).pausedAt + 1000000 * rdf s impDsp [k] 31 16 ≤ s.now →
    Runs (.impPauseTimeout k) s fun t => (imps t k).state = 0 ∧ (imps t k).last = 3 ∧ (lp t k).balImp = false ∧
      Unchanged [.imp, .chn, .kln, .recd, .hst, .mem] s t) ∧
  (∀ (n : Fin 2048) (s : State), tget 0 s.imp.dirty n.val ≠ 0 → awake s = true → (imps s (n.val / 512)).inSweep = false → nvOpen s = true →
    Runs (.impTableWrite n) s fun t => bestTable (tget {} t.imp.copies n.val) = some (tableOf s n) ∧
      tget 0 t.imp.dirty n.val = 0 ∧ t.imp.tab = s.imp.tab ∧ Unchanged [.imp] s t) ∧
  (∀ (n : Fin 2048) (s : State), nvOpen s = false → boardOk s = false → tget 0 s.imp.dirty n.val ≠ 0 → awake s = true →
    (imps s (n.val / 512)).inSweep = false →
    Runs (.impTableWrite n) s fun t => t.imp = s.imp ∧ t.est.nvDefer = true ∧ Unchanged [.est] s t))

/-! ### Control engine and PWM (R264 to R298) -/

/-- An enabled context outside a converter executes, at an instant of its timer for which no other goes first, on the words of its
sources: PID with active coefficients, its generators adding nothing where none points at it; an INVALID source holds its output and
sets SRC_INV; a context of a parked converter does not execute; with no timer instant left nothing happens. At a period start the PWM
loads the last output that was complete 500 ns before (on the model's clock, one of an earlier µs), clamped to its word, or HRP_DREG with
SRC 63; without a new one it keeps its word, and counts as late where the context's timer fired in the period that ends; a complementary
channel takes its master's word; the output is held off without the lease or after a supply failure (R265 to R278).
Coefficient banks: a word of the bank that is not active is written at once, one of the active bank is BUSY; CTL_SWAP
names contexts that take their pending bank at the next sample; CLR_LAT clears the latency counters; INTERNAL parks every converter, holds every output off and asks for SAFE_STOP
(R272, R290, R291). -/
def Obligations.ContextsBanksAndInternalFaults : Prop :=
  ((∀ (n : Fin 64) (raw : List Int) (q t0 : Nat) (sp fb ff : Int) (s : State), awake s = true → s.emb.mode ≠ .drowse →
    ctxDue s n = some t0 → ctxBehind s n t0 = false → isTwo s n = false → convWith s n = none → (ctx s n).swapPend = false →
    s.shadow = [] → sources (controlSample raw s) n = (sp, fb, ff) → sp ≠ invWord → fb ≠ invWord → ff ≠ invWord →
    (∀ g < 4, rdf s ctlGcfg [g] 21 16 ≠ n.val) →
    Runs (.contextExecution n raw q) s fun t =>
      ctx t n = { (pidStep (ctx s n) (bankOf s n (activeBank s n)) (satS 64 sp) fb ff 0 0).1 with
                  srcInv := false, runs := (ctx s n).runs + 1, doneAt := s.now, firedAt := some t0
                  maxLat := max (ctx s n).maxLat (min 65535 q) } ∧
      (∀ j, j ≠ n.val → ctx t j = ctx s j) ∧ t.ctl.convs = s.ctl.convs ∧
      Unchanged [.ctl, .mem, .kln, .mea, .lgc, .hst, .recd] s t) ∧
  (∀ (c : Ctx) (b : Bank) (sp fb ff e o : Int), b.oMin ≤ b.oMax → b.iMin ≤ b.iMax →
    b.oMin ≤ (pidStep c b sp fb ff e o).1.y ∧ (pidStep c b sp fb ff e o).1.y ≤ b.oMax ∧
    b.iMin * 2 ^ 32 ≤ (pidStep c b sp fb ff e o).1.i ∧ (pidStep c b sp fb ff e o).1.i ≤ b.iMax * 2 ^ 32 ∧
    b.oMin ≤ (twoStep c b sp fb e o).1.y ∧ (twoStep c b sp fb e o).1.y ≤ b.oMax) ∧
  (∀ (n : Fin 64) (raw : List Int) (q t0 : Nat) (s u : State), awake s = true → s.emb.mode ≠ .drowse →
    ctxDue s n = some t0 → ctxBehind s n t0 = false → convWith s n = none → (ctx s n).swapPend = false → s.shadow = [] →
    u = controlSample raw s →
    (sources u n).1 = invWord ∨ (sources u n).2.1 = invWord ∨ (sources u n).2.2 = invWord →
    Runs (.contextExecution n raw q) s fun t =>
      ctx t n = { ctx s n with srcInv := true, firedAt := some t0, maxLat := max (ctx s n).maxLat (min 65535 q) } ∧
      (∀ j, j ≠ n.val → ctx t j = ctx s j) ∧ t.ctl.convs = s.ctl.convs ∧
      Unchanged [.ctl, .mem, .kln, .mea, .lgc, .hst] s t) ∧
  (∀ (n : Fin 64) (raw : List Int) (q t0 k : Nat) (s : State), awake s = true → s.emb.mode ≠ .drowse →
    ctxDue s n = some t0 → ctxBehind s n t0 = false → convWith s n = some k → (conv s k).state = 0 →
    (ctx s n).swapPend = false → s.shadow = [] →
    Runs (.contextExecution n raw q) s fun t =>
      ctx t n = { ctx s n with firedAt := some t0, maxLat := max (ctx s n).maxLat (min 65535 q) } ∧
      (∀ j, j ≠ n.val → ctx t j = ctx s j) ∧ t.ctl.convs = s.ctl.convs ∧
      Unchanged [.ctl, .mem, .kln, .mea, .lgc, .hst] s t) ∧
  (∀ (n : Fin 64) (raw : List Int) (q : Nat) (s : State), ctxDue s n = none → exec (.contextExecution n raw q) s = .next s) ∧
  (∀ (j : Fin 16) (t0 d : Nat) (s : State), awake s = true → s.emb.mode ≠ .drowse → present s 11 j = true →
    periodStart s j (hrpTime s) = some t0 → (∀ u ∈ (pwm s j).startAt, u < t0) → s.shadow = [] →
    rdf s hrpCfg [j] 29 28 = 0 → rdf s hrpCfg [j] 13 8 ≠ 63 →
    (ctx s (rdf s hrpCfg [j] 13 8)).runs ≠ (pwm s j).seen → (ctx s (rdf s hrpCfg [j] 13 8)).doneAt < s.now →
    d = (clampI 0 (2 ^ 31 - 1) (ctx s (rdf s hrpCfg [j] 13 8)).y).toNat →
    Runs (.pwmPeriodStart j) s fun t =>
      (pwm t j).duty = d ∧ (pwm t j).seen = (ctx s (rdf s hrpCfg [j] 13 8)).runs ∧ (pwm t j).late = (pwm s j).late ∧
      (pwm t j).startAt = some t0 ∧ (pwm t j).held = mustHold s j ∧
      ((pwm t j).rise, (pwm t j).fall) = centred (onTime d (perOf s j)) (perOf s j) ∧
      ((pwm t j).on = true ↔ 0 < onTime d (perOf s j) ∧ rdf s hrpMinpw [j] 12 0 ≤ onTime d (perOf s j)) ∧
      (∀ i, i ≠ j.val → pwm t i = pwm s i) ∧ Unchanged [.hrp] s t) ∧
  (∀ (j : Fin 16) (t0 : Nat) (s : State), awake s = true → s.emb.mode ≠ .drowse → present s 11 j = true →
    periodStart s j (hrpTime s) = some t0 → (∀ u ∈ (pwm s j).startAt, u < t0) → s.shadow = [] →
    rdf s hrpCfg [j] 29 28 = 0 → rdf s hrpCfg [j] 13 8 = 63 →
    Runs (.pwmPeriodStart j) s fun t => (pwm t j).duty = rdf s hrpDreg [j] 30 0 ∧ (pwm t j).held = mustHold s j ∧
      (∀ i, i ≠ j.val → pwm t i = pwm s i) ∧ Unchanged [.hrp] s t) ∧
  (∀ (j : Fin 16) (t0 : Nat) (fired : Bool) (s : State), awake s = true → s.emb.mode ≠ .drowse → present s 11 j = true →
    periodStart s j (hrpTime s) = some t0 → (∀ u ∈ (pwm s j).startAt, u < t0) → s.shadow = [] →
    rdf s hrpCfg [j] 29 28 = 0 → rdf s hrpCfg [j] 13 8 ≠ 63 →
    (ctx s (rdf s hrpCfg [j] 13 8)).runs = (pwm s j).seen ∨ s.now ≤ (ctx s (rdf s hrpCfg [j] 13 8)).doneAt →
    fired = ((pwm s j).startAt.any fun v => (timerFire s (rdf s hrpCfg [j] 13 8) (t0 - 1)).any fun u => decide (v ≤ u)) →
    Runs (.pwmPeriodStart j) s fun t => (pwm t j).duty = (pwm s j).duty ∧
      (pwm t j).late = (if fired then inc16 (pwm s j).late else (pwm s j).late) ∧
      (ctx t (rdf s hrpCfg [j] 13 8)).late =
        (if fired then inc16 (ctx s (rdf s hrpCfg [j] 13 8)).late else (ctx s (rdf s hrpCfg [j] 13 8)).late) ∧
      (∀ i, i ≠ j.val → pwm t i = pwm s i) ∧ t.ctl.convs = s.ctl.convs ∧ Unchanged [.ctl, .hrp] s t) ∧
  (∀ (j : Fin 16) (t0 : Nat) (s : State), awake s = true → s.emb.mode ≠ .drowse → present s 11 j = true →
    periodStart s j (hrpTime s) = some t0 → (∀ u ∈ (pwm s j).startAt, u < t0) → s.shadow = [] →
    rdf s hrpCfg [j] 29 28 ≠ 0 →
    Runs (.pwmPeriodStart j) s fun t => (pwm t j).duty = (pwm s (masterOf s j)).duty ∧
      (pwm t j).held = mustHold s j ∧ (pwm t j).startAt = some t0 ∧ (∀ i, i ≠ j.val → pwm t i = pwm s i) ∧
      Unchanged [.hrp] s t) ∧
  (∀ (j : Nat) (s : State), leaseValid s = false ∨ s.emb.pfail = true → mustHold s j = true)) ∧
  ((∀ (w : Win) (n : Fin 64) (b : Fin 2) (i : Fin 16) (v : Word) (s : State), Granted s w (ctlBank.addr [n, b, i]) rCfg →
    activeBank s n ≠ b.val → i.val < 10 → i.val ≠ 5 →
    Runs (.bankWordWrite w n b i v) s fun t => Accepted t w ∧ rd t ctlBank [n, b, i] = v.toNat ∧
      (∀ a, a ≠ ctlBank.addr [n, b, i] → ∀ d, tget d t.regs a = tget d s.regs a) ∧ Unchanged [.regs, .hst] s t) ∧
  (∀ (w : Win) (n : Fin 64) (b : Fin 2) (i : Fin 16) (v : Word) (s : State), Granted s w (ctlBank.addr [n, b, i]) rCfg →
    activeBank s n = b.val →
    Runs (.bankWordWrite w n b i v) s fun t => (win t w).lastRes = .busy ∧ Unchanged [.hst, .mem] s t) ∧
  (∀ (w : Win) (hi : Word) (s : State), Granted s w 0xA0014 rMaint →
    Runs (.coefficientSwap w hi) s fun t => Accepted t w ∧
      (∀ n < 64, ctx t n = if bitN (s.ctl.swapLo.toNat + hi.toNat * 2 ^ 32) n = true ∧
          (tget none s.shadow (ctlLcfg.addr [n])).isSome = true then { ctx s n with swapPend := true } else ctx s n) ∧
      t.ctl.convs = s.ctl.convs ∧ Unchanged [.ctl, .hst] s t) ∧
  (∀ (w : Win) (s : State), Granted s w 0xA0000 rMaint →
    Runs (.clrLat w) s fun t => Accepted t w ∧ t.ctl.res = .ok ∧
      (∀ n < 64, ctx t n = { ctx s n with maxLat := 0, late := 0 }) ∧
      (∀ j < 16, pwm t j = { pwm s j with late := 0, minp := 0 }) ∧
      t.ctl.convs = s.ctl.convs ∧ Unchanged [.ctl, .hrp, .hst] s t) ∧
  (∀ s : State, awake s = true →
    Runs .ctlInternalFault s fun t => t.ctl.internal = true ∧ Tripped t 5 ∧
      (∀ k < 4, (conv t k).state = 0 ∧ (conv t k).r = 0 ∧ (conv t k).causes.getLsbD 4 = true) ∧
      (∀ j < 16, (pwm t j).held = true) ∧ (∀ g < 4, (gen t g).state ≠ 1) ∧ t.emb.mode = s.emb.mode ∧
      t.ctl.ctxs = s.ctl.ctxs ∧ Unchanged [.emb, .ctl, .hrp, .kln, .recd, .hst, .mem] s t))

/-- Converters: CONV_RUN starts a parked one in MAINTENANCE only, CONV_PARK ramps it down and parks at once one that has
not started; in CONNECTED the lease or the current valid for 100 ms lets a parked one resume; the setpoint and FORCE are
the dispatch owner's, FORCE 1 only in MAINTENANCE, and without effect where the converter is not fitted; a setpoint in DROWSE asks for
CONNECTED (R5, R70, R280, R282, R285, R287, R289). -/
def Obligations.ConvertersRunParkAndTakeSetpoints : Prop :=
  (∀ (w : Win) (k : Str) (s : State), Granted s w 0xA0000 rMaint → convOn s k = true → s.emb.mode = .maintenance →
    (conv s k).causes &&& ~~~ 0x29#8 = 0 → (conv s k).state = 0 →
    Runs (.convRun w k) s fun t => Accepted t w ∧ t.ctl.res = .ok ∧ (conv t k).state = 1 ∧ (conv t k).mRun = true ∧
      (conv t k).started = false ∧ (conv t k).causes = 0 ∧ (∀ j, j ≠ k.val → conv t j = conv s j) ∧
      Unchanged [.ctl, .hst] s t) ∧
  (∀ (w : Win) (k : Str) (s : State), Granted s w 0xA0000 rMaint → convOn s k = true → s.emb.mode = .maintenance →
    (conv s k).causes.getLsbD 4 = true →
    Runs (.convRun w k) s fun t => (win t w).lastRes = .checkFail ∧ t.ctl.res = .checkFail ∧ t.ctl.convs = s.ctl.convs ∧
      Unchanged [.ctl, .hst, .mem] s t) ∧
  (∀ (w : Win) (k : Str) (s : State), Granted s w 0xA0000 rMaint → convOn s k = true → s.emb.mode ≠ .maintenance →
    Runs (.convRun w k) s fun t => (win t w).lastRes = .refusedMode ∧ t.ctl.convs = s.ctl.convs ∧
      Unchanged [.ctl, .hst, .mem] s t) ∧
  (∀ (w : Win) (k : Str) (s : State), Granted s w 0xA0000 rMaint → convOn s k = true → s.emb.mode = .maintenance →
    (conv s k).state ≠ 0 → (conv s k).started = true →
    Runs (.convPark w k) s fun t => Accepted t w ∧ t.ctl.res = .ok ∧ (conv t k).state = 4 ∧ (conv t k).r = (conv s k).r ∧
      (∀ j, j ≠ k.val → conv t j = conv s j) ∧ Unchanged [.ctl, .hst] s t) ∧
  (∀ (w : Win) (k : Str) (s : State), Granted s w 0xA0000 rMaint → convOn s k = true → s.emb.mode = .maintenance →
    (conv s k).state ≠ 0 → (conv s k).state ≠ 4 → (conv s k).started = false →
    Runs (.convPark w k) s fun t => Accepted t w ∧ (conv t k).state = 0 ∧ (conv t k).r = 0 ∧
      (conv t k).causes.getLsbD 5 = true ∧ (∀ j ∈ chansOf k, (pwm t j).held = true) ∧
      t.ctl.ctxs = s.ctl.ctxs ∧ Unchanged [.ctl, .hrp, .hst] s t) ∧
  (∀ (k : Str) (s : State), awake s = true → strOk s k = true → s.emb.mode = .connected → convOn s k = true →
    (conv s k).state = 0 → (conv s k).causes &&& 0x06#8 ≠ 0 → (conv s k).causes &&& ~~~ 0x06#8 = 0 →
    validFor s k 100000 = true → leaseValid s = true →
    Runs (.converterResume k) s fun t => (conv t k).state = 1 ∧ (conv t k).causes = 0 ∧
      (∀ j, j ≠ k.val → conv t j = conv s j) ∧ Unchanged [.ctl] s t) ∧
  (∀ (k : Str) (s : State), s.emb.mode ≠ .connected → exec (.converterResume k) s = .next s) ∧
  (∀ (w : Win) (k : Str) (v : Word) (s : State), AsOwner s w (ctlDsp.addr [k]) → present s 10 k = true →
    ctlDsp.check s [k] v.toNat = .ok → s.emb.mode ≠ .drowse →
    Runs (.dispatchSetpointWrite w k v) s fun t => Accepted t w ∧ rd t ctlDsp [k] = v.toNat ∧
      Unchanged [.regs, .hst] s t) ∧
  (∀ (w : Win) (k : Str) (v : Word) (s : State), AsOwner s w (ctlDsp.addr [k]) → present s 10 k = true →
    ctlDsp.check s [k] v.toNat = .ok → s.emb.mode = .drowse → (∀ r ∈ s.emb.reqs, r.target ≠ .connected) →
    Runs (.dispatchSetpointWrite w k v) s fun t => Accepted t w ∧ rd t ctlDsp [k] = v.toNat ∧
      t.emb = { s.emb with reqs := s.emb.reqs ++ [{ target := .connected, src := .module 4 }] } ∧
      Unchanged [.regs, .emb, .hst] s t) ∧
  (∀ (w : Win) (k : Str) (v : Word) (s : State), AsOwner s w (ctlDsp.addr [k]) → present s 10 k = false →
    Runs (.dispatchSetpointWrite w k v) s fun t => Accepted t w ∧ Unchanged [.hst] s t) ∧
  (∀ (w : Win) (k : Str) (f : BitVec 2) (s : State), AsOwner s w (ctlCvmode.addr [k]) → present s 10 k = false → f ≠ 1 →
    Runs (.forceWrite w k f) s fun t => Accepted t w ∧ Unchanged [.hst] s t) ∧
  (∀ (w : Win) (k : Str) (v : Word) (s : State), AsOwner s w (ctlDsp.addr [k]) → present s 10 k = true →
    ctlDsp.check s [k] v.toNat = .range →
    Runs (.dispatchSetpointWrite w k v) s fun t => (win t w).lastRes = .range ∧ Unchanged [.hst, .mem] s t) ∧
  (∀ (w : Win) (k : Str) (s : State), AsOwner s w (ctlCvmode.addr [k]) → present s 10 k = true →
    rdf s ctlCvmode [k] 31 30 ≠ 2 →
    Runs (.forceWrite w k 2) s fun t => Accepted t w ∧ rdf t ctlCvmode [k] 31 30 = 2 ∧
      rdf t ctlCvmode [k] 29 0 = rdf s ctlCvmode [k] 29 0 ∧ (conv t k).forceNew = true ∧
      (conv t k).state = (conv s k).state ∧ Unchanged [.regs, .ctl, .hst] s t) ∧
  (∀ (w : Win) (k : Str) (s : State), Granted s w (ctlCvmode.addr [k]) rMaint → present s 10 k = true →
    s.emb.mode ≠ .maintenance →
    Runs (.forceWrite w k 1) s fun t => (win t w).lastRes = .refusedMode ∧ Unchanged [.hst, .mem] s t)

/-- Generators and capture channels: GEN_START begins one generator at an injection point, BUSY while another runs at that point, and it ends after
DUR samples; CAP_ARM arms a channel with those linked to C0, an instant up to 10 ms past triggers at once as
LATE_DONE and one further past has EXPIRED; CAP_FORCE triggers, CAP_STOP stops; one that the Cord does not enable is NOT_PRESENT (R93,
R294 to R298). -/
def Obligations.GeneratorsAndCaptureChannels : Prop :=
  (∀ (w : Win) (g : Fin 4) (s : State), Granted s w 0xA0000 rMaint → present s 33 g = true → s.emb.mode = .maintenance → (gen s g).state ≠ 1 →
    rdf s ctlGcfg [g] 31 30 ≠ 2 ∨ rd s ctlGdur [g] ≠ 0 →
    (∀ h < 4, h ≠ g.val → (gen s h).state = 1 → rdf s ctlGcfg [h] 21 16 = rdf s ctlGcfg [g] 21 16 →
      rdf s ctlGcfg [h] 29 28 ≠ rdf s ctlGcfg [g] 29 28) →
    (∀ k, convWith s (rdf s ctlGcfg [g] 21 16) = some k → impActive s k = false) →
    Runs (.genStart w g) s fun t => Accepted t w ∧ t.ctl.res = .ok ∧
      gen t g = { state := 1, prbs := wd (2 ^ rdf s ctlGcfg [g] 11 8 - 1) } ∧ (∀ h, h ≠ g.val → gen t h = gen s h) ∧
      t.ctl.ctxs = s.ctl.ctxs ∧ t.ctl.convs = s.ctl.convs ∧ Unchanged [.ctl, .hst] s t) ∧
  (∀ (w : Win) (g : Fin 4) (s : State), Granted s w 0xA0000 rMaint → present s 33 g = true → s.emb.mode = .maintenance → (gen s g).state = 1 →
    rdf s ctlGcfg [g] 31 30 ≠ 2 →
    Runs (.genStart w g) s fun t => (win t w).lastRes = .busy ∧ t.ctl.res = .busy ∧ t.ctl.gens = s.ctl.gens ∧
      Unchanged [.ctl, .hst, .mem] s t) ∧
  (∀ (w : Win) (g : Fin 4) (s : State), Granted s w 0xA0000 rMaint → present s 33 g = true → (gen s g).state = 1 →
    Runs (.genStop w g) s fun t => Accepted t w ∧ t.ctl.res = .ok ∧ gen t g = { gen s g with state := 3, value := 0 } ∧
      (∀ h, h ≠ g.val → gen t h = gen s h) ∧ t.ctl.convs = s.ctl.convs ∧ Unchanged [.ctl, .hst] s t) ∧
  (∀ (g : Fin 4) (s : State), (gen s g).state = 1 → rd s ctlGdur [g] ≠ 0 → rd s ctlGdur [g] ≤ (gen s g).cnt →
    Runs (.generatorEnd g) s fun t => gen t g = { gen s g with state := 2, value := 0 } ∧
      (∀ h, h ≠ g.val → gen t h = gen s h) ∧ Unchanged [.ctl] s t) ∧
  (∀ (w : Win) (c : Fin 4) (s : State), Granted s w 0xA0000 rMaint → present s 34 c = true → (cap s c).state ≠ 1 → (cap s c).state ≠ 2 →
    (∀ d < 4, d = c.val ∨ (c.val = 0 ∧ capMaster s d = 0) → capMaster s d = d ∨ capMatches s d = true) →
    rdf s ctlCtrg [capMaster s c] 31 28 ≠ 3 →
    Runs (.capArm w c) s fun t => Accepted t w ∧ t.ctl.res = .ok ∧
      (∀ d < 4, cap t d = if d = c.val ∨ (c.val = 0 ∧ capMaster s d = 0) then { state := 1 } else cap s d) ∧
      t.ctl.convs = s.ctl.convs ∧ Unchanged [.ctl, .hst] s t) ∧
  (∀ (w : Win) (c : Fin 4) (late : Int) (s : State), Granted s w 0xA0000 rMaint → present s 34 c = true → (cap s c).state ≠ 1 →
    (cap s c).state ≠ 2 → capMaster s c = c.val → (∀ d < 4, d ≠ 0 → capMaster s d = d) → rdf s ctlCtrg [c] 31 28 = 3 →
    (s.tim.now - BitVec.ofNat 64 (rd s ctlCtt [c, 0] + rd s ctlCtt [c, 1] * 2 ^ 32)).toInt = late →
    Runs (.capArm w c) s fun t =>
      if late > 10000000 then (win t w).lastRes = .expired ∧ t.ctl.caps = s.ctl.caps
      else if late > 0 then Accepted t w ∧ t.ctl.res = .lateDone ∧ cap t c = { state := 1, late := true, trigNow := true }
      else Accepted t w ∧ t.ctl.res = .ok ∧ cap t c = { state := 1 }) ∧
  (∀ (w : Win) (c : Fin 4) (s : State), Granted s w 0xA0000 rMaint → present s 34 c = true → (cap s c).state = 1 ∨ (cap s c).state = 2 →
    Runs (.capStop w c) s fun t => Accepted t w ∧ t.ctl.res = .ok ∧ (cap t c).state = 4 ∧
      (∀ d < 4, d ≠ c.val → c.val ≠ 0 ∨ capMaster s d ≠ 0 → cap t d = cap s d) ∧ t.ctl.convs = s.ctl.convs ∧
      Unchanged [.ctl, .hst, .mem] s t) ∧
  (∀ (w : Win) (c : Fin 4) (s : State), Granted s w 0xA0000 rMaint → present s 34 c = true → (cap s c).state = 1 →
    Runs (.capForce w c) s fun t => Accepted t w ∧ t.ctl.res = .ok ∧ cap t c = { cap s c with trigNow := true } ∧
      (∀ d, d ≠ c.val → cap t d = cap s d) ∧ Unchanged [.ctl, .hst] s t) ∧
  (∀ (w : Win) (g : Fin 4) (s : State), Granted s w 0xA0000 rMaint → present s 33 g = false →
    Runs (.genStart w g) s fun t => (win t w).lastRes = .notPresent ∧ t.ctl = { s.ctl with res := .notPresent } ∧
      Unchanged [.ctl, .hst, .mem] s t) ∧
  (∀ (w : Win) (c : Fin 4) (s : State), Granted s w 0xA0000 rMaint → present s 34 c = false →
    Runs (.capArm w c) s fun t => (win t w).lastRes = .notPresent ∧ t.ctl = { s.ctl with res := .notPresent } ∧
      Unchanged [.ctl, .hst, .mem] s t)

/-! ### Thermal supervisor (R299 to R318) -/

/-- One sample of the thermal supervisor, due on its grid of 100 ms, or of 1 s in slow mode: no temperature of an input that serves a string is above its T_MAX; where levels are evaluated a flag is
set at its threshold, and everywhere cleared below it less the hysteresis; SHUTDOWN puts the string's discharge derating to
zero and a new one in CONNECTED or DROWSE asks for a disconnect; a loop that is down blinds the string and inhibits charge; a sample
that is not due changes nothing (R299, R302 to R304, R309 to R312, R315, R316).
Rates of rise: the evaluation on the grid of 1 s takes each unit's R30 from the value 30 s back and counts evaluations at or
above the trip; three of them latch RISE_TRIP, which ends only after T_RISE_CLR below the warning; the recovery period ends by its time; the cooling frame
goes every CAN_PER to mailbox 15 of CAN0 (R306 to R308, R315, R317). -/
def Obligations.ThermalLevelsAndRates : Prop :=
  ((∀ (th : List (Option Int)) (b : List Int) (k : Str) (s : State), awake s = true → Engine.thermal ∉ s.kln.stopped →
    thermalDue s = true → s.shadow = [] → strOk s k = true →
    Runs (.thermalSample th b) s fun t => t.thm.sampledAt = some s.now ∧
      (∀ (j : Fin 8) (x : Int), rdf s thmTh [j] 31 30 = 1 ∨ rdf s thmTh [j] 31 30 = 2 →
        bitN (rd s thmTh [j]) (24 + k.val) = true → thTemp s (th.getD j none) = x → x ≠ noTemp → x ≤ (thmStr t k).tMax) ∧
      ((thmStr t k).tMax ≠ noTemp → levelOn s = true → (levels s).2.2.1 ≤ (thmStr t k).tMax →
        (thmStr t k).shutdown = true ∧ (thmStr t k).derD = 0 ∧ (thmStr t k).cool = 100) ∧
      ((thmStr t k).tMax ≠ noTemp → levelOn s = true → (levels s).2.1 ≤ (thmStr t k).tMax →
        (thmStr t k).throttle = true) ∧
      ((thmStr t k).tMax ≠ noTemp → levelOn s = true → (levels s).1 ≤ (thmStr t k).tMax → (thmStr t k).warn = true) ∧
      ((thmStr t k).tMax ≠ noTemp → (thmStr t k).tMax < (levels s).2.2.1 - (levels s).2.2.2 →
        (thmStr t k).shutdown = false) ∧
      ((thmStr t k).tMax ≠ noTemp → (thmStr t k).tMax < (levels s).1 - (levels s).2.2.2 → (thmStr t k).warn = false) ∧
      (levelOn s = false → (thmStr s k).warn = false → (thmStr t k).warn = false) ∧
      ((thmStr s k).shutdown = false → (thmStr t k).shutdown = true → s.emb.mode = .connected ∨ s.emb.mode = .drowse →
        ∃ r ∈ t.emb.reqs, r.src = .thermal) ∧
      (loopGone s k = true → (thmStr t k).blind = true ∧ (thmStr t k).chgInh = true ∧ (thmStr t k).derC = 0) ∧
      (thmStr t k).riseTrip = (thmStr s k).riseTrip ∧ t.emb.mode = s.emb.mode ∧
      Unchanged [.fresh, .mem, .emb, .est, .imp, .thm, .lgc, .hst, .kln, .recd] s t) ∧
  (∀ (th : List (Option Int)) (b : List Int) (s : State), thermalDue s = false → exec (.thermalSample th b) s = .next s) ∧
  (∀ s : State, awake s = true → s.thm.fast = true → s.thm.lastNear + 10000000 ≤ s.now →
    Runs .thermalSlowMode s fun t => t.thm = { s.thm with fast := false } ∧ Unchanged [.thm] s t) ∧
  (∀ s : State, s.now < s.thm.lastNear + 10000000 → exec .thermalSlowMode s = .next s)) ∧
  ((∀ (k : Str) (p : Nat) (s : State), awake s = true → Engine.thermal ∉ s.kln.stopped → strOk s k = true →
    gridDue s.thm.ratedAt 1000000 s.now = true → (∀ j < 4, (lp s j).n ≤ 32) → 1 ≤ p → p ≤ (lp s k).n →
    Runs .rateEvaluation s fun t => t.thm.ratedAt = some s.now ∧
      tget {} t.thm.srcs (32 * k.val + p) = rateSource (rdf s thmRise [] 15 0) (rdf s thmRise [] 31 16)
        (tget noTemp s.thm.unitT (32 * k.val + p - 1)) (tget {} s.thm.srcs (32 * k.val + p)) ∧
      (rateOn s = true → 3 ≤ (tget {} t.thm.srcs (32 * k.val + p)).tripRun →
        (thmStr t k).riseTrip = true ∧ (thmStr t k).cool = 100 ∧
        ((thmStr s k).riseTrip = false → t.thm.riseLatch = true ∧ thmPermit t = false)) ∧
      (rateOn s = true → 3 ≤ (tget {} t.thm.srcs (32 * k.val + p)).warnRun → (thmStr t k).riseWarn = true) ∧
      ((thmStr s k).riseTrip = true → (thmStr t k).riseTrip = true) ∧ t.emb.mode = s.emb.mode ∧
      Unchanged [.mem, .emb, .thm, .hst, .kln, .recd] s t) ∧
  (∀ s : State, gridDue s.thm.ratedAt 1000000 s.now = false → exec .rateEvaluation s = .next s) ∧
  (∀ (w tr x y : Int) (h : ThmSrc), h.hist[29]? = some y → y ≠ noTemp → x ≠ noTemp →
    (rateSource w tr x h).r30 = some (2 * (x - y)) ∧
    (rateSource w tr x h).tripRun = if tr ≤ 2 * (x - y) then min 3 (h.tripRun + 1) else 0) ∧
  (∀ (t0 : Nat) (s : State), awake s = true → s.thm.riseQuiet = some t0 → s.thm.riseLatch = true →
    t0 + 1000000 * rdf s thmRclr [] 31 16 ≤ s.now →
    Runs .riseTripClear s fun t => t.thm.riseLatch = false ∧
      (∀ k < 4, strOk s k = true → thmStr t k = { thmStr s k with riseTrip := false }) ∧ Unchanged [.mem, .thm, .hst] s t) ∧
  (∀ (t0 : Nat) (s : State), s.thm.riseQuiet = some t0 → s.now < t0 + 1000000 * rdf s thmRclr [] 31 16 →
    exec .riseTripClear s = .next s) ∧
  (∀ (t0 : Nat) (s : State), awake s = true → s.thm.recovAt = some t0 → t0 + recovUs s ≤ s.now →
    Runs .recoveryPeriodEnd s fun t => t.thm = { s.thm with recovAt := none } ∧ Unchanged [.thm] s t) ∧
  (∀ (t0 : Nat) (s : State), s.thm.recovAt = some t0 → s.now < t0 + recovUs s → exec .recoveryPeriodEnd s = .next s) ∧
  (∀ s : State, awake s = true → bitN (rd s thmCan []) 31 = true → canEn s 0 = true → Engine.thermal ∉ s.kln.stopped →
    (mbx s 0 15).st ≠ 2 → s.thm.lastCan + 100000 * rdf s thmCan [] 9 0 ≤ s.now →
    Runs .thermalCanFrame s fun t => (mbx t 0 15).st = 1 ∧
      mbxBytes t 0 15 = padTo 80 (leB 4 (flag (bitN (rd s thmCan []) 30) 31 + rdf s thmCanid [] 28 0) ++
        leB 4 (place 8 19 16) ++ leB 8 0 ++ thmFrame s) ∧
      t.thm = { s.thm with canCnt := s.thm.canCnt + 1, lastCan := s.now } ∧
      (∀ m, m ≠ 15 → mbx t 0 m = mbx s 0 m) ∧ Unchanged [.regs, .thm, .can] s t))

/-! ### Safety lanes (R319 to R353) -/

/-- One cycle of the lanes, 250 µs after the last, in which at most one lane deviates: an output that is on is requested, with two lanes in
the vote, the self-test passed, the lease, its return switch closed, no supply failure, no fault of its own and no latched function that
takes it; a contactor also without LOCK and without a weld. Latches stay; a new one asks for SAFE_STOP. LANE_FAULT and an overcurrent of
two channels over OC_N cycles latch; a lane that deviates for a third cycle, misses a second exchange, or whose billet fails its check
of each second is excluded; a cycle that is not due changes no lane (R82, R321 to R323, R325 to R330, R333, R338, R344). -/
def Obligations.SafetyCycleVotesAndReacts : Prop :=
  (∀ (i : LaneInputs) (a : Nat) (s : State), s.emb.power = .on → (∀ n < 3, (lane s n).state ≠ 0) → cycleDue s = true →
    (∀ n < 3, n ≠ a → flipOf i n = (0, 0)) →
    Runs (.safetyCycle i) s fun t =>
      (∀ j < 16, soOn t j = true → (sout t j).req = true ∧ 2 ≤ popcount 3 (voteMask t) ∧ s.saf.selftest = true ∧
        leaseValid s = true ∧ s.emb.pfail = false ∧ t.saf.sgClosed.getLsbD (j / 4) = true ∧ (sout t j).flt ≠ 1 ∧
        (sout t j).flt ≠ 2 ∧
        ∀ f < 17, t.saf.latch.getLsbD f = true → reactionOff s (funcOf s f).cls (tget 0 t.saf.latchStr f) j = false) ∧
      (∀ j < 16, isContactor s j = true → soOn t j = true → lanesLock t = false ∧ (ctr t (j / 4)).weld = false) ∧
      (∀ f < 17, s.saf.latch.getLsbD f = true → t.saf.latch.getLsbD f = true) ∧
      ((∃ f : Fin 17, s.saf.latch.getLsbD f = false ∧ t.saf.latch.getLsbD f = true) →
        ∃ r ∈ t.emb.reqs, r.target = .safeStop) ∧
      (s.saf.laneFault = true → (funcOf s 14).cls ≠ 0 → t.saf.latch.getLsbD 14 = true) ∧
      (∀ k : Str, strOk s k = true → funcOn s 5 = true → (funcOf s 5).cls ≠ 0 → (safB s).ocN ≤ 255 →
        (safB s).ocN ≤ tget 0 s.saf.ocRun k + 1 →
        2 ≤ ((List.range 3).filter fun j => bitN i.ocTrip.toNat (3 * k.val + j)).length →
        2 ≤ popcount 3 (voteMask t) → t.saf.latch.getLsbD 5 = true) ∧
      (∀ n < 3, (lane s n).state = 1 → laneDue s n = true → billetCrc (lane (laneUpsets i.upsets s) n).billet = false →
        (lane t n).state = 2 ∧ (lane t n).cause = 2) ∧
      (∀ n < 3, (∀ m < 3, (lane s m).state = 1) → laneDue s n = false → flipOf i n ≠ (0, 0) → 2 ≤ (lane s n).disagRun →
        (lane t n).state = 2 ∧ (lane t n).cause = 1) ∧
      (∀ n < 3, (lane s n).state = 1 → laneDue s n = false → i.missed.getLsbD n = true → 1 ≤ (lane s n).missRun →
        (lane t n).state = 2) ∧
      t.saf.cycle = (s.saf.cycle + 1) % 65536 ∧ t.saf.lastCycle = s.now ∧ t.saf.cycleAt = some s.now ∧
      t.emb.mode = s.emb.mode ∧
      (witEn s = false → Unchanged [.saf, .emb, .par, .tx, .kln, .recd, .hst, .mem, .pnl] s t)) ∧
  (∀ (i : LaneInputs) (s : State), cycleDue s = false →
    Runs (.safetyCycle i) s fun t => t.par = { s.par with heldOph := t.par.heldOph } ∧ Unchanged [.par] s t) ∧
  (∀ s : State, s.emb.power = .on → s.saf.lastCycle + 1000 ≤ s.now →
    Runs .safetyWatchdog s fun t => outputsOff t = true ∧ t.saf.sgClosed = 0 ∧ t.saf.watchdog = true ∧
      (∀ k < 4, (ctr t k).pstate = 0 ∧ (ctr t k).weld = (ctr s k).weld) ∧ t.saf.latch = s.saf.latch ∧ Unchanged [.saf] s t) ∧
  (∀ s : State, s.now < s.saf.lastCycle + 1000 → exec .safetyWatchdog s = .next s)

/-- Lanes, summaries and inputs by event: the self-test admits the lanes that passed with an intact copy of the billet, shows FLT 4 at the
outputs whose step failed (DESIGN CHOICE, assumption 75), and with fewer than two lanes LANE_FAULT stands, which also stands once
a lane has been excluded for LANE_DEG_MAX; a supervised position without a summary for SUM_TMO is lost; two test pulses in a row
read as 1 set TP_FLT, a read being taken at the end of each pulse alone; 2 ms of low supply set SUPPLY_LOST (R82, R323, R324, R332,
R335, R343).
Safe connections: a producing one sends every P_PER its data behind a running SEQ with the CRC over its identity; a
consuming one takes a frame only with the right CRC and a newer SEQ, from WAITING over CONFIRMING to RUNNING, counts the others, and after WD without
a frame all its bits are 0 (R349 to R352). -/
def Obligations.LanesInputsAndSafeConnections : Prop :=
  ((∀ (p : BitVec 3) (fo : BitVec 16) (s : State), s.emb.power = .on → (∃ i : Fin 3, (lane s i).state = 0) →
    Runs (.laneSelfTestComplete p fo) s fun t =>
      (∀ i < 3, (lane s i).state ≠ 2 → p.getLsbD i = true → billetCrc (lane s i).billet = true → (lane t i).state = 1) ∧
      (∀ i < 3, (lane s i).state ≠ 2 → p.getLsbD i = false → (lane t i).state = 2 ∧ (lane t i).cause = 3) ∧
      (∀ i < 3, (lane s i).state ≠ 2 → p.getLsbD i = true → billetCrc (lane s i).billet = false →
        (lane t i).state = 2 ∧ (lane t i).cause = 2) ∧
      (t.saf.selftest = true ↔
        2 ≤ ((List.range 3).filter fun i => bitN p.toNat i && billetCrc (lane s i).billet).length) ∧
      (t.saf.selftest = false → t.saf.laneFault = true) ∧ t.saf.latch = s.saf.latch ∧
      (∀ j < 16, sout t j = if fo.getLsbD j = true then { sout s j with flt := 4 } else sout s j) ∧
      Unchanged [.saf, .par, .kln, .recd, .hst, .mem] s t) ∧
  (∀ (h : Nat) (s : State), s.emb.power = .on → s.saf.degrOph = some h → h + 3600 * (safB s).laneDegMaxH ≤ s.emb.oph.toNat →
    Runs .laneDegradedTimeout s fun t => t.saf = { s.saf with laneFault := true } ∧ Unchanged [.saf] s t) ∧
  (∀ (h : Nat) (s : State), s.saf.degrOph = some h → s.emb.oph.toNat < h + 3600 * (safB s).laneDegMaxH →
    exec .laneDegradedTimeout s = .next s) ∧
  (∀ (k : Str) (p : BitVec 6) (s : State), s.emb.power = .on → p ≠ 0 → p.toNat ≤ (loopOf s k).snum →
    (summ s k p.toNat).lost = false → (summ s k p.toNat).last + 1000 * (safB s).sumTmo < s.now →
    Runs (.summaryTimeout k p) s fun t => summ t k p.toNat = { summ s k p.toNat with lost := true } ∧
      sumLost t k p.toNat = true ∧ t.saf.sos = s.saf.sos ∧ Unchanged [.saf] s t) ∧
  (∀ (k : Str) (p : BitVec 6) (s : State), s.now ≤ (summ s k p.toNat).last + 1000 * (safB s).sumTmo →
    exec (.summaryTimeout k p) s = .next s) ∧
  (∀ (b : Bool) (r : BitVec 8) (n : Nat) (s : State), s.emb.power = .on → pulseEnds s b = true →
    n < (safB s).inputs.length → n < 8 → (inOf s n).tested = true →
    Runs (.testPulseRead b r) s fun t =>
      (r.getLsbD n = true → 1 ≤ (if b = true then (sinp s n).tpRunB else (sinp s n).tpRunA) → (sinp t n).tpFlt = true) ∧
      (r.getLsbD n = false → (if b = true then (sinp t n).tpRunB else (sinp t n).tpRunA) = 0) ∧
      (r.getLsbD n = false → (sinp s n).tpFlt = false → (sinp t n).tpFlt = false) ∧
      (sinp t n).discFlt = (sinp s n).discFlt ∧ (if b = true then t.saf.tsB else t.saf.tsA) = some s.now ∧
      t.saf.sos = s.saf.sos ∧ Unchanged [.saf] s t) ∧
  (∀ (b : Bool) (r : BitVec 8) (s : State), pulseEnds s b = false → exec (.testPulseRead b r) s = .next s) ∧
  (∀ (t0 : Nat) (s : State), s.emb.power = .on → s.saf.supLowSince = some t0 → t0 + 2000 ≤ s.now →
    Runs .supplyLost s fun t => t.saf = { s.saf with supLost := true } ∧ Unchanged [.saf] s t) ∧
  (∀ (t0 : Nat) (s : State), s.saf.supLowSince = some t0 → s.now < t0 + 2000 → exec .supplyLost s = .next s)) ∧
  ((∀ (c : Fin 16) (s : State), (connOf s c).dir = 2 → awake s = true →
    (sconn s c).sent = false ∨ (sconn s c).last + 1000 * (connOf s c).pPer ≤ s.now →
    Runs (.safeFrameSend c) s fun t =>
      (sconn t c).seq = (if (sconn s c).sent = true then ((sconn s c).seq + 1) % 65536 else 0) ∧
      (sconn t c).data = connData s c ∧ (sconn t c).last = s.now ∧ (sconn t c).sent = true ∧
      tget [] t.tx (ifSafe c) = leB 2 (sconn t c).seq ++ connData s c ++
        leB 4 (crc32c (leB 4 (connOf s c).connId.toNat ++ (leB 2 (sconn t c).seq ++ connData s c))) ∧
      (∀ j, j ≠ c.val → sconn t j = sconn s j) ∧ t.saf.sos = s.saf.sos ∧ Unchanged [.tx, .saf] s t) ∧
  (∀ (c : Fin 16) (s : State), (sconn s c).sent = true → s.now < (sconn s c).last + 1000 * (connOf s c).pPer →
    exec (.safeFrameSend c) s = .next s) ∧
  (∀ (c : Fin 16) (bs : List Byte) (s : State), (connOf s c).dir = 1 → awake s = true →
    (bs.length ≠ 6 + (connOf s c).dlen ∨
      getLe bs (2 + (connOf s c).dlen) 4 ≠ safeCrc s c (bs.take (2 + (connOf s c).dlen))) →
    Runs (.safeFrameReceive c bs) s fun t => sconn t c = { sconn s c with disc := min 65535 ((sconn s c).disc + 1) } ∧
      (∀ j, j ≠ c.val → sconn t j = sconn s j) ∧ Unchanged [.saf] s t) ∧
  (∀ (c : Fin 16) (bs : List Byte) (q : Nat) (s : State), (connOf s c).dir = 1 → awake s = true →
    bs.length = 6 + (connOf s c).dlen →
    getLe bs (2 + (connOf s c).dlen) 4 = safeCrc s c (bs.take (2 + (connOf s c).dlen)) → getLe bs 0 2 = q →
    Runs (.safeFrameReceive c bs) s fun t =>
      (if (sconn s c).state = 2 ∨ (sconn s c).state = 3 then
         if (q + 65536 - (sconn s c).seq) % 65536 - 1 < 32767 ∧ (q + 65536 - (sconn s c).seq) % 65536 ≠ 0 then
           (sconn t c).state = 3 ∧ (sconn t c).seq = q ∧
             (sconn t c).arrived = some ((bs.drop 2).take (connOf s c).dlen) ∧ (sconn t c).last = s.now
         else sconn t c = { sconn s c with disc := min 65535 ((sconn s c).disc + 1) }
       else (sconn t c).state = 2 ∧ (sconn t c).seq = q ∧ (sconn t c).last = s.now ∧
         (sconn t c).arrived = (sconn s c).arrived) ∧
      (sconn t c).data = (sconn s c).data ∧ (∀ j, j ≠ c.val → sconn t j = sconn s j) ∧ Unchanged [.saf] s t) ∧
  (∀ (c : Fin 16) (s : State), s.emb.power = .on → (sconn s c).state = 3 → (sconn s c).last + 1000 * (connOf s c).wd ≤ s.now →
    Runs (.safeConnectionLost c) s fun t => (sconn t c).state = 4 ∧ (∀ b < 64, connBit t c b = false) ∧
      (∀ j, j ≠ c.val → sconn t j = sconn s j) ∧ t.saf.sos = s.saf.sos ∧ Unchanged [.saf] s t) ∧
  (∀ (c : Fin 16) (s : State), s.now < (sconn s c).last + 1000 * (connOf s c).wd →
    exec (.safeConnectionLost c) s = .next s))

/-- Output tests and contactors: the lowest output that is due goes into an off-pulse; a high readback of its own is SHORT_LPLUS and opens
the group, a low one of a searched output is CROSS_SHORT; OUTF_ACK clears faults that have read low for 1 s; in precharge the
lanes ask every 5 ms for POINT 0 and then POINT 1, ahead of other requesters, K+ is commanded at 95 % and KP dropped K_CLOSE later; a weld
check asks for POINT 2 and passes at V_WELD_THR or latches WELD after T_OPEN, which WELD_ACK clears in MAINTENANCE (R181, R339 to R342,
R345, R346, R348). -/
def Obligations.OutputsArePulsedAndContactorsSequenced : Prop :=
  (∀ (j : Fin 16) (s : State), PulseDue s j → (∀ i < j, ¬ PulseDue s i) → (∀ i < 16, (sout s i).pulsing = none) →
    s.saf.cycle % 8 = 0 → s.saf.slotAt + 2000 ≤ s.now →
    Runs .offPulse s fun t =>
      sout t j = { sout s j with pulsing := some s.now, pcnt := ((sout s j).pcnt + 1) % 65536, lastPulse := s.now } ∧
      (∀ i, i ≠ j.val → sout t i = sout s i) ∧ t.saf.slotAt = s.now ∧ t.saf.latch = s.saf.latch ∧ Unchanged [.saf] s t) ∧
  (∀ (rb : BitVec 16) (j : Fin 16) (t0 : Nat) (s : State), pulsed s = some (j.val, t0) → t0 + (safB s).tpW ≤ s.now + 50 →
    rb.getLsbD j = true → (∀ i < 16, (sout s i).flt ≠ 3) → (sout s j).flt ≠ 1 →
    Runs (.offPulseReadback rb) s fun t => (sout t j).flt = 1 ∧ (sout t j).latched = true ∧
      (∀ i < 4, soOn t (4 * (j.val / 4) + i) = false) ∧ t.saf.sgClosed.getLsbD (j.val / 4) = false ∧
      t.saf.sgFlt.getLsbD (j.val / 4) = true ∧ t.saf.cts = s.saf.cts ∧ Unchanged [.saf] s t) ∧
  (∀ (rb : BitVec 16) (j : Fin 16) (t0 : Nat) (s : State), pulsed s = some (j.val, t0) → t0 + (safB s).tpW ≤ s.now + 50 →
    rb.getLsbD j = false → (∀ i < 16, (sout s i).flt ≠ 3) →
    Runs (.offPulseReadback rb) s fun t => sout t j = { sout s j with rb := false } ∧
      (∀ i, i ≠ j.val → sout t i = sout s i) ∧ t.saf.sgClosed = s.saf.sgClosed ∧ Unchanged [.saf] s t) ∧
  (∀ (rb : BitVec 16) (i j : Fin 16) (t0 : Nat) (s : State), pulsed s = some (j.val, t0) →
    t0 + (safB s).tpW ≤ s.now + 50 → rb.getLsbD j = false → rb.getLsbD i = false → i ≠ j → (sout s i).flt = 3 →
    j.val ∈ (sout s i).highLeft → (outOf s i).parallel = false → (outOf s j).parallel = false →
    Runs (.offPulseReadback rb) s fun t => (sout t i).flt = 2 ∧ (sout t i).peer = j.val ∧ (sout t j).flt = 2 ∧
      soOn t i = false ∧ soOn t j = false ∧ Unchanged [.saf] s t) ∧
  (∀ (j t0 : Nat) (s : State), pulsed s = some (j, t0) → t0 + (safB s).tpW ≤ s.now →
    Runs .offPulseEnd s fun t => sout t j = { sout s j with pulsing := none } ∧ (∀ i, i ≠ j → sout t i = sout s i) ∧
      Unchanged [.saf] s t) ∧
  (∀ (w : Win) (s : State), Granted s w 0xD0000 rSafe →
    (∀ j < 16, (sout s j).flt = 1 ∨ (sout s j).flt = 2 → ∃ t0 ∈ (sout s j).offSince, t0 + 1000000 ≤ s.now) →
    Runs (.outfAck w) s fun t => Accepted t w ∧ t.saf.res = .ok ∧ (∀ j < 16, (sout t j).flt ≠ 1 ∧ (sout t j).flt ≠ 2) ∧
      t.saf.sgClosed = (if allReaction s s.saf.dems = true then s.saf.sgClosed else 15) ∧ t.saf.sgFlt = 0 ∧ (∀ j, soOn t j = soOn s j) ∧ t.saf.latch = s.saf.latch ∧
      Unchanged [.saf, .hst] s t) ∧
  (∀ (w : Win) (j : Fin 16) (s : State), Granted s w 0xD0000 rSafe → (sout s j).flt = 1 → (sout s j).offSince = none →
    Runs (.outfAck w) s fun t => (win t w).lastRes = .refusedMode ∧ t.saf = { s.saf with res := .refusedMode } ∧
      Unchanged [.saf, .hst, .mem] s t) ∧
  (∀ (w : Win) (k : Str) (mv : Int) (s : State), Granted s w 0xD0000 rSafe → strOk s k = true → s.emb.mode = .maintenance →
    ctrOpen s k = true →
    Runs (.weldAck w k mv) s fun t => (ctr t k).v2 = mv ∧
      (if (safB s).vWeld.natAbs ≤ mv.natAbs then Accepted t w ∧ (ctr t k).weld = false
       else (win t w).lastRes = .refusedMode ∧ (ctr t k).weld = (ctr s k).weld) ∧
      t.saf.sos = s.saf.sos ∧ t.saf.latch = s.saf.latch ∧ Unchanged [.mea, .saf, .hst, .mem] s t) ∧
  (∀ (k : Str) (s : State), s.emb.power = .on → (ctr s k).pstate = 1 → pollDue s k = true → Engine.bank ∉ s.kln.stopped →
    Runs (.prechargePoll k) s fun t => ctr t k = { ctr s k with pollAt := some s.now, v0New := false } ∧
      ((mstr s k).waiting.length ≤ 2 → (mstr t k).waiting =
        (mstr s k).waiting.filter injLane ++ [(.lanes, 0), (.lanes, 1)] ++ (mstr s k).waiting.filter fun x => !injLane x) ∧
      (mstr t k).running = (mstr s k).running ∧ (∀ q, q ≠ k.val → ctr t q = ctr s q ∧ mstr t q = mstr s q) ∧
      t.saf.sos = s.saf.sos ∧ t.saf.latch = s.saf.latch ∧ Unchanged [.mea, .saf] s t) ∧
  (∀ (k : Str) (mv : Int) (t0 : Nat) (s : State), awake s = true → (mstr s k).running = some (.lanes, 0, t0) → t0 + 11 ≤ s.now →
    Runs (.injectionComplete k mv) s fun t => ctr t k = { ctr s k with v0 := mv, v0New := true } ∧
      (mstr t k).running = none ∧ t.saf.sos = s.saf.sos ∧ t.saf.latch = s.saf.latch ∧ Unchanged [.mea, .saf] s t) ∧
  (∀ (k : Str) (mv : Int) (t0 : Nat) (s : State), awake s = true → (mstr s k).running = some (.lanes, 1, t0) → t0 + 11 ≤ s.now →
    (ctr s k).pstate = 1 → (ctr s k).v0New = true → (ctr s k).v0 * 95 ≤ mv * 100 →
    Runs (.injectionComplete k mv) s fun t => (ctr t k).v1 = mv ∧ (ctr t k).pstate = 2 ∧ (ctr t k).met = true ∧
      (ctr t k).kplusAt = some s.now ∧ (sout t (4 * k.val)).req = true ∧ (∀ j, soOn t j = soOn s j) ∧
      (∀ j, j ≠ 4 * k.val → sout t j = sout s j) ∧ t.saf.latch = s.saf.latch ∧ Unchanged [.mea, .saf] s t) ∧
  (∀ (k : Str) (mv : Int) (t0 : Nat) (s : State), awake s = true → (mstr s k).running = some (.lanes, 1, t0) → t0 + 11 ≤ s.now →
    (ctr s k).pstate ≠ 1 ∨ (ctr s k).v0New = false ∨ mv * 100 < (ctr s k).v0 * 95 →
    Runs (.injectionComplete k mv) s fun t => ctr t k = { ctr s k with v1 := mv } ∧ t.saf.sos = s.saf.sos ∧
      t.saf.latch = s.saf.latch ∧ Unchanged [.mea, .saf] s t) ∧
  (∀ (k : Str) (t0 : Nat) (s : State), (ctr s k).pstate = 2 → (ctr s k).kplusAt = some t0 →
    t0 + 1000 * (safB s).kClose ≤ s.now →
    Runs (.prechargeKpOpen k) s fun t => (ctr t k).pstate = 3 ∧ soOn t (4 * k.val + 2) = false ∧
      (sout t (4 * k.val + 2)).req = false ∧ (∀ j, j ≠ 4 * k.val + 2 → sout t j = sout s j) ∧
      (s.emb.mode = .precharge → (∀ q < 4, strOk s q = true → q ≠ k.val → (ctr s q).pstate = 3) →
        { target := .connected, src := .module 0x0E } ∈ t.emb.reqs) ∧
      t.emb.mode = s.emb.mode ∧ Unchanged [.emb, .saf] s t) ∧
  (∀ (k : Str) (s : State), s.emb.power = .on → (ctr s k).pstate = 4 → pollDue s k = true → Engine.bank ∉ s.kln.stopped →
    Runs (.weldCheckPoll k) s fun t => ctr t k = { ctr s k with pollAt := some s.now } ∧
      ((mstr s k).waiting.length ≤ 3 → (mstr t k).waiting =
        (mstr s k).waiting.filter injLane ++ [(.lanes, 2)] ++ (mstr s k).waiting.filter fun x => !injLane x) ∧
      (mstr t k).running = (mstr s k).running ∧ t.saf.sos = s.saf.sos ∧ Unchanged [.mea, .saf] s t) ∧
  (∀ (k : Str) (mv : Int) (t0 : Nat) (s : State), awake s = true → (mstr s k).running = some (.lanes, 2, t0) → t0 + 11 ≤ s.now →
    (ctr s k).pstate = 4 →
    Runs (.injectionComplete k mv) s fun t => (ctr t k).v2 = mv ∧ (ctr t k).weld = (ctr s k).weld ∧
      (ctr t k).pstate = (if (safB s).vWeld.natAbs ≤ mv.natAbs then 0 else 4) ∧
      (ctr t k).openAt = (if (safB s).vWeld.natAbs ≤ mv.natAbs then none else (ctr s k).openAt) ∧
      t.saf.sos = s.saf.sos ∧ Unchanged [.mea, .saf] s t) ∧
  (∀ (k : Str) (t0 : Nat) (s : State), (ctr s k).pstate = 4 → (ctr s k).openAt = some t0 →
    t0 + 1000 * (safB s).tOpen ≤ s.now →
    Runs (.weldTimeout k) s fun t => ctr t k = { ctr s k with weld := true, pstate := 0, openAt := none } ∧
      (∀ q, q ≠ k.val → ctr t q = ctr s q) ∧ t.saf.sos = s.saf.sos ∧ Unchanged [.saf] s t)

/-! ### Logic engine instructions (R360 to R366) -/

/-- Arithmetic instructions: integers wrap in TYPE and set OVF where TYPE does not hold the exact result, a division or modulo by 0
gives 0 and sets DIV0, REAL and LREAL round the exact result once, and a result that is no number is a NaN whose payload
stays open (R360, R361). -/
def Obligations.ArithmeticWrapsAndRounds : Prop :=
  (∀ (k : Fin 16) (i : Ins) (s : State), Fetched s k 0x08 i → tyFp i.ty = none →
    Runs (.lgcAdd k) s fun t => IntResult s t k i (opA s k i + opB s k i)) ∧
  (∀ (k : Fin 16) (i : Ins) (s : State), Fetched s k 0x09 i → tyFp i.ty = none →
    Runs (.lgcSub k) s fun t => IntResult s t k i (opA s k i - opB s k i)) ∧
  (∀ (k : Fin 16) (i : Ins) (s : State), Fetched s k 0x0A i → tyFp i.ty = none →
    Runs (.lgcMul k) s fun t => IntResult s t k i (opA s k i * opB s k i)) ∧
  (∀ (k : Fin 16) (i : Ins) (s : State), Fetched s k 0x0B i → tyFp i.ty = none → opB s k i ≠ 0 →
    Runs (.lgcDiv k) s fun t => IntResult s t k i (Int.tdiv (opA s k i) (opB s k i))) ∧
  (∀ (k : Fin 16) (i : Ins) (s : State), Fetched s k 0x0B i → tyFp i.ty = none → opB s k i = 0 →
    Runs (.lgcDiv k) s fun t => TaskIs s t k { wrote (task s k) i 0 with div0 := true }) ∧
  (∀ (k : Fin 16) (i : Ins) (s : State), Fetched s k 0x0C i → tyFp i.ty = none → opB s k i ≠ 0 →
    Runs (.lgcMod k) s fun t => IntResult s t k i (Int.tmod (opA s k i) (opB s k i))) ∧
  (∀ (k : Fin 16) (i : Ins) (s : State), Fetched s k 0x0C i → tyFp i.ty = none → opB s k i = 0 →
    Runs (.lgcMod k) s fun t => TaskIs s t k { wrote (task s k) i 0 with div0 := true }) ∧
  (∀ (k : Fin 16) (i : Ins) (s : State), Fetched s k 0x0D i → tyFp i.ty = none →
    Runs (.lgcNeg k) s fun t => IntResult s t k i (-opB s k i)) ∧
  (∀ (k : Fin 16) (i : Ins) (s : State), Fetched s k 0x0E i → tyFp i.ty = none →
    Runs (.lgcAbs k) s fun t => IntResult s t k i (((opB s k i).natAbs : Int))) ∧
  (∀ (k : Fin 16) (i : Ins) (f : FpFmt) (s : State), Fetched s k 0x08 i → tyFp i.ty = some f →
    Runs (.lgcAdd k) s fun t => RealResult s t k i f (f.pack ((fpA f s k i).add (fpB f s k i)))) ∧
  (∀ (k : Fin 16) (i : Ins) (f : FpFmt) (s : State), Fetched s k 0x09 i → tyFp i.ty = some f →
    Runs (.lgcSub k) s fun t => RealResult s t k i f (f.pack ((fpA f s k i).add (fpB f s k i).neg))) ∧
  (∀ (k : Fin 16) (i : Ins) (f : FpFmt) (s : State), Fetched s k 0x0A i → tyFp i.ty = some f →
    Runs (.lgcMul k) s fun t => RealResult s t k i f (f.pack ((fpA f s k i).mul (fpB f s k i)))) ∧
  (∀ (k : Fin 16) (i : Ins) (f : FpFmt) (s : State), Fetched s k 0x0B i → tyFp i.ty = some f →
    Runs (.lgcDiv k) s fun t => RealResult s t k i f (f.div (fpA f s k i) (fpB f s k i))) ∧
  (∀ (k : Fin 16) (i : Ins) (f : FpFmt) (s : State), Fetched s k 0x0C i → tyFp i.ty = some f →
    Runs (.lgcMod k) s fun t => RealResult s t k i f (f.pack ((fpA f s k i).rem (fpB f s k i)))) ∧
  (∀ (k : Fin 16) (i : Ins) (f : FpFmt) (s : State), Fetched s k 0x0D i → tyFp i.ty = some f →
    Runs (.lgcNeg k) s fun t => RealResult s t k i f (f.pack (fpB f s k i).neg)) ∧
  (∀ (k : Fin 16) (i : Ins) (f : FpFmt) (s : State), Fetched s k 0x0E i → tyFp i.ty = some f →
    Runs (.lgcAbs k) s fun t => RealResult s t k i f (f.pack (fpB f s k i).abs)) ∧
  (∀ (f : FpFmt) (n : Nat), f = fp32 ∨ f = fp64 → (f.unpack (f.nanBits n)).isNan = true)

/-- Bitwise instructions on the bits of TYPE, shifts and rotates by count, comparisons into the condition flag with every relation but NE false
of a NaN, and selections (R360, R361). -/
def Obligations.BitwiseCompareAndSelect : Prop :=
  (∀ (k : Fin 16) (i : Ins) (s : State), Fetched s k 0x10 i →
    Runs (.lgcAnd k) s fun t => TaskIs s t k (wrote (task s k) i (widen i.ty ((bitA s k i).land (bitB s k i))))) ∧
  (∀ (k : Fin 16) (i : Ins) (s : State), Fetched s k 0x11 i →
    Runs (.lgcOr k) s fun t => TaskIs s t k (wrote (task s k) i (widen i.ty ((bitA s k i).lor (bitB s k i))))) ∧
  (∀ (k : Fin 16) (i : Ins) (s : State), Fetched s k 0x12 i →
    Runs (.lgcXor k) s fun t => TaskIs s t k (wrote (task s k) i (widen i.ty (Nat.xor (bitA s k i) (bitB s k i))))) ∧
  (∀ (k : Fin 16) (i : Ins) (s : State), Fetched s k 0x13 i →
    Runs (.lgcNot k) s fun t => TaskIs s t k (wrote (task s k) i (widen i.ty (2 ^ tyBits i.ty - 1 - bitB s k i)))) ∧
  (∀ (k : Fin 16) (i : Ins) (s : State), Fetched s k 0x14 i →
    Runs (.lgcShl k) s fun t => TaskIs s t k (wrote (task s k) i (widen i.ty (if srcVal (task s k) i < tyBits i.ty then bitA s k i * 2 ^ srcVal (task s k) i % 2 ^ tyBits i.ty else 0)))) ∧
  (∀ (k : Fin 16) (i : Ins) (s : State), Fetched s k 0x15 i →
    Runs (.lgcShr k) s fun t => TaskIs s t k (wrote (task s k) i (widen i.ty (if srcVal (task s k) i < tyBits i.ty then bitA s k i / 2 ^ srcVal (task s k) i else 0)))) ∧
  (∀ (k : Fin 16) (i : Ins) (s : State), Fetched s k 0x16 i →
    Runs (.lgcRol k) s fun t => TaskIs s t k (wrote (task s k) i (widen i.ty ((bitA s k i * 2 ^ (srcVal (task s k) i % tyBits i.ty) + bitA s k i / 2 ^ (tyBits i.ty - srcVal (task s k) i % tyBits i.ty)) % 2 ^ tyBits i.ty)))) ∧
  (∀ (k : Fin 16) (i : Ins) (s : State), Fetched s k 0x17 i →
    Runs (.lgcRor k) s fun t => TaskIs s t k (wrote (task s k) i (widen i.ty ((bitA s k i / 2 ^ (srcVal (task s k) i % tyBits i.ty) + bitA s k i * 2 ^ (tyBits i.ty - srcVal (task s k) i % tyBits i.ty)) % 2 ^ tyBits i.ty)))) ∧
  (∀ (k : Fin 16) (i : Ins) (s : State), Fetched s k 0x18 i →
    Runs (.lgcCmp k) s fun t => TaskIs s t k { task s k with
      flag := relation (fld i.x 7 4) i.ty (wreg (task s k) i.w) (srcVal (task s k) i), pc := (task s k).pc + i.len }) ∧
  (∀ ty a b : Nat, tyFp ty = none → relation 0 ty a b = decide (intVal ty a = intVal ty b) ∧
    relation 1 ty a b = decide (intVal ty a ≠ intVal ty b) ∧ relation 2 ty a b = decide (intVal ty a < intVal ty b) ∧
    relation 3 ty a b = decide (intVal ty a ≤ intVal ty b) ∧ relation 4 ty a b = decide (intVal ty a > intVal ty b) ∧
    relation 5 ty a b = decide (intVal ty a ≥ intVal ty b)) ∧
  (∀ r ty a b : Nat, tyNan ty a = true ∨ tyNan ty b = true → relation r ty a b = decide (r = 1)) ∧
  (∀ (k : Fin 16) (i : Ins) (s : State), Fetched s k 0x1C i → tyFp i.ty = none →
    Runs (.lgcMin k) s fun t => TaskIs s t k (wrote (task s k) i (wreg (task t k) i.w)) ∧
      intVal i.ty (wreg (task t k) i.w) = min (intVal i.ty (wreg (task s k) (fld i.x 3 0))) (intVal i.ty (wreg (task s k) (fld i.x 7 4)))) ∧
  (∀ (k : Fin 16) (i : Ins) (s : State), Fetched s k 0x1D i → tyFp i.ty = none →
    Runs (.lgcMax k) s fun t => TaskIs s t k (wrote (task s k) i (wreg (task t k) i.w)) ∧
      intVal i.ty (wreg (task t k) i.w) = max (intVal i.ty (wreg (task s k) (fld i.x 3 0))) (intVal i.ty (wreg (task s k) (fld i.x 7 4)))) ∧
  (∀ (k : Fin 16) (i : Ins) (s : State), Fetched s k 0x1E i → tyFp i.ty = none →
    Runs (.lgcLimit k) s fun t => TaskIs s t k (wrote (task s k) i (wreg (task t k) i.w)) ∧
      intVal i.ty (wreg (task t k) i.w) = min (max (opA s k i) (intVal i.ty (wreg (task s k) (fld i.x 3 0)))) (intVal i.ty (wreg (task s k) (fld i.x 7 4)))) ∧
  (∀ (k : Fin 16) (i : Ins) (f : FpFmt) (s : State), Fetched s k 0x1C i → tyFp i.ty = some f →
    tyNan i.ty (wreg (task s k) (fld i.x 3 0)) = true ∨ tyNan i.ty (wreg (task s k) (fld i.x 7 4)) = true →
    Runs (.lgcMin k) s fun t => RealResult s t k i f none) ∧
  (∀ (k : Fin 16) (i : Ins) (s : State), Fetched s k 0x1F i →
    Runs (.lgcSel k) s fun t => TaskIs s t k (wrote (task s k) i (widen i.ty (wreg (task s k)
      (if bitN (wreg (task s k) i.w) 0 = true then fld i.x 7 4 else fld i.x 3 0)))))

/-- Loads, stores and block moves stay within the task's data area and its listed outputs, else the task faults with a partition violation; jumps,
calls to a depth of 16, returns; an undefined opcode or form faults the task and its outputs go to 0 (R357 to R360, R362, R363). -/
def Obligations.LoadsStoresAndJumps : Prop :=
  (∀ (k : Fin 16) (i : Ins) (s : State), Fetched s k 0x01 i → i.form ≠ 2 → i.form ≠ 3 →
    inData s k (dataOff (task s k) i) (tyBytes i.ty) = true →
    Runs (.lgcLd k) s fun t => TaskIs s t k (wrote (task s k) i
      (widen i.ty (dataGet (task s k) (dataOff (task s k) i) (tyBytes i.ty))))) ∧
  (∀ (k : Fin 16) (i : Ins) (s : State), Fetched s k 0x01 i → i.form = 3 →
    Runs (.lgcLd k) s fun t => TaskIs s t k (wrote (task s k) i (widen i.ty (i.e1 + 2 ^ 32 * i.e2)))) ∧
  (∀ (k : Fin 16) (i : Ins) (s : State), Fetched s k 0x01 i → i.form = 2 →
    Runs (.lgcLd k) s fun t => TaskIs s t k
      { wrote (task s k) i (widen i.ty (imgRead (img s k).iou (task s k) i.e1 (tyBits i.ty))) with
        wFi := tset 0 (task s k).wFi i.w (if i.area = 0 then fld i.e1 15 0 + 1 else 0) }) ∧
  (∀ (k : Fin 16) (i : Ins) (s : State), Fetched s k 0x01 i → i.form ≠ 2 → i.form ≠ 3 →
    inData s k (dataOff (task s k) i) (tyBytes i.ty) = false →
    Runs (.lgcLd k) s fun t => Faulted t k 2 ∧ t.kln.pviol = min 65535 (s.kln.pviol + 1)) ∧
  (∀ (k : Fin 16) (i : Ins) (s : State), Fetched s k 0x02 i → i.form ≠ 2 →
    inData s k (dataOff (task s k) i) (tyBytes i.ty) = true → (img s k).dataLen ≤ 65536 → forcesOf s = [] →
    Runs (.lgcSt k) s fun t => TaskIs s t k { task s k with data := (task t k).data, pc := (task s k).pc + i.len } ∧
      dataGet (task t k) (dataOff (task s k) i) (tyBytes i.ty) = wreg (task s k) i.w % 2 ^ tyBits i.ty ∧
      ∀ a, a < dataOff (task s k) i ∨ dataOff (task s k) i + tyBytes i.ty ≤ a →
        tget 0 (task t k).data a = tget 0 (task s k).data a) ∧
  (∀ (k : Fin 16) (i : Ins) (s : State), Fetched s k 0x02 i → i.form = 2 → (img s k).iou.contains (wd i.e1) = true →
    Runs (.lgcSt k) s fun t => TaskIs s t k { task s k with outBuf := (task t k).outBuf, pc := (task s k).pc + i.len } ∧
      ∀ j < tyBits i.ty, fld i.e1 15 0 + j < areaBits i.area →
        outBit (task t k) i.area (fld i.e1 27 24) (fld i.e1 15 0 + j) = bitN (wreg (task s k) i.w) j) ∧
  (∀ (k : Fin 16) (i : Ins) (s : State), Fetched s k 0x02 i → i.form = 2 → (img s k).iou.contains (wd i.e1) = false →
    Runs (.lgcSt k) s fun t => TaskIs s t k { task s k with pc := (task s k).pc + i.len }) ∧
  (∀ (k : Fin 16) (i : Ins) (s : State), Fetched s k 0x02 i → i.form ≠ 2 →
    inData s k (dataOff (task s k) i) (tyBytes i.ty) = false →
    Runs (.lgcSt k) s fun t => Faulted t k 2 ∧ t.kln.pviol = min 65535 (s.kln.pviol + 1)) ∧
  (∀ (k : Fin 16) (i : Ins) (s : State), Fetched s k 0x03 i → inData s k i.e1 i.x = true → inData s k i.e2 i.x = true →
    (img s k).dataLen ≤ 65536 → forcesOf s = [] →
    Runs (.lgcMovb k) s fun t => TaskIs s t k { task s k with data := (task t k).data, pc := (task s k).pc + i.len } ∧
      memRead (task t k).data i.e2 i.x = memRead (task s k).data i.e1 i.x ∧
      ∀ a, a < i.e2 ∨ i.e2 + i.x ≤ a → tget 0 (task t k).data a = tget 0 (task s k).data a) ∧
  (∀ (k : Fin 16) (i : Ins) (s : State), Fetched s k 0x03 i → inData s k i.e1 i.x = false ∨ inData s k i.e2 i.x = false →
    Runs (.lgcMovb k) s fun t => Faulted t k 2 ∧ t.kln.pviol = min 65535 (s.kln.pviol + 1)) ∧
  (∀ (k : Fin 16) (i : Ins) (s : State), Fetched s k 0x00 i →
    Runs (.lgcNop k) s fun t => TaskIs s t k { task s k with pc := (task s k).pc + i.len }) ∧
  (∀ (k : Fin 16) (i : Ins) (s : State), Fetched s k 0x20 i →
    Runs (.lgcJmp k) s fun t => TaskIs s t k { task s k with pc := i.e1 / 4 }) ∧
  (∀ (k : Fin 16) (i : Ins) (s : State), Fetched s k 0x21 i →
    Runs (.lgcJc k) s fun t => TaskIs s t k { task s k with pc := if (task s k).flag = true then i.e1 / 4 else (task s k).pc + i.len }) ∧
  (∀ (k : Fin 16) (i : Ins) (s : State), Fetched s k 0x22 i →
    Runs (.lgcJnc k) s fun t => TaskIs s t k { task s k with pc := if (task s k).flag = true then (task s k).pc + i.len else i.e1 / 4 }) ∧
  (∀ (k : Fin 16) (i : Ins) (s : State), Fetched s k 0x23 i → (task s k).stack.length < 16 →
    Runs (.lgcCall k) s fun t => TaskIs s t k
      { task s k with pc := i.e1 / 4, stack := ((task s k).pc + i.len) :: (task s k).stack }) ∧
  (∀ (k : Fin 16) (i : Ins) (s : State), Fetched s k 0x23 i → 16 ≤ (task s k).stack.length →
    Runs (.lgcCall k) s fun t => Faulted t k 3) ∧
  (∀ (k : Fin 16) (i : Ins) (r : Nat) (l : List Nat) (s : State), Fetched s k 0x24 i → (task s k).stack = r :: l →
    Runs (.lgcRet k) s fun t => TaskIs s t k { task s k with pc := r, stack := l }) ∧
  (∀ (k : Fin 16) (i : Ins) (s : State), Fetched s k 0x24 i → (task s k).stack = [] →
    Runs (.lgcRet k) s fun t => Faulted t k 3) ∧
  (∀ (k : Fin 16) (s : State), taskRuns s k = true → fetch s k = none ∨ (∃ i ∈ fetch s k, insOk i = false) →
    Runs (.undefinedInstruction k) s fun t => Faulted t k 3 ∧ (∀ j, j ≠ k.val → task t j = task s j) ∧
      (forcesOf s = [] → ∀ b < 16, outKey 1 0 b ∈ outKeys s k → t.lgc.fq.getLsbD b = false) ∧
      t.emb.mode = s.emb.mode ∧ Unchanged [.mem, .emb, .saf, .lgc, .hst, .kln, .recd] s t)

/-- Conversions, TON, TOF and TP on the stamps of their input, edge triggers, the up counter, edge views, the time base, and the user event (R360,
R361, R365, R366). -/
def Obligations.ConversionsTimersAndCounters : Prop :=
  (∀ (k : Fin 16) (i : Ins) (s : State), Fetched s k 0x28 i → tyFp (fld i.x 3 0) = none → tyFp i.ty = none → i.ty ≠ 0 →
    Runs (.lgcCvt k) s fun t => IntResult s t k i (intVal (fld i.x 3 0) (wreg (task s k) i.w))) ∧
  (∀ (k : Fin 16) (i : Ins) (s : State), Fetched s k 0x28 i → tyFp (fld i.x 3 0) = none → i.ty = 0 →
    Runs (.lgcCvt k) s fun t => TaskIs s t k (wrote (task s k) i
      (if intVal (fld i.x 3 0) (wreg (task s k) i.w) = 0 then 0 else 1))) ∧
  (∀ (k : Fin 16) (i : Ins) (f : FpFmt) (s : State), Fetched s k 0x28 i → tyFp (fld i.x 3 0) = none → tyFp i.ty = some f →
    Runs (.lgcCvt k) s fun t => RealResult s t k i f (f.pack (Fp.ofInt (intVal (fld i.x 3 0) (wreg (task s k) i.w))))) ∧
  (∀ (k : Fin 16) (i : Ins) (f g : FpFmt) (s : State), Fetched s k 0x28 i → tyFp (fld i.x 3 0) = some f →
    tyFp i.ty = some g →
    Runs (.lgcCvt k) s fun t => RealResult s t k i g (g.pack (fpA f s k i))) ∧
  (∀ (k : Fin 16) (i : Ins) (f : FpFmt) (n : Int) (s : State), Fetched s k 0x28 i → tyFp (fld i.x 3 0) = some f →
    tyFp i.ty = none → (fpA f s k i).toInt = some n →
    Runs (.lgcCvt k) s fun t => if i.ty = 0 then TaskIs s t k (wrote (task s k) i (if n = 0 then 0 else 1))
      else IntResult s t k i n) ∧
  (∀ (k : Fin 16) (i : Ins) (f : FpFmt) (s : State), Fetched s k 0x28 i → tyFp (fld i.x 3 0) = some f →
    tyFp i.ty = none → (fpA f s k i).toInt = none →
    Runs (.lgcCvt k) s fun t => (task t k).ovf = true ∧
      TaskIs { s with fresh := t.fresh } t k { wrote (task s k) i (wreg (task t k) i.w) with ovf := true }) ∧
  (∀ (k : Fin 16) (i : Ins) (m : TmrInst) (s : State), Fetched s k 0x30 i → inData s k i.e1 25 = true → forcesOf s = [] →
    (TmrInst.read (memRead (task s k).data i.e1 25)).eval i.x (bitN (wreg (task s k) i.w) 0) s.lgc.time
      (stampOf (task s k) i.w true) (stampOf (task s k) i.w false) = m →
    Runs (.lgcTmr k) s fun t => TaskIs s t k { task s k with
      data := memWrite (task s k).data i.e1 m.bytes, flag := m.q, pc := (task s k).pc + i.len }) ∧
  (∀ (k : Fin 16) (i : Ins) (s : State), Fetched s k 0x30 i → inData s k i.e1 25 = false →
    Runs (.lgcTmr k) s fun t => Faulted t k 2 ∧ t.kln.pviol = min 65535 (s.kln.pviol + 1)) ∧
  (∀ (m : TmrInst) (now rise fall : Nat), m.prev = false →
    (m.eval 0 true now rise fall).q = decide (m.pt ≤ now - rise) ∧ (m.eval 0 true now rise fall).et = min m.pt (now - rise) ∧
    (m.eval 0 false now rise fall).q = false ∧ (m.eval 0 false now rise fall).et = 0 ∧
    (m.eval 1 true now rise fall).q = true ∧ (m.eval 1 true now rise fall).et = 0 ∧
    (m.run = false → (m.eval 2 true now rise fall).q = !decide (m.pt ≤ now - rise))) ∧
  (∀ (m : TmrInst) (now rise fall : Nat), m.prev = true →
    (m.eval 0 true now rise fall).q = decide (m.pt ≤ now - m.start) ∧
    (m.eval 1 false now rise fall).q = !decide (m.pt ≤ now - fall) ∧ (m.eval 1 false now rise fall).et = min m.pt (now - fall)) ∧
  (∀ (k : Fin 16) (i : Ins) (q : Bool) (s : State), Fetched s k 0x31 i → inData s k i.e1 1 = true → forcesOf s = [] →
    (if i.x = 0 then bitN (wreg (task s k) i.w) 0 && !bitN (dataGet (task s k) i.e1 1) 0
     else !bitN (wreg (task s k) i.w) 0 && bitN (dataGet (task s k) i.e1 1) 0) = q →
    Runs (.lgcTrig k) s fun t => TaskIs s t k { task s k with
      data := memWrite (task s k).data i.e1 [BitVec.ofNat 8 (flag (bitN (wreg (task s k) i.w) 0) 0 + flag q 1)]
      flag := q, pc := (task s k).pc + i.len }) ∧
  (∀ (k : Fin 16) (i : Ins) (s : State), Fetched s k 0x31 i → inData s k i.e1 1 = false →
    Runs (.lgcTrig k) s fun t => Faulted t k 2 ∧ t.kln.pviol = min 65535 (s.kln.pviol + 1)) ∧
  (∀ (k : Fin 16) (i : Ins) (cv pv : Int) (inp old : Nat) (s : State), Fetched s k 0x32 i → inData s k i.e1 7 = true →
    (img s k).dataLen ≤ 65536 → forcesOf s = [] → sgn 16 (dataGet (task s k) i.e1 2) = cv →
    sgn 16 (dataGet (task s k) (i.e1 + 2) 2) = pv → dataGet (task s k) (i.e1 + 4) 1 = inp →
    dataGet (task s k) (i.e1 + 5) 1 = old → i.x = 0 →
    Runs (.lgcCtr k) s fun t => (task t k).pc = (task s k).pc + i.len ∧
      sgn 16 (dataGet (task t k) i.e1 2) = (if bitN inp 2 = true then 0
        else if bitN inp 0 = true ∧ bitN old 0 = false then min 32767 (cv + 1) else cv) ∧
      sgn 16 (dataGet (task t k) (i.e1 + 2) 2) = pv ∧
      ((task t k).flag = true ↔ pv ≤ sgn 16 (dataGet (task t k) i.e1 2)) ∧ (∀ j, j ≠ k.val → task t j = task s j) ∧
      (task t k).w = (task s k).w ∧ Unchanged [.lgc] s t) ∧
  (∀ (k : Fin 16) (i : Ins) (s : State), Fetched s k 0x32 i → inData s k i.e1 7 = false →
    Runs (.lgcCtr k) s fun t => Faulted t k 2 ∧ t.kln.pviol = min 65535 (s.kln.pviol + 1)) ∧
  (∀ (k : Fin 16) (i : Ins) (e : EdgeView) (s : State), Fetched s k 0x34 i → tget {} (task s k).edges (fld i.x 4 0) = e →
    Runs (.lgcRdedge k) s fun t => TaskIs s t k (wrote (task s k) i (if fld i.x 9 8 = 0 then e.rise + 256 * e.fall
      else if fld i.x 9 8 = 1 then e.riseAt else e.fallAt))) ∧
  (∀ (k : Fin 16) (i : Ins) (s : State), Fetched s k 0x38 i → i.x = 0 →
    Runs (.lgcSys k) s fun t => TaskIs s t k (wrote (task s k) i s.lgc.time)) ∧
  (∀ (k : Fin 16) (i : Ins) (s : State), Fetched s k 0x38 i → i.x = 1 →
    Runs (.lgcSys k) s fun t => task t k = { task s k with pc := (task s k).pc + i.len } ∧
      (∀ e ∈ sinksOf s (.user (Fin.ofNat 32 (wreg (task s k) i.w % 32))), e ∈ t.kln.evPend) ∧
      (∀ j, j ≠ k.val → task t j = task s j) ∧ Unchanged [.kln, .lgc] s t)

/-! ### Logic tasks, forces and stations (R354 to R357, R363 to R380) -/

/-- Tasks: a cyclic task falls due at its instants or counts OVR, an event task is triggered; the first task in order starts on a free lane with its
inputs and edges copied at one instant, or preempts a lower priority, and a preempted one resumes; a cycle beyond TWD faults; END ends the
cycle and puts the task's outputs into the live image; deferred retained data is written when writes may resume (R354 to R357,
R363, R367, R369). -/
def Obligations.TasksStartRunAndEnd : Prop :=
  (∀ (k : Fin 16) (s : State), taskOn s k = true → lgcRuns s = true → rdf s lgcTcfg [k] 23 0 ≠ 0 →
    rdf s lgcToff [k] 23 0 ≤ s.lgc.time → (s.lgc.time - rdf s lgcToff [k] 23 0) % rdf s lgcTcfg [k] 23 0 = 0 →
    (task s k).lastDue ≠ some s.lgc.time →
    Runs (.taskDue k) s fun t =>
      TaskIs s t k (if (task s k).state = 1 ∧ (task s k).dueAt = none then
          { task s k with lastDue := some s.lgc.time, dueAt := some s.lgc.time }
        else if 1 ≤ (task s k).state ∧ (task s k).state ≤ 3 then
          { task s k with lastDue := some s.lgc.time, ovr := min 65535 ((task s k).ovr + 1) }
        else { task s k with lastDue := some s.lgc.time })) ∧
  (∀ (k : Fin 16) (s : State), (s.lgc.time - rdf s lgcToff [k] 23 0) % rdf s lgcTcfg [k] 23 0 ≠ 0 →
    exec (.taskDue k) s = .next s) ∧
  (∀ (k : Fin 16) (s : State), awake s = true → EvSink.task k ∈ s.kln.evPend → taskOn s k = true →
    rdf s lgcTcfg [k] 23 0 = 0 →
    Runs (.eventTaskTrigger k) s fun t => t.kln = { s.kln with evPend := s.kln.evPend.erase (.task k) } ∧
      ((task s k).state = 1 → (task s k).dueAt = none → task t k = { task s k with dueAt := some s.lgc.time }) ∧
      ((task s k).state = 2 → task t k = { task s k with again := true }) ∧
      (∀ j < 16, j ≠ k.val → task t j = task s j) ∧ Unchanged [.kln, .lgc] s t) ∧
  (∀ (k : Fin 16) (s : State), firstDue s = some k.val → (task s k).state ≠ 3 → lgcRuns s = true → s.shadow = [] →
    (runningTasks s).length < 8 →
    Runs (.taskStart k) s fun t => (task t k).state = 2 ∧ (task t k).pc = 0 ∧ (task t k).stack = [] ∧
      (task t k).flag = false ∧ (task t k).startAt = s.lgc.time ∧ (task t k).copyAt = s.lgc.time ∧
      (task t k).input = inputCopy s (task s k) ∧ (task t k).edges = (task s k).newEdges ∧ (task t k).w = (task s k).w ∧
      (∀ j < 16, j ≠ k.val → task t j = task s j) ∧ t.lgc.fq = s.lgc.fq ∧ Unchanged [.lgc, .kln] s t) ∧
  (∀ (k : Fin 16) (v : Nat) (s : State), firstDue s = some k.val → (task s k).state ≠ 3 → lgcRuns s = true → s.shadow = [] →
    8 ≤ (runningTasks s).length → victim s = some v → v ≠ k.val → prioOf s k < prioOf s v →
    Runs (.taskStart k) s fun t => (task t k).state = 2 ∧ (task t k).pc = 0 ∧
      task t v = { task s v with state := 3 } ∧ (task t k).input = inputCopy s (task s k) ∧
      (∀ j < 16, j ≠ k.val → j ≠ v → task t j = task s j) ∧ Unchanged [.lgc, .kln] s t) ∧
  (∀ (k : Fin 16) (s : State), firstDue s = some k.val → (task s k).state = 3 → s.emb.power = .on →
    (runningTasks s).length < 8 →
    Runs (.taskStart k) s fun t => TaskIs s t k { task s k with state := 2 }) ∧
  (∀ (k : Fin 16) (s : State), firstDue s ≠ some k.val → exec (.taskStart k) s = .next s) ∧
  (∀ (k : Fin 16) (s : State), (task s k).state = 2 ∨ (task s k).state = 3 →
    (task s k).startAt + rd s lgcTwd [k] < s.lgc.time →
    Runs (.taskWatchdog k) s fun t => Faulted t k 1 ∧ (∀ j < 16, j ≠ k.val → task t j = task s j) ∧
      (forcesOf s = [] → ∀ b < 16, outKey 1 0 b ∈ outKeys s k → t.lgc.fq.getLsbD b = false) ∧
      t.emb.mode = s.emb.mode ∧ Unchanged [.emb, .saf, .lgc, .kln, .recd, .hst, .mem] s t) ∧
  (∀ (k : Fin 16) (s : State), s.lgc.time ≤ (task s k).startAt + rd s lgcTwd [k] → exec (.taskWatchdog k) s = .next s) ∧
  (∀ (k : Fin 16) (i : Ins) (s : State), Fetched s k 0x3F i →
    Runs (.lgcEnd k) s fun t => (task t k).state = 1 ∧ (task t k).again = false ∧ (task t k).stack = [] ∧
      (task t k).dueAt = (if (task s k).again = true then some s.lgc.time else none) ∧
      (task t k).cycles = (task s k).cycles + 1 ∧ (task t k).data = (task s k).data ∧
      (task t k).lastT = min 65535 ((s.lgc.time - (task s k).startAt) / 10) ∧
      (forcesOf s = [] → (∀ q ∈ outKeys s k, q / 1048576 = 1 → q = outKey 1 0 (q % 65536)) → ∀ b < 16,
        t.lgc.fq.getLsbD b = if outKey 1 0 b ∈ outKeys s k then outBit (task s k) 1 0 b else s.lgc.fq.getLsbD b) ∧
      (∀ j < 16, j ≠ k.val → task t j = task s j) ∧ t.emb.mode = s.emb.mode ∧
      Unchanged [.emb, .kln, .saf, .lgc, .hst, .mem] s t) ∧
  (∀ s : State, awake s = true → s.lgc.nvDefer = true → s.emb.holdupOk = true → -368 ≤ s.thm.board → s.thm.board ≤ 1328 →
    Runs .lgcNvResume s fun t => t.lgc.nvDefer = false ∧
      (∀ k < 16, ∀ d ∈ (task s k).nvPend, (task t k).wrData = d ∧ (task t k).nvPend = none) ∧
      (∀ k < 16, (task s k).nvPend = none → task t k = task s k) ∧ Unchanged [.lgc] s t) ∧
  (∀ s : State, s.emb.holdupOk = false → exec .lgcNvResume s = .next s)

/-- Forces: FORCE_SET puts a force into the table, only in MAINTENANCE and with a free entry, FORCE_CLR and FORCE_CLR_ALL take
them out, each noted by the FORCE event, and a new force waits for FORCE_ACK; CLR_CNT clears the counters (R59, R370 to R372).
Remote I/O stations: an output frame every SPER; an input frame is taken with the right CRC, length and a newer SEQ, the
second in a row makes the station RUNNING; others are counted; a station without a frame for SWD is LOST, and the error
task falls due (R376 to R379). -/
def Obligations.ForcesAndStations : Prop :=
  ((∀ (w : Win) (f : Force) (e : Nat) (s : State), Granted s w 0xE0000 rMaint → s.emb.mode = .maintenance →
    forceTarget s = some f → forceEntry s f = some e →
    Runs (.forceSet w) s fun t => Accepted t w ∧ t.lgc.res = .ok ∧ tget none t.lgc.forces e = some f ∧
      (∀ j, j ≠ e → tget none t.lgc.forces j = tget none s.lgc.forces j) ∧ t.lgc.entry = e ∧
      (∀ x : Win, Noted t x 6) ∧ t.lgc.tasks = s.lgc.tasks ∧
      t.emb = { s.emb with forceAcked := false } ∧ Unchanged [.saf, .lgc, .kln, .recd, .hst, .mem, .emb] s t) ∧
  (∀ (w : Win) (f : Force) (s : State), Granted s w 0xE0000 rMaint → s.emb.mode = .maintenance →
    forceTarget s = some f → forceEntry s f = none →
    Runs (.forceSet w) s fun t => (win t w).lastRes = .full ∧ t.lgc = { s.lgc with res := .full } ∧
      Unchanged [.lgc, .hst, .mem] s t) ∧
  (∀ (w : Win) (s : State), Granted s w 0xE0000 rMaint → s.emb.mode ≠ .maintenance →
    Runs (.forceSet w) s fun t => (win t w).lastRes = .refusedMode ∧ t.lgc = { s.lgc with res := .refusedMode } ∧
      Unchanged [.lgc, .hst, .mem] s t) ∧
  (∀ (w : Win) (e : Byte) (f : Force) (s : State), Granted s w 0xE0000 rMaint → tget none s.lgc.forces e.toNat = some f →
    Runs (.forceClr w e) s fun t => Accepted t w ∧ t.lgc.res = .ok ∧ tget none t.lgc.forces e.toNat = none ∧
      (∀ j, j ≠ e.toNat → tget none t.lgc.forces j = tget none s.lgc.forces j) ∧ (∀ x : Win, Noted t x 6) ∧
      t.lgc.tasks = s.lgc.tasks ∧ Unchanged [.lgc, .kln, .recd, .hst, .mem] s t) ∧
  (∀ (w : Win) (e : Byte) (s : State), Granted s w 0xE0000 rMaint → tget none s.lgc.forces e.toNat = none →
    Runs (.forceClr w e) s fun t => (win t w).lastRes = .range ∧ t.lgc = { s.lgc with res := .range } ∧
      Unchanged [.lgc, .hst, .mem] s t) ∧
  (∀ (w : Win) (s : State), Granted s w 0xE0000 rMaint →
    Runs (.forceClrAll w) s fun t => Accepted t w ∧ t.lgc.res = .ok ∧ (∀ e < 256, tget none t.lgc.forces e = none) ∧
      t.lgc.tasks = s.lgc.tasks ∧ Unchanged [.lgc, .kln, .recd, .hst, .mem] s t) ∧
  (∀ (w : Win) (s : State), Granted s w 0xE0000 rCfg →
    Runs (.lgcClrCnt w) s fun t => Accepted t w ∧ t.lgc.res = .ok ∧ t.lgc.lag = 0 ∧
      (∀ k < 16, task t k = { task s k with ovf := false, div0 := false, ovr := 0, maxT := 0 }) ∧
      (∀ n < 16, stn t n = { stn s n with disc := 0, badFr := 0 }) ∧ t.lgc.forces = s.lgc.forces ∧
      Unchanged [.lgc, .hst] s t)) ∧
  ((∀ (n : Fin 16) (s : State), stnOn s n = true → awake s = true → (stn s n).state ≠ 0 →
    (stn s n).lastTx + sper s n ≤ s.now →
    Runs (.stationOutputFrame n) s fun t =>
      stn t n = { stn s n with txSeq := ((stn s n).txSeq + 1) % 65536, lastTx := s.now } ∧
      (tget [] t.tx (ifStn n.val)).take (8 + rdf s lgcStncfg [n] 23 17) =
        [BitVec.ofNat 8 n.val, 1] ++ leB 2 (((stn s n).txSeq + 1) % 65536) ++
          [BitVec.ofNat 8 (rdf s lgcStncfg [n] 23 17), BitVec.ofNat 8 (flag (stn s n).noData 0), 0, 0] ++
          memRead s.lgc.sq (64 * n.val) (rdf s lgcStncfg [n] 23 17) ∧
      (tget [] t.tx (ifStn n.val)).drop (8 + rdf s lgcStncfg [n] 23 17) = leB 4 (stnCrc s n
        ((tget [] t.tx (ifStn n.val)).take (8 + rdf s lgcStncfg [n] 23 17))) ∧
      (∀ j, j ≠ n.val → stn t j = stn s j) ∧ t.lgc.sq = s.lgc.sq ∧ Unchanged [.tx, .lgc] s t) ∧
  (∀ (n : Fin 16) (s : State), s.now < (stn s n).lastTx + sper s n → exec (.stationOutputFrame n) s = .next s) ∧
  (∀ (n : Fin 16) (b : List Byte) (s : State), stnOn s n = true → awake s = true → (stn s n).state ≠ 0 →
    stnFrameOk s n b = false →
    Runs (.stationInputFrame n b) s fun t => stn t n = { stn s n with badFr := min 65535 ((stn s n).badFr + 1), run := 0 } ∧
      t.lgc.si = s.lgc.si ∧ (∀ j, j ≠ n.val → stn t j = stn s j) ∧ Unchanged [.lgc] s t) ∧
  (∀ (n : Fin 16) (b : List Byte) (s : State), stnOn s n = true → awake s = true → (stn s n).state ≠ 0 →
    stnFrameOk s n b = true →
    Runs (.stationInputFrame n b) s fun t => (stn t n).rxSeq = some (getLe b 2 2) ∧ (stn t n).last = s.now ∧
      (stn t n).state = (if 1 ≤ (stn s n).run then 2 else (stn s n).state) ∧
      (∀ q < rdf s lgcStncfg [n] 30 24, bitN (byteAt b 5) 0 = false →
        (stn s n).state ≠ 3 ∨ 1 ≤ (stn s n).run → tget 0 t.lgc.si (64 * n.val + q) = b.getD (8 + q) 0) ∧
      (bitN (byteAt b 5) 0 = true → t.lgc.si = s.lgc.si) ∧
      (∀ j, j ≠ n.val → stn t j = stn s j) ∧ t.lgc.sq = s.lgc.sq ∧ Unchanged [.lgc, .hst, .mem] s t) ∧
  (∀ (n : Fin 16) (b : List Byte) (s : State), (getLe b (8 + rdf s lgcStncfg [n] 30 24) 4 ≠
      stnCrc s n (b.take (8 + rdf s lgcStncfg [n] 30 24)) ∨ b.length ≠ 12 + rdf s lgcStncfg [n] 30 24 ∨
      (stn s n).rxSeq = some (getLe b 2 2)) → stnFrameOk s n b = false) ∧
  (∀ (n : Fin 16) (s : State), stnOn s n = true → awake s = true → (stn s n).state = 1 ∨ (stn s n).state = 2 →
    (stn s n).last + swd s n ≤ s.now →
    Runs (.stationLost n) s fun t =>
      stn t n = { stn s n with state := 3, lostCnt := min 65535 ((stn s n).lostCnt + 1), run := 0, noData := true, rxSeq := none } ∧
      (∀ k < 16, inR (task s k).state 2 3 = true → (task t k).lostStns = (task s k).lostStns ||| BitVec.ofNat 16 (2 ^ n.val)) ∧
      (∀ k ∈ errTask s, t.lgc.errPend = s.lgc.errPend ||| BitVec.ofNat 16 (2 ^ n.val) ∧
        ((task s k).state = 1 → (task t k).dueAt.isSome = true)) ∧
      (∀ j, j ≠ n.val → stn t j = stn s j) ∧ t.lgc.si = s.lgc.si ∧ Unchanged [.lgc, .kln, .recd, .hst, .mem] s t) ∧
  (∀ (n : Fin 16) (s : State), s.now < (stn s n).last + swd s n → exec (.stationLost n) s = .next s))

/-! ### Field I/O (R381 to R394) -/

/-- The link to the field section: the module's frame carries the outputs that an END has named, none in a section fault; the third frame in a row that does
not arrive switches the section's outputs off, and they follow again from the frame after the eighth; a frame of the section with a bad CRC or length, or none, counts, and the third in a row is a
section fault that puts the substitutes into FI; an accepted one brings the inputs, and the eighth ends the fault
(R37, R388 to R391, R394).
Field inputs and outputs: the debounced value follows after DB with a stamped edge; an output in current limit for OVL_T goes off and is tried again
after RETRY while it is commanded; FL+ low for 10 ms sets FL_LOW, its return for 100 ms clears the flags; FLT_ACK waits for the fault
to end, OVL_ACK tries the outputs of its mask at once or as soon as the image commands them, CLR_CNT clears the counters (R383, R384, R386, R390, R392). -/
def Obligations.FieldLinkAndPoints : Prop :=
  ((∀ (a : Bool) (s : State), awake s = true → s.shadow = [] → (∀ t0 ∈ s.fio.lastTx, t0 + 25 ≤ s.now) →
    Runs (.fioFrameSend a) s fun t => t.fio.txSeq = s.fio.txSeq + 1 ∧ t.fio.lastTx = some s.now ∧
      tget [] t.tx ifFio = ((s.fio.txSeq + 1) :: leB 2 (fioOutBits s).toNat) ++
        leB 2 (crc16 ((s.fio.txSeq + 1) :: leB 2 (fioOutBits s).toNat)) ∧
      (s.fio.linkFlt = true ∨ s.fio.fltHeld = true ∨ Engine.fieldIo ∈ s.kln.stopped → fioOutBits s = 0) ∧
      (a = true → s.fio.secOff = false → s.fio.flMissing = false → ∀ j < 16,
        (fout t j).on = ((fioOutBits s).getLsbD j && (!(fout s j).ovl || (fout s j).on))) ∧
      (a = false → 2 ≤ s.fio.secBadRun ∨ s.fio.secOff = true → ∀ j < 16, (fout t j).on = false) ∧
      (a = true → s.fio.secOff = true → s.fio.secGoodRun < 8 → ∀ j < 16, (fout t j).on = false) ∧
      t.fio.ins = s.fio.ins ∧ t.lgc = { s.lgc with fi := t.lgc.fi } ∧ Unchanged [.tx, .fio, .lgc] s t) ∧
  (∀ (a : Bool) (t0 : Nat) (s : State), s.fio.lastTx = some t0 → s.now < t0 + 25 → exec (.fioFrameSend a) s = .next s) ∧
  (∀ (f : FioFrame) (s : State), awake s = true → Engine.fieldIo ∉ s.kln.stopped →
    f.crcOk = false ∨ f.lenOk = false ∨ (∃ q ∈ fioExpected s, q ≠ f.seq.toNat) →
    Runs (.fioFrameReceive f) s fun t => t.fio.bad = min 65535 (s.fio.bad + 1) ∧ t.fio.goodRun = 0 ∧
      t.fio.badRun = min 3 (s.fio.badRun + 1) ∧ t.fio.lastSeq = s.fio.lastSeq ∧
      (s.fio.live = true → s.fio.linkFlt = false → 2 ≤ s.fio.badRun →
        t.fio.linkFlt = true ∧ t.fio.edgeLost = true ∧ t.fio.fltCnt = min 65535 (s.fio.fltCnt + 1) ∧
        ∀ n < 32, t.lgc.fi.getLsbD n = if bitN (rd s fioSubm []) n = true then bitN (rd s fioSubv []) n
          else s.fio.hold.getLsbD n) ∧
      (s.fio.badRun < 2 → t.fio.linkFlt = s.fio.linkFlt ∧ t.lgc = s.lgc) ∧ t.fio.outs = s.fio.outs ∧
      Unchanged [.kln, .lgc, .fio, .recd, .hst, .mem] s t) ∧
  (∀ (f : FioFrame) (s : State), awake s = true → Engine.fieldIo ∉ s.kln.stopped → f.crcOk = true → f.lenOk = true →
    (∀ q ∈ fioExpected s, q = f.seq.toNat) →
    Runs (.fioFrameReceive f) s fun t => t.fio.lastSeq = some f.seq.toNat ∧ t.fio.lastAt = s.now ∧ t.fio.badRun = 0 ∧
      t.fio.goodRun = min 8 (s.fio.goodRun + 1) ∧ t.fio.bad = s.fio.bad ∧ t.fio.vfl = f.vfl ∧
      (∀ n < 32, (fin t n).raw = f.raw.getLsbD n ∧ (fioDbUs s n = 0 → (fin t n).deb = f.raw.getLsbD n)) ∧
      (fioSubst t = false → ∀ n < 32, t.lgc.fi.getLsbD n = (fin t n).deb) ∧
      (s.fio.linkFlt = true → 7 ≤ s.fio.goodRun → 8 ≤ s.fio.secGoodRun →
        t.fio.linkFlt = false ∧ t.fio.fltHeld = bitN (rd s fioCfg []) 31) ∧
      (s.fio.linkFlt = true → s.fio.goodRun < 7 → t.fio.linkFlt = true) ∧
      (s.fio.linkFlt = false → t.fio.linkFlt = false) ∧ Unchanged [.lgc, .fio, .kln, .recd, .hst, .mem] s t) ∧
  (∀ s : State, awake s = true → s.fio.lastSeq.isSome = true → s.fio.lastAt + 27 + 25 * s.fio.slots ≤ s.now →
    Runs .fioFrameMissing s fun t => t.fio.miss = min 65535 (s.fio.miss + 1) ∧ t.fio.slots = s.fio.slots + 1 ∧
      (s.fio.live = true → s.fio.linkFlt = false → 2 ≤ s.fio.badRun → t.fio.linkFlt = true) ∧
      (s.fio.badRun < 2 → t.fio.linkFlt = s.fio.linkFlt ∧ t.lgc = s.lgc) ∧ t.fio.outs = s.fio.outs ∧
      Unchanged [.kln, .lgc, .fio, .recd, .hst, .mem] s t) ∧
  (∀ s : State, s.now < s.fio.lastAt + 27 + 25 * s.fio.slots → exec .fioFrameMissing s = .next s)) ∧
  ((∀ (n : Fin 32) (t0 : Nat) (s : State), awake s = true → Engine.fieldIo ∉ s.kln.stopped → (fin s n).runStart = some t0 → (fin s n).raw ≠ (fin s n).deb →
    t0 + fioDbUs s n ≤ s.now →
    Runs (.debounceChange n) s fun t => fin t n = (if (fin s n).raw = true then
          { fin s n with deb := true, runStart := none, rise := min 15 ((fin s n).rise + 1)
                         riseAt := s.lgc.time - (s.now - t0) }
        else { fin s n with deb := false, runStart := none, fall := min 15 ((fin s n).fall + 1)
                            fallAt := s.lgc.time - (s.now - t0) }) ∧
      (∀ j, j ≠ n.val → fin t j = fin s j) ∧ t.fio.outs = s.fio.outs ∧ Unchanged [.fio] s t) ∧
  (∀ (n : Fin 32) (t0 : Nat) (s : State), (fin s n).runStart = some t0 → s.now < t0 + fioDbUs s n →
    exec (.debounceChange n) s = .next s) ∧
  (∀ (j : Fin 16) (s : State), awake s = true → (fout s j).on = true →
    (fout s j).onAt + 1000 * rdf s fioCfg [] 22 16 ≤ s.now →
    Runs (.outputOverload j) s fun t => fout t j = { fout s j with
        on := false, ovl := true, ovlAt := s.now
        tryAt := if rdf s fioCfg [] 9 0 = 0 then none else some (s.now + 100000 * rdf s fioCfg [] 9 0) } ∧
      (∀ i, i ≠ j.val → fout t i = fout s i) ∧ t.fio.ins = s.fio.ins ∧ Unchanged [.fio, .kln, .recd, .hst, .mem] s t) ∧
  (∀ (j : Fin 16) (s : State), (fout s j).on = false ∨ s.now < (fout s j).onAt + 1000 * rdf s fioCfg [] 22 16 →
    exec (.outputOverload j) s = .next s) ∧
  (∀ (j : Fin 16) (t0 : Nat) (s : State), awake s = true → (fout s j).tryAt = some t0 → t0 ≤ s.now →
    outAllowed s j = true → (fout s j).ovl = true → (fout s j).on = false →
    Runs (.outputRetry j) s fun t => fout t j = { fout s j with
        on := true, onAt := s.now, ovlAt := s.now, tryAt := none } ∧
      (∀ i, i ≠ j.val → fout t i = fout s i) ∧ Unchanged [.fio] s t) ∧
  (∀ (j : Fin 16) (s : State), s.fio.txOut.getLsbD j = false ∨ s.fio.secOff = true ∨ s.fio.flMissing = true →
    exec (.outputRetry j) s = .next s) ∧
  (∀ (t0 : Nat) (s : State), awake s = true → s.fio.lowSince = some t0 → s.fio.flLow = false → t0 + 10000 ≤ s.now →
    Runs .flLowDetect s fun t => t.fio = { s.fio with flLow := true } ∧ Unchanged [.fio, .kln, .recd, .hst, .mem] s t) ∧
  (∀ (t0 : Nat) (s : State), s.fio.lowSince = some t0 → s.now < t0 + 10000 → exec .flLowDetect s = .next s) ∧
  (∀ s : State, awake s = true →
    Runs .flRecover s fun t =>
      ((∃ t0 ∈ s.fio.ok18Since, t0 + 100000 ≤ s.now) → t.fio.flMissing = false) ∧
      ((∃ t0 ∈ s.fio.okSince, t0 + 100000 ≤ s.now) → t.fio.flLow = false) ∧
      (s.fio.okSince = none → t.fio.flLow = s.fio.flLow) ∧ (s.fio.ok18Since = none → t.fio.flMissing = s.fio.flMissing) ∧
      t.fio.outs = s.fio.outs ∧ t.lgc.tasks = s.lgc.tasks ∧ Unchanged [.fio, .lgc] s t) ∧
  (∀ (w : Win) (s : State), Granted s w 0xF0000 rMaint → s.fio.linkFlt = false →
    Runs (.fltAck w) s fun t => Accepted t w ∧ t.fio = { s.fio with fltHeld := false, res := .ok } ∧
      Unchanged [.fio, .hst] s t) ∧
  (∀ (w : Win) (s : State), Granted s w 0xF0000 rMaint → s.fio.linkFlt = true →
    Runs (.fltAck w) s fun t => (win t w).lastRes = .refusedMode ∧ t.fio = { s.fio with res := .refusedMode } ∧
      Unchanged [.fio, .hst, .mem] s t) ∧
  (∀ (w : Win) (m : BitVec 16) (s : State), Granted s w 0xF0000 rMaint →
    Runs (.ovlAck w m) s fun t => Accepted t w ∧ t.fio.res = .ok ∧
      (∀ j < 16, fout t j = if m.getLsbD j = true ∧ (fout s j).ovl = true ∧ (fout s j).on = false then
            if outAllowed s j = true then { fout s j with on := true, onAt := s.now, ovlAt := s.now, tryAt := none }
            else { fout s j with tryAt := some s.now }
          else fout s j) ∧ t.fio.ins = s.fio.ins ∧ Unchanged [.fio, .hst] s t) ∧
  (∀ (w : Win) (s : State), Granted s w 0xF0000 rMaint →
    Runs (.fioClrCnt w) s fun t => Accepted t w ∧ t.fio = { s.fio with bad := 0, miss := 0, fltCnt := 0, res := .ok } ∧
      Unchanged [.fio, .hst] s t))

/-! ### CAN FD (R395 to R415) -/

/-- Reception and fault confinement: a controller joins with its counters clear; a frame goes where the lowest matching filter says, to the FIFO ring or a
high-priority buffer with its shadow, or is discarded, and lowers the receive error counter unless the controller only listens; an error raises a counter and with it the
state, at 256 to bus-off, which ends after 128 idle sequences unless a RECOVER is awaited; releasing a buffer brings its shadow forward (R397,
R403 to R408).
CAN commands and rate detection: ABORT ends pending mailboxes and asks the one that transmits, RECOVER ends the wait of bus-off, CLR_CNT clears the
counters; a plugged tool or ABD_START begins the detection on CAN2, sixteen edges give the candidates whose first is tried, and unplugging ends it
(R401, R402, R404, R413). -/
def Obligations.CanReceivesCommandsAndRates : Prop :=
  ((∀ (c : Fin 3) (s : State), awake s = true → canEn s c = true → (can s c).joined = false →
    canAuto s c = false ∨ (can s c).tool = true → (can s c).since + canBits s c 11 ≤ s.now →
    Runs (.canBusJoin c) s fun t => can t c = { can s c with joined := true, state := 0, tec := 0, recc := 0 } ∧
      (∀ j, j ≠ c.val → can t j = can s j) ∧ Unchanged [.can] s t) ∧
  (∀ (c : Fin 3) (f : CanFrame) (s : State), canOnBus s c = true → (can s c).state < 2 →
    Runs (.canFrameReceive c f) s fun t =>
      (can t c).recc = (if canListens t c = true then (can s c).recc
        else if 127 < (can s c).recc then 127 else (can s c).recc - 1) ∧ (can t c).tec = (can s c).tec ∧
      (canListens t c = false → (can t c).state = canStateOf (can s c).tec (can t c).recc) ∧
      (canDest s c (recOf s f 255) = none → (can t c).rxCnt = (can s c).rxCnt ∧ (can t c).hpb = (can s c).hpb) ∧
      (∀ i, canDest s c (recOf s f 255) = some (0, i) → (can t c).hpb = (can s c).hpb ∧
        (canListens s c = true → canAuto s c = false → ringLive s (24 + c.val) = true →
          (ring s (24 + c.val)).overflow = false → (ring s (24 + c.val)).waiting = [] →
          ringFill (ring s (24 + c.val)) < ringDepth s (24 + c.val) →
          (ring t (24 + c.val)).head = (ring s (24 + c.val)).head + 1 ∧ (can t c).rxCnt = (can s c).rxCnt + 1) ∧
        (canListens s c = true → canAuto s c = false → ringLive s (24 + c.val) = false → (can t c).rxCnt = (can s c).rxCnt)) ∧
      (∀ (h : Fin 4) (i : Nat), canDest s c (recOf s f 255) = some (h.val + 1, i) → (can t c).rxCnt = (can s c).rxCnt + 1 ∧
        hpb t c h = (if (hpb s c h).full = false then { hpb s c h with primary := some (recOf s f i), full := true }
          else if (hpb s c h).shadow = none then { hpb s c h with shadow := some (recOf s f i) }
          else { hpb s c h with shadow := some (recOf s f i), ovr := min 255 ((hpb s c h).ovr + 1) }) ∧
        ((hpb s c h).full = false → ∀ x : Win, Noted t x (16 + 4 * c.val + h.val))) ∧
      (∀ j, j ≠ c.val → can t j = can s j) ∧ t.emb.mode = s.emb.mode ∧
      Unchanged [.kln, .emb, .can, .recd, .hst, .mem] s t) ∧
  (∀ (c : Fin 3) (f : CanFrame) (s : State), s.emb.power = .on → s.emb.mode = .ember → canWakes s c f = false →
    exec (.canFrameReceive c f) s = .next s) ∧
  (∀ (c : Fin 3) (k : Fin 6) (d x : Bool) (s : State), canOnBus s c = true → (can s c).state < 2 → canListens s c = false →
    Runs (.canErrorDetected c k d x) s fun t => (can t c).lec = k.val + 1 ∧ (can t c).lecData = d ∧
      (can t c).tec = (if x = true ∧ ¬ (k.val = 2 ∧ (can s c).state = 1) then (can s c).tec + 8 else (can s c).tec) ∧
      (can t c).recc = (if x = true then (can s c).recc else min 255 ((can s c).recc + 1)) ∧
      (can t c).state = canStateOf (can t c).tec (can t c).recc ∧
      ((can t c).state = 2 → (can t c).boff = min 65535 ((can s c).boff + 1) ∧
        (can t c).boffWait = bitN (rd s canCfg [c]) 29 ∧ (can t c).since = s.now) ∧
      (∀ j, j ≠ c.val → can t j = can s j) ∧ t.emb.mode = s.emb.mode ∧
      Unchanged [.kln, .can, .recd, .hst, .mem] s t) ∧
  (∀ (c : Fin 3) (s : State), canOnBus s c = true → (can s c).state = 2 → (can s c).boffWait = false →
    (can s c).since + canBits s c 1408 ≤ s.now →
    Runs (.canBusOffRecovery c) s fun t =>
      can t c = { can s c with state := 0, tec := 0, recc := 0 } ∧
      (∀ j, j ≠ c.val → can t j = can s j) ∧ Unchanged [.kln, .can, .recd, .hst, .mem] s t) ∧
  (∀ (c : Fin 3) (s : State), (can s c).boffWait = true ∨ s.now < (can s c).since + canBits s c 1408 →
    exec (.canBusOffRecovery c) s = .next s) ∧
  (∀ (w : Win) (c : Fin 3) (m : BitVec 4) (s : State), Granted s w (canBase c + 0x50) rRead →
    Runs (.hpbRelease w c m) s fun t => Accepted t w ∧
      (∀ h : Fin 4, hpb t c h = if m.getLsbD h = true ∧ (hpb s c h).full = true then
          (if (hpb s c h).shadow = none then { hpb s c h with full := false }
           else { hpb s c h with primary := (hpb s c h).shadow, shadow := none })
        else hpb s c h) ∧
      (∀ j, j ≠ c.val → can t j = can s j) ∧ (can t c).mbx = (can s c).mbx ∧ Unchanged [.kln, .can, .hst, .mem] s t)) ∧
  ((∀ (w : Win) (c : Fin 3) (q : BitVec 16) (s : State), Granted s w (canBase c) rRead → present s 16 c = true →
    Runs (.canAbort w c q) s fun t => Accepted t w ∧ (can t c).res = .ok ∧
      (∀ m < 16, mbx t c m = if q.getLsbD m = true then
          (if (mbx s c m).st = 1 then { st := 4 } else if (mbx s c m).st = 2 then { mbx s c m with abortReq := true }
           else mbx s c m) else mbx s c m) ∧
      (∀ j, j ≠ c.val → can t j = can s j) ∧ Unchanged [.can, .hst] s t) ∧
  (∀ (w : Win) (c : Fin 3) (s : State), Granted s w (canBase c) rRead → present s 16 c = true →
    (can s c).state = 2 →
    Runs (.canRecover w c) s fun t => Accepted t w ∧
      can t c = { can s c with boffWait := false, since := if (can s c).boffWait = true then s.now else (can s c).since, res := .ok } ∧
      (∀ j, j ≠ c.val → can t j = can s j) ∧ Unchanged [.can, .hst] s t) ∧
  (∀ (w : Win) (c : Fin 3) (s : State), Granted s w (canBase c) rRead → present s 16 c = true → (can s c).state ≠ 2 →
    Runs (.canRecover w c) s fun t => (win t w).lastRes = .refusedMode ∧ can t c = { can s c with res := .refusedMode } ∧
      Unchanged [.can, .hst, .mem] s t) ∧
  (∀ (w : Win) (c : Fin 3) (s : State), Granted s w (canBase c) rRead → present s 16 c = true →
    Runs (.canClrCnt w c) s fun t => Accepted t w ∧ (can t c).res = .ok ∧ (can t c).boff = 0 ∧ (can t c).passive = 0 ∧
      (can t c).rxCnt = 0 ∧ (can t c).txCnt = 0 ∧ (can t c).bad = 0 ∧ (∀ h < 4, hpb t c h = { hpb s c h with ovr := 0 }) ∧
      (can t c).mbx = (can s c).mbx ∧ (∀ j, j ≠ c.val → can t j = can s j) ∧ Unchanged [.can, .hst] s t) ∧
  (∀ (w : Win) (s : State), Granted s w (canBase 2) rRead → present s 16 2 = true → canAuto s 2 = true → (can s 2).tool = true →
    Runs (.abdStart w 2) s fun t => Accepted t w ∧
      can t 2 = { can s 2 with abdState := 1, abdRate := 0, abdCands := [], res := .ok } ∧ Unchanged [.can, .hst] s t) ∧
  (∀ (w : Win) (c : Fin 3) (s : State), Granted s w (canBase c) rRead → canAuto s c = false →
    Runs (.abdStart w c) s fun t => (win t w).lastRes = .notPresent ∧ can t c = { can s c with res := .notPresent } ∧
      Unchanged [.can, .hst, .mem] s t) ∧
  (∀ s : State, awake s = true → canEn s 2 = true → canAuto s 2 = true →
    Runs .toolPlug s fun t => can t 2 = { can s 2 with tool := true, since := s.now, abdState := 1, abdRate := 0, abdCands := [] } ∧
      Unchanged [.can] s t) ∧
  (∀ s : State, canAuto s 2 = false →
    Runs .toolPlug s fun t => can t 2 = { can s 2 with tool := true, since := s.now } ∧ Unchanged [.can] s t) ∧
  (∀ s : State, canAuto s 2 = true →
    Runs .toolUnplug s fun t => can t 2 = { can s 2 with
        tool := false, abdState := 0, abdRate := 0, abdCands := [], joined := false, state := 3
        mbx := (can s 2).mbx.map fun p => (p.1, if p.2.st = 2 then { p.2 with st := 1 } else p.2) } ∧
      Unchanged [.can] s t) ∧
  (∀ (l : List Nat) (x : Nat) (s : State), awake s = true → canEn s 2 = true → canAuto s 2 = true → (can s 2).tool = true → (can s 2).abdState = 1 →
    l.length = 15 → x ∈ l → (∀ y ∈ l, x ≤ y) →
    Runs (.abdMeasureComplete l) s fun t => (can t 2).tmin = min 1048575 x ∧
      (∀ r rest, [1, 2, 3, 4].filter (abdFits x) = r :: rest → (can t 2).abdState = 2 ∧ (can t 2).abdRate = r ∧
        (can t 2).abdCands = r :: rest ∧ rd t canNbt [2] = abdTiming r) ∧
      ([1, 2, 3, 4].filter (abdFits x) = [] → (can t 2).abdState = 1) ∧ Unchanged [.regs, .can] s t) ∧
  (abdFits 160 1 = true ∧ abdFits 164 1 = true ∧ abdFits 165 1 = false ∧ abdFits 320 2 = true))

/-- Transmission: a host's record makes its mailbox empty and TXREQ makes it pending, but neither one of the queue nor one in use; the lowest
arbitration field of the pending ones is sent; a success is DONE with the time of its SOF, a failure ends as ERROR with ONESHOT, as ABORTED on request, else goes on; the
queue ring fills mailboxes 8 to 14 (R410 to R413). -/
def Obligations.CanMailboxesTransmitInOrder : Prop :=
  (∀ (w : Win) (c : Fin 3) (m : Fin 16) (i : Fin 20) (v : Word) (s : State),
    Granted s w (canBase c + 0x2000 + 0x80 * m + 4 * i) rRead → present s 16 c = true →
    mbxBusy s c m = false → mbxBarred s c m = false →
    Runs (.mailboxWrite w c m i v) s fun t => Accepted t w ∧ (mbx t c m).st = 0 ∧
      mbxWord t c m i = (if i.val = 2 ∨ i.val = 3 then mbxWord s c m i else v.toNat) ∧
      (∀ j < 20, j ≠ i.val → mbxWord t c m j = mbxWord s c m j) ∧ (∀ n, n ≠ m.val → mbx t c n = mbx s c n) ∧
      Unchanged [.regs, .can, .hst] s t) ∧
  (∀ (w : Win) (c : Fin 3) (m : Fin 16) (i : Fin 20) (v : Word) (s : State),
    Granted s w (canBase c + 0x2000 + 0x80 * m + 4 * i) rRead → present s 16 c = true →
    mbxBusy s c m = true →
    Runs (.mailboxWrite w c m i v) s fun t => (win t w).lastRes = .busy ∧ Unchanged [.hst, .mem] s t) ∧
  (∀ (w : Win) (c : Fin 3) (q : BitVec 16) (s : State), Granted s w (canBase c + 0x40) rRead → present s 16 c = true →
    (∀ m < 16, q.getLsbD m = true → ¬ (8 ≤ m ∧ m ≤ 14) ∧ mbxBarred s c m = false) →
    Runs (.canTxreq w c q) s fun t => Accepted t w ∧ (can t c).res = .ok ∧
      (∀ m < 16, mbx t c m = if q.getLsbD m = true ∧ mbxBusy s c m = false then { st := 1 } else mbx s c m) ∧
      (∀ j, j ≠ c.val → can t j = can s j) ∧ Unchanged [.can, .hst] s t) ∧
  (∀ (w : Win) (c : Fin 3) (q : BitVec 16) (m : Fin 16) (s : State), Granted s w (canBase c + 0x40) rRead →
    present s 16 c = true → q.getLsbD m = true → 8 ≤ m.val → m.val ≤ 14 →
    Runs (.canTxreq w c q) s fun t => (win t w).lastRes = .busy ∧ (can t c).mbx = (can s c).mbx ∧
      Unchanged [.can, .hst, .mem] s t) ∧
  (∀ (c : Fin 3) (m : Fin 16) (s : State), canSends s c = true → (∀ n < 16, (mbx s c n).st ≠ 2) → (mbx s c m).st = 1 →
    (∀ n < 16, n ≠ m.val → (mbx s c n).st = 1 →
      mbxRank s c m < mbxRank s c n ∨ (mbxRank s c m = mbxRank s c n ∧ m.val < n)) →
    Runs (.canArbitration c) s fun t => mbx t c m = { mbx s c m with st := 2, sof := s.tim.now } ∧ tget [] t.tx (ifCan c) = mbxBytes s c m ∧
      (∀ n, n ≠ m.val → mbx t c n = mbx s c n) ∧ (∀ j, j ≠ c.val → can t j = can s j) ∧ Unchanged [.tx, .can] s t) ∧
  (∀ (c : Fin 3) (s : State), canSends s c = false → exec (.canArbitration c) s = .next s) ∧
  (∀ (c : Fin 3) (m : Nat) (s : State), awake s = true → mbxSending s c = some m →
    Runs (.canTxComplete c true false) s fun t => (mbx t c m).st = 3 ∧ (can t c).tec = (can s c).tec - 1 ∧
      (can t c).txCnt = ((can s c).txCnt + 1) % 65536 ∧ mbxWord t c m 2 = (mbx s c m).sof.toNat % 2 ^ 32 ∧
      mbxWord t c m 3 = (mbx s c m).sof.toNat / 2 ^ 32 ∧ (∀ j, j ≠ c.val → can t j = can s j) ∧ t.emb.mode = s.emb.mode ∧
      Unchanged [.fresh, .regs, .kln, .can, .recd, .hst, .mem] s t) ∧
  (∀ (c : Fin 3) (m : Nat) (l : Bool) (s : State), awake s = true → mbxSending s c = some m →
    Runs (.canTxComplete c false l) s fun t => (mbx t c m).st = (if bitN (mbxWord s c m 1) 0 = true then 5
        else if (mbx s c m).abortReq = true then 4 else 1) ∧
      (∀ n, n ≠ m → mbx t c n = mbx s c n) ∧ (can t c).txCnt = (can s c).txCnt ∧ Unchanged [.can] s t) ∧
  (∀ (c : Fin 3) (d : List Byte) (m : Nat) (s : State), ringFront s (27 + c.val) = some d → canSends s c = true →
    getLe d 20 2 = 80 → bufOk s .data (getLe d 16 4) 80 = true → engGrant s .can c (getLe d 16 4) 80 ≠ .none → 8 ≤ m → m ≤ 14 → mbxBusy s c m = false →
    (∀ n < m, 8 ≤ n → mbxBusy s c n = true) → sameIdBusy s c (getLe (memRead s.mem (getLe d 16 4) 80) 0 4) = false →
    Runs (.canQueueLoad c) s fun t => (mbx t c m).st = 1 ∧ mbxBytes t c m = memRead s.mem (getLe d 16 4) 80 ∧
      (ring t (27 + c.val)).tail = (ring s (27 + c.val)).tail + 1 ∧ (∀ n, n ≠ m → mbx t c n = mbx s c n) ∧
      t.mem = s.mem ∧ Unchanged [.regs, .can, .hst, .mem] s t) ∧
  (∀ (c : Fin 3) (d : List Byte) (s : State), ringFront s (27 + c.val) = some d → canSends s c = true →
    getLe d 20 2 ≠ 80 ∨ bufOk s .data (getLe d 16 4) 80 = false →
    Runs (.canQueueLoad c) s fun t => (can t c).bad = min 65535 ((can s c).bad + 1) ∧ (can t c).mbx = (can s c).mbx ∧
      (ring t (27 + c.val)).tail = (ring s (27 + c.val)).tail + 1 ∧ Unchanged [.can, .hst, .mem] s t)

/-! ### Plant network, module time and scheduled actions (R416 to R437) -/

/-- The switch: a link needs a 1000BASE-T full duplex partner; a frame is counted, its source learned, and stored at the port of its known
destination or at every other port that is up, unless the queue there is full; what is addressed to the module and belongs to no
service is counted as dropped; entries age after 300 s; a forwarded Sync carries its residence time and link delay; the module announces
itself while no master is qualified, and answers delay requests (R416 to R424). -/
def Obligations.PlantNetworkSwitchesFrames : Prop :=
  (∀ (p : Fin 2) (up fd m : Bool) (s : State), awake s = true → bitN (rd s netCfg []) p = true →
    Runs (.netLinkChange p up fd m) s fun t => (netPort t p).link = (up && fd) ∧ (netPort t p).negFail = (up && !fd) ∧
      (netPort t p).mstr = (up && fd && m) ∧
      (netPort t p).ldown = (if (netPort s p).link = true ∧ (up && fd) = false then min 65535 ((netPort s p).ldown + 1)
        else (netPort s p).ldown) ∧
      (∀ q, q ≠ p.val → netPort t q = netPort s q) ∧ t.tim.now = s.tim.now ∧ Unchanged [.tim] s t) ∧
  (∀ (g p : Fin 3) (f : List Byte) (e : Fdb) (s : State), portUp s g = true → 14 ≤ f.length → isRelayFrame f = false →
    ptpLocal f = false → isGroup (frDst f) = false → frDst f ≠ ownMac → frDst f ≠ frSrc f →
    (s.tim.fdb.find? fun e => e.mac.toNat == frDst f && fdbFresh s e) = some e → e.port = p.val → p ≠ g → p.val ≠ 2 →
    portUp s p = true →
    Runs (.switchForward g f) s fun t =>
      netPort t p = (if ((netPort s p).frames.filter fun x => x.q == frQueue f).length < queueDepth (frQueue f) then
          { netPort s p with frames := (netPort s p).frames ++ [{ q := frQueue f, bytes := f, ingress := g.val, at_ := s.tim.now }] }
        else { netPort s p with drop := min 65535 ((netPort s p).drop + 1) }) ∧
      netPort t g = { netPort s g with rx := ((netPort s g).rx + 1) % 65536 } ∧
      (∀ j, j ≠ p.val → j ≠ g.val → netPort t j = netPort s j) ∧ t.tim.now = s.tim.now ∧ Unchanged [.tim] s t) ∧
  (∀ (g : Fin 3) (f : List Byte) (s : State), portUp s g = true → 14 ≤ f.length → isRelayFrame f = false →
    ptpLocal f = false → isGroup (frDst f) = true → frDst f ≠ ownMac → portAnswer s f = none →
    Runs (.switchForward g f) s fun t =>
      (∀ p : Fin 3, p ≠ g → (p.val = 2 → isService f = true) → netPort t p = if portUp s p = false then netPort s p
        else if ((netPort s p).frames.filter fun x => x.q == frQueue f).length < queueDepth (frQueue f) then
          { netPort s p with frames := (netPort s p).frames ++ [{ q := frQueue f, bytes := f, ingress := g.val, at_ := s.tim.now }] }
        else { netPort s p with drop := min 65535 ((netPort s p).drop + 1) }) ∧
      (isGroup (frSrc f) = false → s.tim.fdb.length < 1024 →
        { mac := BitVec.ofNat 64 (frSrc f), port := g.val, at_ := s.now } ∈ t.tim.fdb) ∧ Unchanged [.tim] s t) ∧
  (∀ (g : Fin 3) (f : List Byte) (s : State), portUp s g = true → 14 ≤ f.length → g.val ≠ 2 → isRelayFrame f = false →
    ptpLocal f = false → frDst f = ownMac → isService f = false → portAnswer s f = none →
    Runs (.switchForward g f) s fun t => netPort t 2 = { netPort s 2 with drop := min 65535 ((netPort s 2).drop + 1) } ∧
      Unchanged [.tim] s t) ∧
  (∀ (g : Fin 3) (f : List Byte) (s : State), portUp s g = false → exec (.switchForward g f) s = .next s) ∧
  (∀ (p : Fin 2) (f : QueuedFrame) (s : State), (netPort s p).sending ≤ 125 → (netPort s p).frames = [f] → f.q < 4 → f.ingress < 2 →
    isPtp f.bytes = true → ptpType f.bytes = 0 → ptpTwoStep f.bytes = false →
    tget [] (portTick s p).tx (ifSwitch p) = ptpCorrect f.bytes
      ((s.tim.now - f.at_).toInt + (rdf s netPlat [p] 31 16 : Nat) + (rdf s netPlat [f.ingress] 15 0 : Nat) +
        linkDelay s f.ingress)) ∧
  (∀ (m : Word64) (s : State),
    Runs (.fdbAge m) s fun t => (∀ e, e ∈ t.tim.fdb ↔ e ∈ s.tim.fdb ∧ ¬ (e.mac = m ∧ e.at_ + 300000000 ≤ s.now)) ∧
      t.tim.ports = s.tim.ports ∧ Unchanged [.tim] s t) ∧
  (∀ (w : Win) (s : State), Granted s w 0x110000 rCfg →
    Runs (.flushFdb w) s fun t => Accepted t w ∧ t.tim = { s.tim with fdb := [], netRes := .ok } ∧
      Unchanged [.tim, .hst] s t) ∧
  (∀ (w : Win) (s : State), Granted s w 0x110000 rCfg →
    Runs (.netClrCnt w) s fun t => Accepted t w ∧ t.tim.netRes = .ok ∧
      (∀ p < 3, netPort t p = { netPort s p with rx := 0, drop := 0 }) ∧ t.tim.fdb = s.tim.fdb ∧
      Unchanged [.tim, .hst] s t) ∧
  (∀ s : State, awake s = true → bitN (rd s timCfg []) 31 = false → s.tim.master = none →
    (∀ t0 ∈ s.tim.sentAt, t0 + 1000000 ≤ s.now) →
    Runs .ptpMasterSend s fun t => t.tim = { s.tim with sentAt := some s.now, txSeq := s.tim.txSeq + 1 } ∧
      (∀ p < 2, portUp s p = true →
        tget [] t.tx (ifPtp p) = ptpMsg (rdf s timCfg [] 7 0) 1 0 0x0200 (s.tim.txSeq + 1).toNat 0 (ptpStamp 0) ∧
        tget [] t.tx (ifPtpFollow p) = ptpMsg (rdf s timCfg [] 7 0) 1 8 0 (s.tim.txSeq + 1).toNat 0
          (ptpStamp ((s.tim.now.toNat : Int) + (rdf s netPlat [p] 31 16 : Nat)).toNat) ∧
        tget [] t.tx (ifPtpAnn p) = ptpMsg (rdf s timCfg [] 7 0) 1 11 0 (s.tim.txSeq + 1).toNat 0
          (ptpStamp 0 ++ [0, 0, 0, 128, 248, 0xFE, 0xFF, 0xFF, 128] ++ beB 8 clockId ++ [0, 0, 0xA0])) ∧
      Unchanged [.tx, .tim] s t) ∧
  (∀ s : State, s.tim.master.isSome = true → exec .ptpMasterSend s = .next s) ∧
  (∀ (p : Fin 2) (q : BitVec 16) (b : BitVec 80) (rx : Nanos) (s : State), portUp s p = true →
    Runs (.pdelayResponse p q b rx) s fun t =>
      tget [] t.tx (ifPtp p) = ptpMsg (rdf s timCfg [] 7 0) (p + 1) 3 0x0200 q.toNat 127
        (ptpStamp (rx - (rdf s netPlat [p] 15 0 : Nat)).toNat ++ beB 10 b.toNat) ∧
      tget [] t.tx (ifPtpFollow p) = ptpMsg (rdf s timCfg [] 7 0) (p + 1) 10 0 q.toNat 127
        (ptpStamp ((s.tim.now.toNat : Int) + (rdf s netPlat [p] 31 16 : Nat)).toNat ++ beB 10 b.toNat) ∧
      Unchanged [.tx] s t)

/-- Module time: the second Announce of a clock qualifies it and the best one is selected, lost after three intervals; a Sync leaves time as it is and slews, orders a step up to STEP_MAX, or refuses a larger one,
which a window with the time right may accept; ten pairs of the cross-check that stand apart suspect asymmetry; a step moves time at once, counts an epoch when it goes back, and takes the
scheduled entries it overtakes; a jump of the link delay holds the servo for DLY_SETTLE (R421, R423 to R430, R435; the thresholds of
the standard are those of notes/assumptions/32.md). -/
def Obligations.ModuleTimeFollowsItsMaster : Prop :=
  (∀ (p : Fin 2) (a : Announce) (s : State), portUp s p = true → a.domain.toNat = rdf s timCfg [] 7 0 →
    a.identity.toNat ≠ clockId →
    Runs (.ptpAnnounce p a) s fun t =>
      (s.tim.foreign = [] → t.tim.foreign = [{ port := p.val, ann := a, seen := s.now }] ∧ t.tim.master = none) ∧
      (∀ m : Master, s.tim.foreign = [m] → m.port = p.val → m.ann.identity = a.identity →
        m.qual = true ∨ s.now ≤ m.seen + 4000000 →
        bitN (rd s timCfg []) 31 = true ∨ lexLt (annRank a p) ownRank = true →
        t.tim.master = some { port := p.val, ann := a, seen := s.now, qual := true } ∧ t.tim.other = none ∧ t.tim.port = p.val) ∧
      (∀ m n : Master, s.tim.foreign = [m, n] → m.port = 1 - p.val → n.port = p.val → n.ann.identity = a.identity →
        m.qual = true → n.qual = true → bitN (rd s timCfg []) 31 = true →
        (lexLt (annRank m.ann m.port) (annRank a p) = true → t.tim.master = some m ∧
          t.tim.other = some { port := p.val, ann := a, seen := s.now, qual := true }) ∧
        (lexLt (annRank a p) (annRank m.ann m.port) = true → t.tim.other = some m ∧
          t.tim.master = some { port := p.val, ann := a, seen := s.now, qual := true })) ∧
      t.tim.now = s.tim.now ∧ t.tim.sched = s.tim.sched ∧ Unchanged [.tim, .hst, .mem] s t) ∧
  (∀ (p : Fin 2) (a : Announce) (s : State), a.domain.toNat ≠ rdf s timCfg [] 7 0 ∨ portUp s p = false →
    exec (.ptpAnnounce p a) s = .next s) ∧
  (∀ (m : Master) (s : State), awake s = true → s.tim.foreign = [m] → m.seen + 3000000 ≤ s.now →
    Runs .announceTimeout s fun t => t.tim.foreign = [] ∧ t.tim.master = none ∧
      t.tim.state = (if s.tim.state = 1 ∨ s.tim.state = 2 then 3 else s.tim.state) ∧ t.tim.now = s.tim.now ∧
      Unchanged [.tim, .hst, .mem] s t) ∧
  (∀ (m o : Master) (s : State), awake s = true → s.tim.foreign = [m, o] → m.seen + 3000000 ≤ s.now →
    s.now < o.seen + 3000000 → o.qual = true → o.port < 2 → bitN (rd s timCfg []) 31 = true →
    Runs .announceTimeout s fun t => t.tim.foreign = [o] ∧ t.tim.master = some o ∧ t.tim.other = none ∧ t.tim.port = o.port ∧
      (s.tim.state ≠ 3 → t.tim.state = s.tim.state) ∧ Unchanged [.tim, .hst, .mem] s t) ∧
  (∀ (p : Fin 2) (id : Word64) (rx origin : Nanos) (corr x : Int) (m : Master) (s : State), portUp s p = true →
    s.tim.master = some m → m.port = p.val → m.ann.identity = id → s.tim.syncBoth = false → s.tim.dlyHold = none →
    rx - (rdf s netPlat [p] 15 0 : Nat) - origin - rdiv corr 65536 - linkDelay s p = x →
    Runs (.ptpSync p id rx origin corr) s fun t => t.tim.now = s.tim.now ∧ t.tim.epc = s.tim.epc ∧
      t.tim.sched = s.tim.sched ∧ (s.tim.state = 0 → t.tim.stepNext = some (-x, none)) ∧
      (s.tim.state ≠ 0 → x.natAbs ≤ 10000 → t.tim.stepNext = s.tim.stepNext ∧ t.tim.refused = false ∧ t.tim.pend = 0 ∧
        -100000 ≤ t.tim.rate ∧ t.tim.rate ≤ 100000 ∧
        (s.tim.state = 1 → x.natAbs ≤ 1000 → 9 ≤ s.tim.lockRun → t.tim.state = 2) ∧
        (s.tim.state = 1 → 1000 < x.natAbs → t.tim.state = 1 ∧ t.tim.lockRun = 0)) ∧
      (s.tim.state ≠ 0 → 10000 < x.natAbs → x.natAbs ≤ stepMax s → t.tim.stepNext = some (-x, none)) ∧
      (s.tim.state ≠ 0 → 10000 < x.natAbs → stepMax s < x.natAbs →
        t.tim.refused = true ∧ t.tim.pend = -x ∧ t.tim.state = 3 ∧ t.tim.stepNext = s.tim.stepNext) ∧
      Unchanged [.fresh, .tim, .kln, .recd, .hst, .mem] s t) ∧
  (∀ (p : Fin 2) (id : Word64) (rx origin : Nanos) (corr : Int) (s : State), s.tim.master = none → s.tim.syncBoth = false →
    exec (.ptpSync p id rx origin corr) s = .next s) ∧
  (∀ (p : Fin 2) (id : Word64) (rx origin : Nanos) (corr x : Int) (m o : Master) (s : State), portUp s p = true →
    s.tim.master = some m → m.port ≠ p.val → s.tim.other = some o → o.port = p.val → o.ann.identity = id →
    s.tim.syncBoth = true → (netPort s (1 - p.val)).xNew = true → satS 32 (syncOffset s p rx origin corr) = x →
    Runs (.ptpSync p id rx origin corr) s fun t =>
      (rdf s timXchk [] 15 0 < (x - (netPort s (1 - p.val)).xofs).natAbs →
        t.tim.xRun = min 10 (s.tim.xRun + 1) ∧ (9 ≤ s.tim.xRun → t.tim.suspect = true)) ∧
      ((x - (netPort s (1 - p.val)).xofs).natAbs ≤ rdf s timXchk [] 15 0 →
        t.tim.xRun = 0 ∧ (9 ≤ s.tim.xOkRun → t.tim.suspect = false)) ∧
      t.tim.now = s.tim.now ∧ t.tim.rate = s.tim.rate ∧ t.tim.stepNext = s.tim.stepNext ∧
      Unchanged [.tim, .kln, .recd, .hst, .mem] s t) ∧
  (∀ (p : Fin 2) (t1 t2 t3 t4 : Nanos) (corr old mean : Int) (l : List Int) (s : State), portUp s p = true →
    (∀ t0 ∈ (netPort s p).lastPd, t0 + 1000000 ≤ s.now) → (netPort s p).dly = some old →
    (pdelayOf s p t1 t2 t3 t4 corr :: (netPort s p).dlys).take 8 = l → rdiv (sumI l) l.length = mean →
    Runs (.pdelayMeasure p t1 t2 t3 t4 corr) s fun t => (netPort t p).dlys = l ∧
      (netPort t p).dly = some mean ∧ (netPort t p).lastPd = some s.now ∧
      tget [] t.tx (ifPtp p) = ptpMsg (rdf s timCfg [] 7 0) (p + 1) 2 0 ((netPort s p).pdSeq + 1).toNat 0
        (ptpStamp 0 ++ beB 10 0) ∧
      (rdf s timDly [] 31 16 < (mean - old).natAbs → s.tim.port = p.val →
        t.tim.dlyHold = some s.now ∧ (s.tim.state = 2 → t.tim.state = 3)) ∧
      ((mean - old).natAbs ≤ rdf s timDly [] 31 16 → t.tim.dlyHold = s.tim.dlyHold ∧ t.tim.state = s.tim.state) ∧
      t.tim.now = s.tim.now ∧ Unchanged [.tx, .tim, .kln, .recd, .hst, .mem] s t) ∧
  (∀ (t0 : Nat) (s : State), awake s = true → s.tim.dlyHold = some t0 → t0 + 1000000 * rdf s timDly [] 15 0 ≤ s.now →
    Runs .dlyHoldEnd s fun t => t.tim.dlyHold = none ∧ t.tim.now = s.tim.now ∧
      (s.tim.state = 3 → s.tim.refused = false → s.tim.master.isSome = true → t.tim.state = 1) ∧
      Unchanged [.tim, .hst, .mem] s t) ∧
  (∀ (t0 : Nat) (s : State), s.tim.dlyHold = some t0 → s.now < t0 + 1000000 * rdf s timDly [] 15 0 →
    exec .dlyHoldEnd s = .next s) ∧
  (∀ (w : Win) (s : State), Granted s w 0x12001C rTime → s.tim.refused = true → 0 ≤ s.tim.pend →
    Runs (.timAcceptStep w true) s fun t => Accepted t w ∧
      t.tim = { s.tim with stepNext := some (s.tim.pend, some w), res := .ok } ∧ Unchanged [.tim, .hst] s t) ∧
  (∀ (w : Win) (s : State), Granted s w 0x12001C rTime → s.tim.refused = false →
    Runs (.timAcceptStep w true) s fun t => (win t w).lastRes = .notPresent ∧ t.tim = { s.tim with res := .notPresent } ∧
      Unchanged [.tim, .hst, .mem] s t) ∧
  (∀ (d : Int) (w : Option Win) (s : State), awake s = true → s.tim.stepNext = some (d, w) →
    Runs .timeStep s fun t => t.tim.now = BitVec.ofInt 64 ((s.tim.now.toNat : Int) + d) ∧
      t.tim.epc = (if d < 0 then s.tim.epc + 1 else s.tim.epc) ∧ t.tim.refused = false ∧ t.tim.pend = 0 ∧
      t.tim.state = 1 ∧ t.tim.stepNext = none ∧ (d < 0 → t.tim.sched = s.tim.sched) ∧
      (0 ≤ d → s.emb.mode ≠ .drowse → ∀ (e : Nat) (x : Sched), slot s e = some x → timeDiff 48 t x.time ≤ 0 →
        slot t e = none) ∧
      (0 ≤ d → ∀ (e : Nat) (x : Sched), slot s e = some x → 0 < timeDiff 48 t x.time → slot t e = some x) ∧
      t.emb.mode = s.emb.mode ∧ Unchanged [.regs, .kln, .emb, .tim, .recd, .hst, .mem] s t)

/-- Scheduled actions: ADD puts the staged entry into the lowest free slot, carries out at once one that is late within LATE_WIN, and
refuses an older one as EXPIRED, a further one as FULL, and a setpoint for a converter that is not fitted; a due entry is carried out only with its writer's right; CANCEL and
CANCEL_ALL take a window's own entries (R431 to R434, R436). -/
def Obligations.ScheduledActionsRunByTime : Prop :=
  (∀ (w : Win) (e : Nat) (s : State), Granted s w 0x120100 rRead → 1 ≤ (staged s w).type → (staged s w).type ≤ 3 →
    schedRight s (staged s w) = true → ((staged s w).type = 1 → (staged s w).tgt < 4 ∧ present s 10 (staged s w).tgt = true) →
    timeDiff 64 s (staged s w).time ≤ 2 ^ 47 → freeSlot s = some e →
    Runs (.schedAdd w) s fun t =>
      (0 < timeDiff 64 s (staged s w).time → Accepted t w ∧ (win t w).sRes = .ok ∧ (win t w).sEntry = e ∧
        slot t e = some (staged s w) ∧ (∀ j, j ≠ e → slot t j = slot s j) ∧ Unchanged [.tim, .hst] s t) ∧
      (timeDiff 64 s (staged s w).time ≤ 0 → -(timeDiff 64 s (staged s w).time) ≤ lateWin s → s.emb.mode ≠ .drowse →
        Accepted t w ∧ (win t w).sRes = .lateDone ∧ t.tim.sched = s.tim.sched ∧
        ((staged s w).type = 2 →
          { target := modeOf (staged s w).val.toNat, src := .sched (staged s w).win } ∈ t.emb.reqs)) ∧
      (timeDiff 64 s (staged s w).time ≤ 0 → lateWin s < -(timeDiff 64 s (staged s w).time) →
        (win t w).lastRes = .expired ∧ (win t w).sRes = .expired ∧ t.tim.sched = s.tim.sched ∧
        Unchanged [.hst, .mem] s t)) ∧
  (∀ (w : Win) (s : State), Granted s w 0x120100 rRead → 1 ≤ (staged s w).type → (staged s w).type ≤ 3 →
    schedRight s (staged s w) = true → ((staged s w).type = 1 → (staged s w).tgt < 4 ∧ present s 10 (staged s w).tgt = true) →
    timeDiff 64 s (staged s w).time ≤ 2 ^ 47 → freeSlot s = none →
    Runs (.schedAdd w) s fun t => (win t w).lastRes = .full ∧ t.tim = s.tim ∧ Unchanged [.hst, .mem] s t) ∧
  (∀ (w : Win) (s : State), Granted s w 0x120100 rRead → (staged s w).type = 1 → (staged s w).tgt < 4 →
    present s 10 (staged s w).tgt = false → schedRight s (staged s w) = true →
    Runs (.schedAdd w) s fun t => (win t w).lastRes = .notPresent ∧ t.tim = s.tim ∧ Unchanged [.hst, .mem] s t) ∧
  (∀ (w : Win) (s : State), Granted s w 0x120100 rRead → 1 ≤ (staged s w).type → (staged s w).type ≤ 3 →
    schedRight s (staged s w) = false →
    Runs (.schedAdd w) s fun t => (win t w).lastRes = .refusedRights ∧ t.tim = s.tim ∧ Unchanged [.hst, .mem] s t) ∧
  (∀ (e : Nat) (x : Sched) (s : State), awake s = true → s.emb.mode ≠ .drowse → firstSched s = some (e, x) →
    Runs .schedExecute s fun t => slot t e = none ∧ (∀ j, j ≠ e → slot t j = slot s j) ∧
      (schedRight s x = false → t.regs = s.regs ∧ t.emb = s.emb ∧ t.kln = s.kln) ∧
      (schedRight s x = true → x.type = 1 → present s 10 x.tgt = true → ctlDsp.check s [x.tgt] x.val.toNat = .ok →
        rd t ctlDsp [x.tgt] = x.val.toNat) ∧
      (schedRight s x = true → x.type = 2 → { target := modeOf x.val.toNat, src := .sched x.win } ∈ t.emb.reqs) ∧
      (schedRight s x = true → x.type = 3 → ∀ k ∈ sinksOf s (.sched (Fin.ofNat 8 x.tgt)), k ∈ t.kln.evPend) ∧
      t.emb.mode = s.emb.mode ∧ t.tim.now = s.tim.now ∧ Unchanged [.regs, .kln, .emb, .tim, .hst, .mem] s t) ∧
  (∀ s : State, s.emb.mode = .drowse →
    Runs .schedExecute s fun t => t.tim = s.tim ∧ Unchanged [.emb] s t) ∧
  (∀ s : State, firstSched s = none → exec .schedExecute s = .next s) ∧
  (∀ (w : Win) (e : Byte) (x : Sched) (s : State), Granted s w 0x120100 rRead → slot s e.toNat = some x →
    Runs (.schedCancel w e) s fun t =>
      (if x.win = w ∨ hasRight s w rCfg = true then Accepted t w ∧ slot t e.toNat = none
       else (win t w).lastRes = .refusedRights ∧ slot t e.toNat = some x) ∧
      (∀ j, j ≠ e.toNat → slot t j = slot s j) ∧ Unchanged [.tim, .hst, .mem] s t) ∧
  (∀ (w : Win) (e : Byte) (s : State), Granted s w 0x120100 rRead → slot s e.toNat = none →
    Runs (.schedCancel w e) s fun t => (win t w).lastRes = .notPresent ∧ t.tim = s.tim ∧ Unchanged [.hst, .mem] s t) ∧
  (∀ (w : Win) (s : State), Granted s w 0x120100 rRead → hasRight s w rCfg = true →
    Runs (.schedCancelAll w) s fun t => Accepted t w ∧ (∀ e, slot t e = none) ∧ Unchanged [.tim, .hst] s t) ∧
  (∀ (w : Win) (e : Nat) (x : Sched) (s : State), Granted s w 0x120100 rRead → hasRight s w rCfg = false →
    slot s e = some x → x.win ≠ w →
    Runs (.schedCancelAll w) s fun t => (win t w).lastRes = .refusedRights ∧ t.tim = s.tim ∧ Unchanged [.hst, .mem] s t)

/-! ### The event recorder (R461 to R478) -/

/-- A flush takes the records staged when it begins, closes the unused half of a pair, and on completion puts them into the
store in SEQ order: a record takes the lowest free slot, below FAULT only while such records hold less than three quarters
of the store; else the slot of the oldest record of its severity or a lower one, which counts in ARCHMISS when it was
not archived; else it is dropped and counted (R463, R466, R469, R471). Records go to the archive in blocks (R475). -/
def Obligations.RecorderFlushesPlacesAndArchives : Prop :=
  (∀ s : State, awake s = true → s.shadow = [] → s.recd.flushing = none →
    1000 * rdf s recCfg [] 15 0 + s.recd.lastFlush ≤ s.now ∨ 4096 ≤ stagingFill s.recd ∨ s.recd.lastFaultAt.isSome = true →
    Runs .recorderFlush s fun t => t.recd.flushing = some s.recd.staging.length ∧ t.recd.staging = s.recd.staging ∧
      t.recd.lastFlush = s.now ∧ t.recd.store = s.recd.store ∧
      t.recd.slot = (if s.recd.slot % 2 = 1 then (s.recd.slot + 1) % 8192 else s.recd.slot) ∧
      (s.recd.slot % 2 = 0 → Unchanged [.kln, .recd] s t) ∧ Unchanged [.kln, .recd, .hst, .mem] s t) ∧
  (∀ (n : Nat) (s : State), s.recd.flushing = some n → exec .recorderFlush s = .next s) ∧
  (∀ (n : Nat) (s : State), awake s = true ∨ s.emb.power = .flushing → s.recd.flushing = some n →
    Runs .recorderFlushComplete s fun t => t.recd.staging = s.recd.staging.drop n ∧ t.recd.flushing = none ∧
      t.recd.seqKept = s.recd.seqNext ∧ t.recd.seqNext = s.recd.seqNext ∧
      (s.recd.res = .busy → s.recd.flushCmd = true → s.recd.flushAgain = false → t.recd.res = .ok) ∧
      t.recd.audit = s.recd.audit ∧ t.recd.archive = s.recd.archive ∧ Unchanged [.kln, .recd, .hst] s t) ∧
  (∀ (x : Rec) (rest : List Rec) (s : State), awake s = true → s.recd.flushing = some 1 → s.recd.staging = x :: rest →
    firstGap 0 s.recd.store < s.recd.storeSlots → tget none s.recd.store (firstGap 0 s.recd.store) = none →
    sevFault ≤ x.sev ∨ 4 * ((storeRecs s.recd).filter fun p => decide (p.2.sev < sevFault)).length < 3 * s.recd.storeSlots →
    Runs .recorderFlushComplete s fun t => tget none t.recd.store (firstGap 0 s.recd.store) = some x ∧
      (∀ j, j ≠ firstGap 0 s.recd.store → tget none t.recd.store j = tget none s.recd.store j) ∧
      t.recd.unarchived = s.recd.unarchived ++ [x.seq] ∧ t.recd.drops = s.recd.drops ∧
      t.recd.archMiss = s.recd.archMiss ∧ Unchanged [.kln, .recd, .hst] s t) ∧
  (∀ (x o : Rec) (n : Nat) (rest : List Rec) (s : State), awake s = true → s.recd.flushing = some 1 → s.recd.staging = x :: rest →
    s.recd.storeSlots ≤ firstGap 0 s.recd.store ∨ (x.sev < sevFault ∧
      3 * s.recd.storeSlots ≤ 4 * ((storeRecs s.recd).filter fun p => decide (p.2.sev < sevFault)).length) →
    oldestSlot s.recd x.sev = some n → tget none s.recd.store n = some o →
    Runs .recorderFlushComplete s fun t => tget none t.recd.store n = some x ∧
      (∀ j, j ≠ n → tget none t.recd.store j = tget none s.recd.store j) ∧ t.recd.drops = s.recd.drops ∧
      t.recd.archMiss = (if o.seq ∈ s.recd.unarchived then min 0xFFFFFFFF (s.recd.archMiss + 1) else s.recd.archMiss) ∧
      Unchanged [.kln, .recd, .hst] s t) ∧
  (∀ (x : Rec) (rest : List Rec) (s : State), awake s = true → s.recd.flushing = some 1 → s.recd.staging = x :: rest →
    s.recd.storeSlots ≤ firstGap 0 s.recd.store ∨ (x.sev < sevFault ∧
      3 * s.recd.storeSlots ≤ 4 * ((storeRecs s.recd).filter fun p => decide (p.2.sev < sevFault)).length) →
    (∀ p ∈ storeRecs s.recd, x.sev < p.2.sev) →
    Runs .recorderFlushComplete s fun t => t.recd.store = s.recd.store ∧ t.recd.unarchived = s.recd.unarchived ∧
      tget 0 t.recd.drops x.sev = min 0xFFFFFFFF (tget 0 s.recd.drops x.sev + 1) ∧ Unchanged [.kln, .recd, .hst] s t) ∧
  (∀ s : State, s.recd.flushing = none → exec .recorderFlushComplete s = .next s) ∧
  (∀ (w : Win) (s : State), Granted s w 0x140000 rCfg → s.shadow = [] →
    Runs (.recFlush w) s fun t => Accepted t w ∧ t.recd.res = .busy ∧ t.recd.staging = s.recd.staging ∧
      (s.recd.flushing = none → t.recd.flushing = some s.recd.staging.length ∧ t.recd.flushCmd = true) ∧
      (∀ n ∈ s.recd.flushing, t.recd.flushing = some n ∧ t.recd.flushAgain = true) ∧
      t.recd.store = s.recd.store ∧ Unchanged [.kln, .recd, .hst, .mem] s t) ∧
  (∀ (w : Win) (s : State), Granted s w 0x140000 rCfg →
    Runs (.recClrCnt w) s fun t => Accepted t w ∧
      t.recd = { s.recd with drops := [], sdrop := 0, archMiss := 0, res := .ok } ∧ Unchanged [.kln, .recd, .hst] s t) ∧
  (∀ s : State, awake s = true → 64 ≤ s.recd.unarchived.length → s.recd.archive.length < 245760 →
    Runs .archiveCopy s fun t => (∃ b, t.recd.archive = s.recd.archive ++ [b] ∧
        ∀ x ∈ b, x.seq ∈ s.recd.unarchived.take 64 ∧ ∃ n, (n, some x) ∈ s.recd.store) ∧
      (∀ q, q ∈ t.recd.unarchived ↔ q ∈ s.recd.unarchived ∧ q ∉ s.recd.unarchived.take 64) ∧
      t.recd.store = s.recd.store ∧ Unchanged [.kln, .recd] s t) ∧
  (∀ s : State, s.recd.unarchived = [] → exec .archiveCopy s = .next s)

/-- The audit partition, the readers and the live copy: AUD_ARCHIVE seals every record up to the last one present into an image
and frees its slots, with a record of its own; AUD_RELEASE drops the oldest image once it is recorded; a cursor write
fetches the record of the lowest SEQ at or above it over every tier, and reading it to its end moves on; the live
copy goes on in SEQ order while its ring has room (R472 to R474, R476, R478). -/
def Obligations.AuditImagesReadersAndLiveCopy : Prop :=
  (∀ (w : Win) (x : Rec) (s : State), Granted s w 0x140000 rAudit → s.recd.audit.getLast? = some x → s.recd.archiving = none →
    s.recd.images.length < 64 →
    Runs (.audArchive w) s fun t => Accepted t w ∧ t.recd = { s.recd with archiving := some (w, x.seq), res := .busy } ∧
      Unchanged [.kln, .recd, .hst] s t) ∧
  (∀ (w : Win) (s : State), Granted s w 0x140000 rAudit → s.recd.audit = [] →
    Runs (.audArchive w) s fun t => (win t w).lastRes = .notPresent ∧ t.recd = { s.recd with res := .notPresent } ∧
      Unchanged [.kln, .recd, .hst, .mem] s t) ∧
  (∀ (w : Win) (last : Word) (s : State), awake s = true → s.recd.archiving = some (w, last) →
    (s.recd.audit.filter fun x => seqLt last x.seq).length + 64 < s.recd.auditSlots →
    Runs .audArchiveComplete s fun t =>
      t.recd.images = s.recd.images ++ [s.recd.audit.filter fun x => !seqLt last x.seq] ∧
      (∃ r : Rec, t.recd.audit = (s.recd.audit.filter fun x => seqLt last x.seq) ++ [r] ∧ r.name = .auditArchived ∧
        r.sev = 7 ∧ r.seq = s.recd.seqNext) ∧ t.recd.seqNext = s.recd.seqNext + 1 ∧
      t.recd.archiving = none ∧ t.recd.auditFull = false ∧ t.recd.res = .ok ∧ t.recd.store = s.recd.store ∧
      Unchanged [.kln, .recd] s t) ∧
  (∀ (w : Win) (image : List Rec) (rest : List (List Rec)) (s : State), Granted s w 0x140000 rAudit →
    s.recd.images = image :: rest → s.recd.archiving = none → auditFullNow s = false →
    Runs (.audRelease w) s fun t => Accepted t w ∧ t.recd.images = rest ∧ t.recd.res = .ok ∧
      (∃ r : Rec, t.recd.audit = s.recd.audit ++ [r] ∧ r.name = .auditReleased ∧ r.sev = 7 ∧ r.seq = s.recd.seqNext) ∧
      t.recd.store = s.recd.store ∧ Unchanged [.kln, .recd, .hst] s t) ∧
  (∀ (w : Win) (image : List Rec) (rest : List (List Rec)) (s : State), Granted s w 0x140000 rAudit →
    s.recd.images = image :: rest → s.recd.archiving = none → auditFullNow s = true →
    Runs (.audRelease w) s fun t => (win t w).lastRes = .full ∧
      t.recd = { s.recd with auditFull := true, res := .full } ∧ Unchanged [.kln, .recd, .hst, .mem] s t) ∧
  (∀ (w : Win) (q : Word) (s : State), Granted s w 0x140100 rRead →
    Runs (.readerCursorWrite w q) s fun t => Accepted t w ∧ cursor t w = q ∧ (win t w).reader = { fetching := true } ∧
      (∀ v : Win, v ≠ w → cursor t v = cursor s v ∧ (win t v).reader = (win s v).reader) ∧
      Unchanged [.regs, .hst] s t) ∧
  (∀ (w : Win) (p : Nat × Rec) (d : Nat) (s : State), awake s = true → (win s w).reader.fetching = true →
    p ∈ tiers s.recd → seqAbove (cursor s w) p.2.seq = some d →
    Runs (.readerFetchComplete w) s fun t =>
      (∃ q ∈ tiers s.recd, ∃ e, seqAbove (cursor s w) q.2.seq = some e ∧
        (∀ r ∈ tiers s.recd, ∀ f ∈ seqAbove (cursor s w) r.2.seq, e ≤ f) ∧
        (win t w).reader = { ready := some q.2, tier := q.1, skip := min 0xFFFF ((win s w).reader.skip + e) }) ∧
      (∀ v : Win, v ≠ w → win t v = win s v) ∧ Unchanged [.hst] s t) ∧
  (∀ (w : Win) (s : State), awake s = true → (win s w).reader.fetching = true →
    (∀ p ∈ tiers s.recd, seqAbove (cursor s w) p.2.seq = none) →
    Runs (.readerFetchComplete w) s fun t => (win t w).reader = { (win s w).reader with wait := true } ∧
      Unchanged [.hst] s t) ∧
  (∀ (w : Win) (x : Rec) (s : State), reachable s w = true → accessCode s w 0x14017C false = .ok →
    (win s w).reader.ready = some x →
    Runs (.readerAdvance w) s fun t => cursor t w = x.seq + 1 ∧
      (win t w).reader = { skip := (win s w).reader.skip, fetching := true } ∧
      (∀ v : Win, v ≠ w → cursor t v = cursor s v) ∧ Unchanged [.regs, .hst] s t) ∧
  (∀ s : State, bitN (rd s recCfg []) 31 = false → exec .liveCopy s = .next s) ∧
  (∀ s : State, ringDepth s 41 ≤ ringFill (ring s 41) → exec .liveCopy s = .next s) ∧
  (∀ (k : Nat) (x : Rec) (p : Partition) (s : State), awake s = true → bitN (rd s recCfg []) 31 = true →
    ringFill (ring s 41) < ringDepth s 41 → (ring s 41).overflow = false → (ring s 41).waiting = [] →
    fetchRec s.recd.liveCur (tiers s.recd) = some (k, x) → partOf s .recRead = some p →
    engGrant s .recorder 0 (p.base + 64 * ((ring s 41).head.toNat % max 1 (p.len / 64))) x.bytes.length = .readWrite →
    Runs .liveCopy s fun t => t.recd = { s.recd with liveCur := x.seq + 1 } ∧
      (ring t 41).head = (ring s 41).head + 1 ∧ (ring t 41).tail = (ring s 41).tail ∧
      t.mem = memWrite (memWrite s.mem (p.base + 64 * ((ring s 41).head.toNat % max 1 (p.len / 64))) x.bytes)
        (ringEntry s 41 (ring s 41).head)
        (Desc.bytes { type := 1, buf := p.base + 64 * ((ring s 41).head.toNat % max 1 (p.len / 64)), len := 64,
                      flags := if x.seq = s.recd.liveCur then 0 else 32 }
          (ring s 41).seq.toNat s.tim.now.toNat (ring s 41).gap) ∧
      Unchanged [.kln, .recd, .hst, .mem] s t)

/-- A record that finds no free slot is discarded without a SEQ and counted in REC_SDROP; the next record staged carries
GAP_BEFORE, and takes the next SEQ (R467). The recorder runs, the record is at MIN_SEV or above, and no occurrence
takes it in under R468. -/
def Obligations.DroppedRecordsLeaveAGapMark : Prop :=
  (∀ (n : RecName) (src : Byte) (sev : Nat) (b : List Byte) (s : State), awake s = true → rdf s recCfg [] 26 24 ≤ sev →
    8192 ≤ stagingFill s.recd → sev ≤ 2 → coalesce s.lgc.time src n s.recd.staging = none →
    stage s n src sev b =
      { s with recd := { s.recd with sdrop := min 0xFFFFFFFF (s.recd.sdrop + 1), gapBefore := true } }) ∧
  (∀ (n : RecName) (src : Byte) (sev : Nat) (b : List Byte) (s : State), awake s = true → rdf s recCfg [] 26 24 ≤ sev →
    8192 ≤ stagingFill s.recd → 2 < sev →
    stage s n src sev b =
      { s with recd := { s.recd with sdrop := min 0xFFFFFFFF (s.recd.sdrop + 1), gapBefore := true } }) ∧
  (∀ (n : RecName) (src : Byte) (sev : Nat) (b : List Byte) (s : State), awake s = true → rdf s recCfg [] 26 24 ≤ sev →
    stagingFill s.recd < 8192 → 2 < sev ∨ stagingFill s.recd < 6144 ∨ coalesce s.lgc.time src n s.recd.staging = none →
    ∃ r : Rec, (stage s n src sev b).recd.staging = s.recd.staging ++ [r] ∧ r.gapBefore = s.recd.gapBefore ∧
      r.seq = s.recd.seqNext ∧ r.name = n ∧ r.sev = sev ∧ (stage s n src sev b).recd.gapBefore = false ∧
      (stage s n src sev b).recd.seqNext = s.recd.seqNext + 1 ∧ (stage s n src sev b).recd.sdrop = s.recd.sdrop)

/-! ### Paired modules and the lease (R480 to R494) -/

/-- An accepted pair frame brings the link up and its term is adopted where it is higher; a RENEW is answered with a GRANT
while the lease is not held here, else with a STATUS; a GRANT that echoes the last RENEW or the claim loads the
counter with 40 ms, any other is ignored; a frame that shows HOLDS and no lower term takes the lease away; frames of
bad CRC or foreign PAIR_ID are counted, and one of equal STRAP is a conflict (R480 to R484, R486, R487, R490, R494). -/
def Obligations.PairFramesMoveTheLease : Prop :=
  (∀ (bs : List Byte) (s : State), PairOk s bs →
    Runs (.pairFrameReceive bs) s fun t => t.par.linkUp = true ∧ t.par.lastRx = some s.now ∧
      t.par.rxSeq = some (getLe bs 2 2) ∧ t.par.pReady = bitN (byteAt bs 1) 1 ∧ t.par.pHolds = bitN (byteAt bs 1) 0 ∧
      t.par.claimWit = false ∧
      t.par.term = (if s.par.term.toNat < getLe bs 4 4 then wd (getLe bs 4 4) else s.par.term) ∧
      t.par.crc = s.par.crc ∧ t.par.foreign = s.par.foreign ∧ t.par.conflict = s.par.conflict ∧
      Unchanged [.regs, .shadow, .mem, .tx, .emb, .imp, .ctl, .hrp, .can, .hst, .kln, .recd, .par] s t) ∧
  (∀ (bs : List Byte) (s : State), PairOk s bs → pairSends s = true → byteAt bs 0 = 1 → bitN (byteAt bs 1) 0 = false →
    s.par.ctr = 0 → s.par.conflict = false →
    Runs (.pairFrameReceive bs) s fun t => PairSent s t 2 (wd (getLe bs 4 4)) (getLe bs 2 2) ∧ t.par.ctr = 0 ∧
      Unchanged [.tx, .par] s t) ∧
  (∀ (bs : List Byte) (s : State), PairOk s bs → pairSends s = true → byteAt bs 0 = 1 → bitN (byteAt bs 1) 0 = false →
    0 < s.par.ctr →
    Runs (.pairFrameReceive bs) s fun t => PairSent s t 5 t.par.term 0 ∧ t.par.ctr = s.par.ctr ∧
      Unchanged [.tx, .par] s t) ∧
  (∀ (bs : List Byte) (s : State), PairOk s bs → byteAt bs 0 = 2 → bitN (byteAt bs 1) 0 = false → 0 < s.par.ctr →
    s.par.expPend = false → s.shadow = [] →
    Runs (.pairFrameReceive bs) s fun t =>
      t.par.ctr = (if s.par.renewSeq = some (getLe bs 12 2, wd (getLe bs 4 4)) then 4000 else s.par.ctr) ∧
      t.par.take = s.par.take ∧ Unchanged [.par] s t) ∧
  (∀ (bs : List Byte) (s : State), PairOk s bs → byteAt bs 0 = 2 → bitN (byteAt bs 1) 0 = false → s.par.ctr = 0 →
    s.par.expPend = false →
    Runs (.pairFrameReceive bs) s fun t =>
      (if parRuns s = true ∧ s.par.claimLink = true ∧ s.par.claimSeq = some (getLe bs 12 2) ∧ wd (getLe bs 4 4) = s.par.claimTerm then
        t.par.ctr = 4000 ∧ t.par.lastGrant = 1 ∧ t.par.claimLink = false ∧ t.par.take = min 65535 (s.par.take + 1) ∧
          (s.par.untested ≠ 0 → t.par.deferredAt = some s.now)
       else t.par.ctr = 0 ∧ t.ctl = s.ctl) ∧ Unchanged [.ctl, .par] s t) ∧
  (∀ (bs : List Byte) (s : State), PairOk s bs → pairSends s = true → byteAt bs 0 = 3 → bitN (byteAt bs 1) 0 = false →
    s.par.ctr = 0 → s.par.conflict = false → s.par.claimLink = false ∨ parPreferred s = false →
    Runs (.pairFrameReceive bs) s fun t => PairSent s t 2 (wd (getLe bs 4 4)) (getLe bs 2 2) ∧ t.par.ctr = 0 ∧
      Unchanged [.tx, .par] s t) ∧
  (∀ (bs : List Byte) (s : State), PairOk s bs → byteAt bs 0 ≠ 2 → bitN (byteAt bs 1) 0 = true → 0 < s.par.ctr →
    Runs (.pairFrameReceive bs) s fun t =>
      (s.par.term.toNat ≤ getLe bs 4 4 → t.par.ctr = 0 ∧ (contactorWanted s = true → Tripped t 5)) ∧
      (getLe bs 4 4 < s.par.term.toNat → t.par.ctr = s.par.ctr ∧ t.emb = s.emb)) ∧
  (∀ (bs : List Byte) (t0 : Nat) (s : State), PairOk s bs → bitN (byteAt bs 1) 0 = true → s.par.ctr = 0 →
    s.par.swapAt = some t0 → wd (getLe bs 4 4) = s.par.swapTerm → s.now ≤ t0 + 1000 * rdf s parTmo [] 15 0 →
    Runs (.pairFrameReceive bs) s fun t => t.par.swapAt = none ∧ t.par.res = .ok) ∧
  (∀ (bs : List Byte) (s : State), paired s = true → s.emb.power ≠ .dark →
    bs.length ≠ 32 ∨ getLe bs 28 4 ≠ crc32c (bs.take 28) →
    Runs (.pairFrameReceive bs) s fun t => t.par = { s.par with crc := min 65535 (s.par.crc + 1) } ∧
      Unchanged [.par] s t) ∧
  (∀ (bs : List Byte) (s : State), paired s = true → s.emb.power ≠ .dark → bs.length = 32 →
    getLe bs 28 4 = crc32c (bs.take 28) → getLe bs 8 4 ≠ rd s parId [] →
    Runs (.pairFrameReceive bs) s fun t => t.par = { s.par with foreign := min 65535 (s.par.foreign + 1) } ∧
      Unchanged [.par] s t) ∧
  (∀ (bs : List Byte) (s : State), paired s = true → s.emb.power ≠ .dark → bs.length = 32 →
    getLe bs 28 4 = crc32c (bs.take 28) → getLe bs 8 4 = rd s parId [] →
    bitN (byteAt bs 1) 2 = s.par.strapB → s.par.conflict = false →
    Runs (.pairFrameReceive bs) s fun t => t.par = { s.par with conflict := true, claimLink := false, claimSeq := none } ∧
      Unchanged [.par, .kln, .recd, .hst, .mem] s t)

/-- The lease between frames: the holder renews every 10 ms, a READY module claims over an idle link, or through the witness after
60 ms of silence, for the term plus 1; the link is down after 25 ms; at expiry every converter parks, every impedance
sweep pauses, and with a contactor asked for SAFE_STOP follows; a planned swap gives the lease up and waits SWAP_TMO
for the partner; a lane that fails a deferred step of the return switches is excluded (R324, R480, R482, R484, R486, R487, R489, R491, R493, R494; what
passes a step is the model's reading, notes/assumptions/62.md). -/
def Obligations.LeaseIsRenewedClaimedAndLost : Prop :=
  (∀ s : State, parRuns s = true → pairSends s = true → 0 < s.par.ctr → (∀ t0 ∈ s.par.renewAt, t0 + 10000 ≤ s.now) →
    Runs .renewSend s fun t => PairSent s t 1 s.par.term 0 ∧ t.par.renewSeq = some (t.par.seq, s.par.term) ∧
      t.par.renewAt = some s.now ∧ t.par.ctr = s.par.ctr ∧ t.par.term = s.par.term ∧ Unchanged [.tx, .par] s t) ∧
  (∀ s : State, s.par.ctr = 0 → exec .renewSend s = .next s) ∧
  (∀ s : State, mayClaim s = true → pairSends s = true →
    (s.par.claimLink = true ∧ s.par.pHolds = false) ∨ (s.par.claimLink = false ∧ s.par.pIdle = true ∧ s.par.pPrevIdle = true ∧
      (parPreferred s = true ∨ (∃ t0 ∈ s.par.pNotReadySince, t0 + 1000000 ≤ s.now))) →
    (∀ t0 ∈ s.par.claimAt, t0 + 10000 ≤ s.now) →
    Runs .claimSend s fun t => PairSent s t 3 (s.par.term + 1) 0 ∧ t.par.claimLink = true ∧
      t.par.claimTerm = s.par.term + 1 ∧ t.par.claimSeq = some t.par.seq ∧ t.par.ctr = 0 ∧ t.par.term = s.par.term ∧
      Unchanged [.tx, .par] s t) ∧
  (∀ s : State, mayClaim s = false →
    Runs .claimSend s fun t => t.par = { s.par with claimLink := false, claimSeq := none } ∧ Unchanged [.par] s t) ∧
  (∀ s : State, pairSends s = true → (∀ t0 ∈ s.par.lastTx, t0 + 10000 ≤ s.now) →
    Runs .pairStatusSend s fun t => PairSent s t 5 s.par.term 0 ∧
      t.par = { s.par with seq := (s.par.seq + 1) % 65536, lastTx := some s.now } ∧ Unchanged [.tx, .par] s t) ∧
  (∀ (t0 : Nat) (s : State), s.par.lastRx = some t0 → s.par.linkUp = true → t0 + 25000 ≤ s.now →
    Runs .pairLinkDown s fun t =>
      t.par = { s.par with linkUp := false, claimLink := false, claimSeq := none } ∧
      Unchanged [.par] s t) ∧
  (∀ (t0 : Nat) (s : State), s.par.lastRx = some t0 → s.now < t0 + 25000 → exec .pairLinkDown s = .next s) ∧
  (∀ s : State, paired s = true → s.par.expPend = true → s.par.ctr = 0 →
    Runs .leaseExpiry s fun t => t.par.expPend = false ∧ t.par.ctr = 0 ∧ t.par.term = s.par.term ∧
      (∀ k < 4, (conv t k).state = 0 ∧ bitN (conv t k).causes.toNat 2 = true) ∧
      (∀ k < 4, (imps t k).state = 0 ∨ (imps t k).state = 2) ∧
      (contactorWanted s = true → Tripped t 5 ∧ t.par.loss = min 65535 (s.par.loss + 1)) ∧
      (contactorWanted s = false → t.emb = s.emb ∧ t.par.loss = s.par.loss) ∧
      Unchanged [.mem, .emb, .imp, .ctl, .hrp, .can, .hst, .kln, .recd, .par] s t) ∧
  (∀ s : State, 0 < s.par.ctr → exec .leaseExpiry s = .next s) ∧
  (∀ s : State, parRuns s = true → witRunning s = true → parReady s = true → s.par.ctr = 0 → s.par.claimWit = false →
    s.par.swapAt = none → s.par.lastRx.getD s.par.safStart + 60000 ≤ s.now →
    Runs .witnessClaim s fun t => t.par = { s.par with claimWit := true } ∧
      Unchanged [.par] s t) ∧
  (∀ s : State, witRunning s = false → exec .witnessClaim s = .next s) ∧
  (∀ (m : BitVec 12) (t0 : Nat) (s : State), s.par.deferredAt = some t0 → 0 < s.par.ctr →
    Runs (.deferredSelfTest m) s fun t =>
      t.par = { s.par with untested := s.par.untested &&& ~~~ stepsPassed s m, deferredAt := none } ∧
      (∀ i < 3, lane t i = if stepLoser s m i = true then { lane s i with state := 2, cause := 3 } else lane s i) ∧
      ((∀ i < 3, stepLoser s m i = false) → Unchanged [.par] s t) ∧
      (2 ≤ ((List.range 3).filter (stepLoser s m)).length → t.saf.laneFault = true) ∧
      Unchanged [.par, .saf, .kln, .recd, .hst, .mem] s t) ∧
  (∀ (w : Win) (s : State), Granted s w 0x150000 rMaint → pairUp s = true → s.par.pReady = true → paired s = true →
    0 < s.par.ctr → s.emb.mode = .standby ∨ s.emb.mode = .maintenance → allOpen s = true → s.par.swapAt = none →
    Runs (.parSwap w) s fun t => Accepted t w ∧ t.par.res = .busy ∧ t.par.ctr = 0 ∧ t.par.swapAt = some s.now ∧
      t.par.swapTerm = s.par.term + 1 ∧ t.par.term = s.par.term ∧
      (pairSends s = true → PairSent s t 4 s.par.term 0) ∧
      Unchanged [.mem, .tx, .emb, .imp, .ctl, .hrp, .can, .hst, .kln, .recd, .par] s t) ∧
  (∀ (w : Win) (s : State), Granted s w 0x150000 rMaint → pairUp s = true → s.par.pReady = true →
    s.par.ctr = 0 ∨ (s.emb.mode ≠ .standby ∧ s.emb.mode ≠ .maintenance) ∨ allOpen s = false →
    Runs (.parSwap w) s fun t => (win t w).lastRes = .refusedMode ∧ t.par = { s.par with res := .refusedMode } ∧
      Unchanged [.par, .hst, .mem] s t) ∧
  (∀ (w : Win) (s : State), Granted s w 0x150000 rMaint → pairUp s = false ∨ s.par.pReady = false →
    Runs (.parSwap w) s fun t => (win t w).lastRes = .notPresent ∧ t.par = { s.par with res := .notPresent } ∧
      Unchanged [.par, .hst, .mem] s t) ∧
  (∀ (t0 : Nat) (s : State), s.par.swapAt = some t0 → t0 + 1000 * rdf s parTmo [] 15 0 < s.now →
    Runs .swapTimeout s fun t => t.par = { s.par with swapAt := none, res := .expired } ∧ Unchanged [.par] s t) ∧
  (∀ (w : Win) (s : State), Granted s w 0x150000 rMaint →
    Runs (.parClrCnt w) s fun t => Accepted t w ∧ t.par = { s.par with crc := 0, foreign := 0, res := .ok } ∧
      Unchanged [.par, .hst] s t)

/-! ### The update relay, key slots, activation and health (R495 to R506) -/

/-- Receiving: an OFFER is answered by the first row of its table that applies; after the erase an ACCEPT goes out; blocks are
stored in ascending order once all their fragments are there and the CRC matches, every fourth with an ACK; a failed,
late or skipping block is NAKed, a skipping one at the first of its fragments, the eighth NAK and 5 s without DATA end the session; the last block starts the verification (R496 to R500; that
RELAY_BUSY then clears, that the eighth NAK precedes its ABORT and that a skipping block is NAKed once is the model's
reading, notes/assumptions/63.md). -/
def Obligations.RelayStoresBlocksInOrder : Prop :=
  (∀ (p : Fin 2) (bs : List Byte) (s : State), RelayGot s p 1 bs → bitN (rd s updCfg []) 31 = false →
    Runs (.relayOffer p bs) s fun t => t.upd = s.upd ∧ Unchanged [.hst, .mem] s t) ∧
  (∀ (p : Fin 2) (bs : List Byte) (s : State), RelayGot s p 1 bs → bitN (rd s updCfg []) 31 = true →
    inR s.upd.rx.state 1 3 = true ∨ s.crd.xferOpen = true →
    Runs (.relayOffer p bs) s fun t => RelaySent t p (relayFrame 7 0 (getLe bs 2 2) 0 Code.busy.num []) ∧
      t.upd = { s.upd with out := t.upd.out } ∧ Unchanged [.tx, .upd, .hst, .mem] s t) ∧
  (∀ (p : Fin 2) (bs : List Byte) (s : State), RelayGot s p 1 bs → bitN (rd s updCfg []) 31 = true →
    inR s.upd.rx.state 1 3 = false → s.crd.xferOpen = false → 0x2000000 < getLe bs 8 4 ∨ getLe bs 8 4 % 4 ≠ 0 →
    Runs (.relayOffer p bs) s fun t => RelaySent t p (relayFrame 7 0 (getLe bs 2 2) 0 Code.range.num []) ∧
      t.upd = { s.upd with out := s.upd.out ++
        [(p.val, relayWire (relayFrame 7 0 (getLe bs 2 2) 0 Code.range.num []))] } ∧
      Unchanged [.tx, .upd, .hst, .mem] s t) ∧
  (∀ (p : Fin 2) (bs : List Byte) (s : State), RelayGot s p 1 bs → bitN (rd s updCfg []) 31 = true →
    inR s.upd.rx.state 1 3 = false → s.crd.xferOpen = false → getLe bs 8 4 ≤ 0x2000000 → getLe bs 8 4 % 4 = 0 →
    (hasCord s = true ∧ s.crd.running.seq = getLe (relayPayload bs) 0 4) ∨
      (s.crd.incValid = true ∧ s.crd.incoming.seq = getLe (relayPayload bs) 0 4) →
    Runs (.relayOffer p bs) s fun t => t.upd.rx.state = 4 ∧ t.upd.rx.session = getLe bs 2 2 ∧
      t.upd.rxSeq = wd (getLe (relayPayload bs) 0 4) ∧
      RelaySent t p (relayFrame 6 0 (getLe bs 2 2) 0 0 (leB 8 Config.serial.toNat ++ leB 4 (getLe (relayPayload bs) 0 4))) ∧
      (∀ q : Fin 2, q ≠ p → bitN (rd s updCfg []) 30 = true → portUp s q = true → txSess s q = none →
        ∃ x, txSess t q = some x ∧ x.session = getLe bs 2 2 ∧ x.forwarded = true ∧ x.accepted = false) ∧
      Unchanged [.tx, .upd, .hst, .mem] s t) ∧
  (∀ (p : Fin 2) (bs : List Byte) (s : State), RelayGot s p 1 bs → bitN (rd s updCfg []) 31 = true →
    inR s.upd.rx.state 1 3 = false → s.crd.xferOpen = false → getLe bs 8 4 ≤ 0x2000000 → getLe bs 8 4 % 4 = 0 →
    hasCord s = false ∨ s.crd.running.seq ≠ getLe (relayPayload bs) 0 4 →
    s.crd.incValid = false ∨ s.crd.incoming.seq ≠ getLe (relayPayload bs) 0 4 → txReadsIncoming s = false →
    Runs (.relayOffer p bs) s fun t => t.upd.rx.state = 1 ∧ t.upd.rx.session = getLe bs 2 2 ∧ t.upd.rx.port = p.val ∧
      t.upd.rx.total = getLe bs 8 4 ∧ t.upd.rx.next = 0 ∧ t.upd.rxSeq = wd (getLe (relayPayload bs) 0 4) ∧
      t.crd.incoming.bytes = [] ∧ t.crd.incValid = false ∧ t.crd.relayBusy = true ∧ t.crd.running = s.crd.running ∧
      t.upd.tx = s.upd.tx ∧ Unchanged [.upd, .crd, .hst, .mem] s t) ∧
  (∀ s : State, s.upd.rx.state = 1 → awake s = true →
    Runs .relayEraseComplete s fun t => t.upd.rx = { s.upd.rx with state := 2, lastAck := s.now, lastData := s.now } ∧
      (portUp s s.upd.rx.port = true → s.upd.rx.port < 2 →
        RelaySent t s.upd.rx.port (relayFrame 2 0 s.upd.rx.session 0 0 [])) ∧
      Unchanged [.tx, .upd, .hst, .mem] s t) ∧
  (∀ s : State, s.upd.rx.state ≠ 1 → exec .relayEraseComplete s = .next s) ∧
  (∀ (p : Fin 2) (bs blk : List Byte) (fr : Tab (List Byte)) (s : State), RelayGot s p 3 bs → s.upd.rx.state = 2 →
    s.upd.rx.port = p.val → s.upd.rx.session = getLe bs 2 2 → getLe bs 4 2 = s.upd.rx.next →
    fr = tset [] s.upd.rx.frags (byteAt bs 1) (relayPayload bs) →
    (∀ i < (min 4096 (s.upd.rx.total - 4096 * s.upd.rx.next) + 1023) / 1024, tget [] fr i ≠ []) →
    blk = tget [] fr 0 ++ tget [] fr 1 ++ tget [] fr 2 ++ tget [] fr 3 →
    blk.length = min 4096 (s.upd.rx.total - 4096 * s.upd.rx.next) → crc32c blk = getLe bs 8 4 →
    Runs (.relayData p bs) s fun t => t.crd.incoming.bytes = s.crd.incoming.bytes ++ blk ∧
      t.upd.rx.next = s.upd.rx.next + 1 ∧ t.upd.rx.naks = 0 ∧ t.upd.rx.frags = [] ∧ t.upd.rx.lastData = s.now ∧
      (s.upd.rx.next + 1 < blocksOf s.upd.rx.total → t.upd.rx.state = 2 ∧ t.crd.verifying = s.crd.verifying) ∧
      (blocksOf s.upd.rx.total ≤ s.upd.rx.next + 1 → t.upd.rx.state = 3 ∧ t.crd.relayBusy = false ∧
        (s.crd.verifying = none → t.crd.verifying = some .relay)) ∧
      ((s.upd.rx.next + 1) % 4 = 0 → RelaySent t p (relayFrame 4 0 (getLe bs 2 2) (s.upd.rx.next + 1)
        (s.upd.rx.next + 1 + rdf s updCfg [] 8 0 - 1) [])) ∧
      t.crd.running = s.crd.running ∧ Unchanged [.tx, .upd, .crd, .hst, .mem] s t) ∧
  (∀ (p : Fin 2) (bs : List Byte) (i : Nat) (s : State), RelayGot s p 3 bs → s.upd.rx.state = 2 →
    s.upd.rx.port = p.val → s.upd.rx.session = getLe bs 2 2 → getLe bs 4 2 = s.upd.rx.next →
    i < (min 4096 (s.upd.rx.total - 4096 * s.upd.rx.next) + 1023) / 1024 →
    tget [] (tset [] s.upd.rx.frags (byteAt bs 1) (relayPayload bs)) i = [] →
    Runs (.relayData p bs) s fun t =>
      t.upd.rx.frags = tset [] s.upd.rx.frags (byteAt bs 1) (relayPayload bs) ∧ t.upd.rx.next = s.upd.rx.next ∧
      t.upd.rx.state = 2 ∧ t.upd.rx.firstAt = some (s.upd.rx.firstAt.getD s.now) ∧ t.upd.rx.lastData = s.now ∧
      Unchanged [.upd, .hst, .mem] s t) ∧
  (∀ (p : Fin 2) (bs : List Byte) (s : State), RelayGot s p 3 bs → s.upd.rx.state = 2 →
    s.upd.rx.port = p.val → s.upd.rx.session = getLe bs 2 2 → s.upd.rx.next < getLe bs 4 2 →
    (∀ x ∈ s.upd.rx.beyond, x.1 ≠ getLe bs 4 2 ∨ byteAt bs 1 ≤ x.2) →
    Runs (.relayData p bs) s fun t => t.upd.nakCnt = min 65535 (s.upd.nakCnt + 1) ∧ t.upd.rx.next = s.upd.rx.next ∧
      (s.upd.rx.naks < 7 → RelaySent t p (relayFrame 5 0 (getLe bs 2 2) s.upd.rx.next 0 []) ∧ t.upd.rx.state = 2 ∧
        t.upd.rx.naks = s.upd.rx.naks + 1) ∧
      (7 ≤ s.upd.rx.naks → RelaySent t p (relayFrame 7 0 (getLe bs 2 2) 0 Code.checkFail.num []) ∧ t.upd.rx.state = 5 ∧
        t.crd.relayBusy = false) ∧
      t.crd.incoming = s.crd.incoming ∧ Unchanged [.tx, .upd, .crd, .hst, .mem] s t) ∧
  (∀ (p : Fin 2) (bs : List Byte) (f : Nat) (s : State), RelayGot s p 3 bs → s.upd.rx.state = 2 →
    s.upd.rx.port = p.val → s.upd.rx.session = getLe bs 2 2 → s.upd.rx.next < getLe bs 4 2 →
    s.upd.rx.beyond = some (getLe bs 4 2, f) → f < byteAt bs 1 →
    Runs (.relayData p bs) s fun t => t.upd = { s.upd with rx := { s.upd.rx with
        lastData := s.now, beyond := some (getLe bs 4 2, byteAt bs 1) } } ∧
      Unchanged [.upd, .hst, .mem] s t) ∧
  (∀ (t0 : Nat) (s : State), s.upd.rx.firstAt = some t0 → s.upd.rx.state = 2 → awake s = true → t0 + 2000 ≤ s.now →
    s.upd.rx.naks < 7 → portUp s s.upd.rx.port = true →
    Runs .relayBlockTimeout s fun t =>
      RelaySent t s.upd.rx.port (relayFrame 5 0 s.upd.rx.session s.upd.rx.next 0 []) ∧
      t.upd.nakCnt = min 65535 (s.upd.nakCnt + 1) ∧ t.upd.rx.firstAt = none ∧ t.upd.rx.frags = [] ∧
      t.upd.rx.next = s.upd.rx.next ∧ Unchanged [.tx, .upd, .hst, .mem] s t) ∧
  (∀ (t0 : Nat) (s : State), s.upd.rx.firstAt = some t0 → s.now < t0 + 2000 → exec .relayBlockTimeout s = .next s) ∧
  (∀ s : State, s.upd.rx.state = 2 → awake s = true → s.upd.rx.lastData + 5000000 ≤ s.now →
    portUp s s.upd.rx.port = true →
    Runs .relayDataTimeout s fun t =>
      RelaySent t s.upd.rx.port (relayFrame 7 0 s.upd.rx.session 0 Code.expired.num []) ∧ t.upd.rx.state = 5 ∧
      t.crd.relayBusy = false ∧ t.crd.incoming = s.crd.incoming ∧ Unchanged [.tx, .upd, .crd, .hst, .mem] s t) ∧
  (∀ s : State, inR s.upd.rx.state 2 3 = true → awake s = true → s.upd.rx.lastAck + 10000 ≤ s.now →
    portUp s s.upd.rx.port = true →
    Runs .relayAckSend s fun t =>
      RelaySent t s.upd.rx.port (relayFrame 4 0 s.upd.rx.session s.upd.rx.next
        (s.upd.rx.next + rdf s updCfg [] 8 0 - 1) []) ∧
      t.upd = { s.upd with rx := { s.upd.rx with lastAck := s.now }, out := t.upd.out } ∧
      Unchanged [.tx, .upd, .hst, .mem] s t) ∧
  (∀ s : State, s.now < s.upd.rx.lastAck + 10000 → exec .relayAckSend s = .next s) ∧
  (∀ (p : Fin 2) (bs : List Byte) (s : State), RelayGot s p 7 bs → inR s.upd.rx.state 1 3 = true →
    s.upd.rx.port = p.val → s.upd.rx.session = getLe bs 2 2 →
    Runs (.relayAbort p bs) s fun t => t.upd.rx.state = 5 ∧ t.crd.relayBusy = false ∧
      (∀ q : Fin 2, q ≠ p → ∀ x ∈ txSess s q, x.session = getLe bs 2 2 → txSess t q = none) ∧
      txSess t p = txSess s p ∧ t.crd.incoming = s.crd.incoming ∧ Unchanged [.upd, .crd, .hst, .mem] s t)

/-- Sending: an OFFER is repeated each second and the third is the last; an ACCEPT opens the session, with HAVE as complete; an
ACK moves the acknowledged block and the limit, and the blocks within it that the module holds go out; a NAK or 100 ms
without an ACK sends from a block again; 50 such resends, an ABORT or the RESULT end it, and a RESULT from downstream
goes upstream unchanged (R497 to R500). -/
def Obligations.RelaySendsWithinItsLimit : Prop :=
  (∀ (p : Fin 2) (x : TxSess) (s : State), txSess s p = some x → awake s = true → x.accepted = false →
    x.offeredAt + 1000000 ≤ s.now →
    Runs (.offerRetry p) s fun t =>
      (x.offers < 3 → txSess t p = some { x with offers := x.offers + 1, offeredAt := s.now } ∧
        (portUp s p = true → RelaySent t p (relayFrame 1 0 x.session 0 x.total
          (leB 4 x.seq.toNat ++ leB 2 (blocksOf x.total) ++ [BitVec.ofNat 8 x.keySlot, 0])))) ∧
      (3 ≤ x.offers → txSess t p = none) ∧ (∀ q : Fin 2, q ≠ p → txSess t q = txSess s q) ∧
      t.upd.rx = s.upd.rx ∧ Unchanged [.tx, .upd, .hst, .mem] s t) ∧
  (∀ (p : Fin 2) (x : TxSess) (s : State), txSess s p = some x → s.now < x.offeredAt + 1000000 →
    exec (.offerRetry p) s = .next s) ∧
  (∀ (p : Fin 2) (bs : List Byte) (x : TxSess) (s : State), RelayGot s p 2 bs → txSess s p = some x →
    x.session = getLe bs 2 2 → x.accepted = false →
    Runs (.relayAccept p bs) s fun t =>
      txSess t p = some { x with accepted := true, lastAckAt := s.now
                                 acked := if bitN (byteAt bs 1) 0 then blocksOf x.total else 0
                                 sent := if bitN (byteAt bs 1) 0 then blocksOf x.total else 0 } ∧
      (∀ q : Fin 2, q ≠ p → txSess t q = txSess s q) ∧ t.upd.rx = s.upd.rx ∧ Unchanged [.upd, .hst, .mem] s t) ∧
  (∀ (p : Fin 2) (bs : List Byte) (x : TxSess) (s : State), RelayGot s p 4 bs → txSess s p = some x →
    x.session = getLe bs 2 2 → x.accepted = true →
    Runs (.relayAck p bs) s fun t =>
      txSess t p = some { x with acked := getLe bs 4 2, limit := getLe bs 8 4 + 1, resends := 0, lastAckAt := s.now
                                 sent := max (max x.sent (getLe bs 4 2)) (min (getLe bs 8 4 + 1) (txReady s x)) } ∧
      (∀ q : Fin 2, q ≠ p → txSess t q = txSess s q) ∧ t.upd.rx = s.upd.rx ∧
      Unchanged [.tx, .upd, .hst, .mem] s t) ∧
  (∀ (p : Fin 2) (bs : List Byte) (x : TxSess) (s : State), RelayGot s p 5 bs → txSess s p = some x →
    x.session = getLe bs 2 2 → x.accepted = true →
    Runs (.relayNak p bs) s fun t =>
      txSess t p = some { x with sent := max (getLe bs 4 2) (min x.limit (txReady s x)) } ∧
      (getLe bs 4 2 + 1 = min x.limit (txReady s x) → 0 < ((txImage s x).drop (4096 * getLe bs 4 2)).length →
        ((txImage s x).drop (4096 * getLe bs 4 2)).length ≤ 1024 →
        RelaySent t p (relayFrame 3 0 x.session (getLe bs 4 2) (crc32c ((txImage s x).drop (4096 * getLe bs 4 2)))
          ((txImage s x).drop (4096 * getLe bs 4 2)))) ∧
      (∀ q : Fin 2, q ≠ p → txSess t q = txSess s q) ∧ t.upd.rx = s.upd.rx ∧
      Unchanged [.tx, .upd, .hst, .mem] s t) ∧
  (∀ (p : Fin 2) (x : TxSess) (s : State), txSess s p = some x → awake s = true → x.accepted = true →
    x.acked < blocksOf x.total → x.lastAckAt + 100000 ≤ s.now →
    Runs (.relayResend p) s fun t =>
      (x.resends < 50 → txSess t p = some { x with resends := x.resends + 1, lastAckAt := s.now
                                                   sent := max x.acked (min x.limit (txReady s x)) }) ∧
      (50 ≤ x.resends → txSess t p = none ∧
        (portUp s p = true → RelaySent t p (relayFrame 7 0 x.session 0 Code.expired.num []))) ∧
      (∀ q : Fin 2, q ≠ p → txSess t q = txSess s q) ∧ t.upd.rx = s.upd.rx ∧
      Unchanged [.tx, .upd, .hst, .mem] s t) ∧
  (∀ (p : Fin 2) (x : TxSess) (s : State), txSess s p = some x → s.now < x.lastAckAt + 100000 →
    exec (.relayResend p) s = .next s) ∧
  (∀ (p q : Fin 2) (bs : List Byte) (s : State), RelayGot s p 6 bs → q ≠ p → s.upd.rx.state ≠ 0 →
    s.upd.rx.session = getLe bs 2 2 → s.upd.rx.port = q.val → portUp s q = true →
    Runs (.relayResult p bs) s fun t => RelaySent t q bs ∧ t.upd.rx = s.upd.rx ∧
      (∀ x ∈ txSess s p, txSess t p = if x.session = getLe bs 2 2 then none else some x) ∧
      Unchanged [.tx, .upd, .hst, .mem] s t) ∧
  (∀ (p : Fin 2) (bs : List Byte) (x : TxSess) (s : State), RelayGot s p 7 bs → s.upd.rx.port ≠ p.val →
    txSess s p = some x → x.session = getLe bs 2 2 →
    Runs (.relayAbort p bs) s fun t => txSess t p = none ∧ t.upd.rx = s.upd.rx ∧
      (∀ q : Fin 2, q ≠ p → txSess t q = txSess s q) ∧ Unchanged [.upd, .hst, .mem] s t)

/-- UPD_CMD, the key slots and the confirmation window: SEND opens a session on each named port; ABORT ends every session (the
code in its frames is free, notes/assumptions/63.md); ACTIVATE goes to CONFIGURE by way of STANDBY; a key is
programmed or revoked with an AUDIT record; HEALTH_OK or an event confirms, and expiry starts the fallback's
verification (R499, R503 to R506). -/
def Obligations.UpdateCommandsKeysAndHealth : Prop :=
  (∀ (w : Win) (q : BitVec 16) (src : Bool) (m : BitVec 2) (img : List Byte) (s : State), Granted s w 0x160000 rCfg →
    img = (if src then s.crd.running.bytes else s.crd.incoming.bytes) →
    (if src then img ≠ [] else s.crd.incValid = true) → s.upd.fbPending = false → m ≠ 0 →
    (∀ p < 2, bitN m.toNat p = true → txSess s p = none) →
    Runs (.updSend w q src m) s fun t => Accepted t w ∧ t.upd.res = .ok ∧
      (∀ p < 2, bitN m.toNat p = true → ∃ x, txSess t p = some x ∧ x.session = q.toNat ∧ x.fromRunning = src ∧
        x.total = img.length ∧ x.accepted = false ∧ x.offers = 1) ∧
      (∀ p < 2, bitN m.toNat p = false → txSess t p = txSess s p) ∧ Unchanged [.tx, .upd, .hst, .mem] s t) ∧
  (∀ (w : Win) (q : BitVec 16) (m : BitVec 2) (s : State), Granted s w 0x160000 rCfg → s.crd.incValid = false →
    Runs (.updSend w q false m) s fun t => (win t w).lastRes = .notPresent ∧ t.upd = { s.upd with res := .notPresent } ∧
      Unchanged [.upd, .hst, .mem] s t) ∧
  (∀ (w : Win) (s : State), Granted s w 0x160000 rCfg → s.upd.fbPending = false →
    Runs (.updAbort w) s fun t => Accepted t w ∧ t.upd.res = .ok ∧ (∀ p < 2, txSess t p = none) ∧
      t.upd.rx.state = (if inR s.upd.rx.state 1 3 = true then 5 else s.upd.rx.state) ∧
      t.crd.relayBusy = (if inR s.upd.rx.state 1 3 = true then false else s.crd.relayBusy) ∧
      t.crd.incoming = s.crd.incoming ∧ Unchanged [.fresh, .tx, .upd, .crd, .hst, .mem] s t) ∧
  (∀ (w : Win) (s : State), Granted s w 0x160000 rCfg → s.upd.fbPending = true →
    Runs (.updAbort w) s fun t => (win t w).lastRes = .refusedMode ∧ t.upd = { s.upd with res := .refusedMode } ∧
      Unchanged [.upd, .hst, .mem] s t) ∧
  (∀ (w : Win) (s : State), Granted s w 0x160000 rCfg → s.crd.incValid = true → s.upd.fbPending = false →
    s.emb.eject = false → relayRuns s = false → s.upd.confRun = false → s.upd.fbDue = false →
    s.upd.activating = false → s.crd.verifying = none → auditFullNow s = false →
    Runs (.updActivate w) s fun t =>
      (s.emb.mode = .configure → Accepted t w ∧ t.crd.verifying = some .updActivate ∧ t.upd.res = .ok) ∧
      (s.emb.mode = .standby → Accepted t w ∧ t.upd.res = .busy ∧ t.upd.activating = true ∧
        { target := .configure, src := .relay 0x0B } ∈ t.emb.reqs) ∧
      (s.emb.mode = .connected ∨ s.emb.mode = .drowse → Accepted t w ∧ t.upd.res = .busy ∧ t.upd.activating = true ∧
        { target := .standby, src := .relay 0x0B } ∈ t.emb.reqs) ∧
      (s.emb.mode = .precharge ∨ s.emb.mode = .maintenance ∨ s.emb.mode = .safeStop →
        (win t w).lastRes = .refusedMode ∧ t.upd = { s.upd with res := .refusedMode } ∧ t.emb = s.emb) ∧
      t.emb.mode = s.emb.mode ∧ Unchanged [.upd, .crd, .emb, .hst, .mem] s t) ∧
  (∀ (w : Win) (s : State), Granted s w 0x160000 rCfg → s.crd.incValid = false →
    Runs (.updActivate w) s fun t => (win t w).lastRes = .notPresent ∧ t.upd = { s.upd with res := .notPresent } ∧
      Unchanged [.upd, .hst, .mem] s t) ∧
  (∀ (w : Win) (s : State), Granted s w 0x160000 rCfg → s.upd.fbPending = false → s.emb.mode = .configure →
    stmtOk s true = true → tget 0 s.crd.keys (getLe (stmt s 256) 5 1) = 0 → auditFullNow s = false →
    Runs (.keyProg w) s fun t => Accepted t w ∧ t.upd.res = .ok ∧ tget 0 t.crd.keys (getLe (stmt s 256) 5 1) = 1 ∧
      tget [] t.crd.keyData (getLe (stmt s 256) 5 1) = ((stmt s 256).drop 16).take 97 ∧
      (∀ k, k ≠ getLe (stmt s 256) 5 1 → tget 0 t.crd.keys k = tget 0 s.crd.keys k ∧
        tget [] t.crd.keyData k = tget [] s.crd.keyData k) ∧
      (∃ r : Rec, t.recd.audit = s.recd.audit ++ [r] ∧ r.name = .keyProg ∧ r.sev = 7) ∧
      Unchanged [.upd, .crd, .kln, .recd, .hst] s t) ∧
  (∀ (w : Win) (s : State), Granted s w 0x160000 rCfg → s.upd.fbPending = false → s.emb.mode = .configure →
    stmtOk s false = true → keyActive s (getLe (stmt s 256) 5 1) = true →
    1 < ((List.range 4).filter (keyActive s)).length → getLe (stmt s 256) 5 1 ∉ slotsInUse s → auditFullNow s = false →
    Runs (.keyRevoke w) s fun t => Accepted t w ∧ t.upd.res = .ok ∧ tget 0 t.crd.keys (getLe (stmt s 256) 5 1) = 2 ∧
      (∀ k, k ≠ getLe (stmt s 256) 5 1 → tget 0 t.crd.keys k = tget 0 s.crd.keys k) ∧ t.crd.keyData = s.crd.keyData ∧
      (∃ r : Rec, t.recd.audit = s.recd.audit ++ [r] ∧ r.name = .keyRevoke ∧ r.sev = 7) ∧
      Unchanged [.upd, .crd, .kln, .recd, .hst] s t) ∧
  (∀ (w : Win) (s : State), Granted s w 0x160000 rCfg → s.upd.fbPending = false → s.emb.mode = .configure →
    stmtOk s true = true → tget 0 s.crd.keys (getLe (stmt s 256) 5 1) ≠ 0 →
    Runs (.keyProg w) s fun t => (win t w).lastRes = .range ∧ t.crd = s.crd ∧ Unchanged [.upd, .hst, .mem] s t) ∧
  (∀ (w : Win) (s : State), Granted s w 0x160000 rCfg → s.upd.fbPending = false → s.emb.mode = .configure →
    stmtOk s false = false →
    Runs (.keyRevoke w) s fun t => (win t w).lastRes = .checkFail ∧ t.crd = s.crd ∧ Unchanged [.upd, .hst, .mem] s t) ∧
  (∀ (w : Win) (s : State), Granted s w 0x160008 rCfg → s.upd.confRun = true →
    Runs (.healthOk w true) s fun t => Accepted t w ∧ t.upd.confRun = false ∧ t.upd.confirmed = true ∧ t.upd.cleft = 0 ∧
      Unchanged [.upd, .kln, .recd, .hst, .mem] s t) ∧
  (∀ (w : Win) (g : Bool) (s : State), Granted s w 0x160008 rCfg → s.upd.confRun = false →
    Runs (.healthOk w g) s fun t => (win t w).lastRes = .notPresent ∧ t.upd = s.upd ∧ Unchanged [.hst, .mem] s t) ∧
  (∀ s : State, awake s = true → s.upd.confRun = true →
    Runs .healthEvent s fun t => t.upd.confRun = false ∧ t.upd.confirmed = true ∧ t.upd.cleft = 0 ∧
      t.kln.evPend = s.kln.evPend.erase .health ∧ Unchanged [.upd, .kln, .recd, .hst, .mem] s t) ∧
  (∀ s : State, awake s = true → s.upd.confRun = true → s.upd.cleft = 0 → s.crd.verifying = none → s.upd.rx.state ≠ 3 →
    s.upd.fbGo = false →
    Runs .confirmExpiry s fun t => t.upd.confRun = false ∧ t.upd.fbDue = true ∧ t.crd.verifying = some .fallback ∧
      t.crd.running = s.crd.running ∧ Unchanged [.upd, .crd, .hst, .mem] s t) ∧
  (∀ s : State, 0 < s.upd.cleft → exec .confirmExpiry s = .next s)

/-! ### The front panel and live extraction (R507 to R519) -/

/-- Keys: UP and DOWN change the screen, ENTER opens the menu and confirms its item; a touch that wakes the module or lights the
display does nothing else; 30 s of touch is STUCK, two seconds of ENTER and ACK the lamp test (R507 to R510).
Live extraction: PRESENT lost with the lever closed is PFAIL; the lever refuses what waits, ends the relay's sessions and asks for
STANDBY from CONNECTED or DROWSE; after 500 ms every contactor request goes; with contactors open and weld checks ended
the module is in EMBER with cause 0x0A, every output off, and dark until the lever closes (R517 to R519). -/
def Obligations.PanelKeysAndExtraction : Prop :=
  ((∀ (k : Fin 4) (s : State), s.emb.power = .on → s.emb.mode ≠ .ember → s.emb.eject = false → keyOn s k = false →
    othersOn s k = false →
    Runs (.keyTouch k) s fun t => tget none t.pnl.touched k = some s.now ∧
      (∀ j, j ≠ k.val → tget none t.pnl.touched j = tget none s.pnl.touched j) ∧
      (s.pnl.backlight = false → t.pnl.backlight = true ∧ bitN t.pnl.consumed.toNat k = true ∧
        t.pnl.screen = s.pnl.screen ∧ t.pnl.menu = s.pnl.menu ∧ Unchanged [.pnl] s t) ∧
      (s.pnl.backlight = true → s.pnl.menu = none → k = 0 →
        t.pnl.screen = (s.pnl.screen + screens s - 1) % screens s ∧ Unchanged [.pnl] s t) ∧
      (s.pnl.backlight = true → s.pnl.menu = none → k = 1 →
        t.pnl.screen = (s.pnl.screen + 1) % screens s ∧ Unchanged [.pnl] s t) ∧
      (s.pnl.backlight = true → s.pnl.menu = none → k = 2 →
        t.pnl.menu = (if s.pnl.screen = 6 then some 0 else none) ∧ Unchanged [.pnl] s t) ∧
      (s.pnl.backlight = true → s.pnl.menu = some 0 → k = 2 → t.pnl.menu = none ∧
        (panelMaint s = true → { target := .maintenance, src := .panel } ∈ t.emb.reqs) ∧
        (panelMaint s = false → t.emb = s.emb ∧ t.pnl.outcome = some (.refusedRights, s.now))) ∧
      (s.pnl.backlight = true → s.pnl.menu = some 1 → k = 2 → t.pnl.menu = none ∧
        { target := .standby, src := .panel } ∈ t.emb.reqs) ∧
      (∀ i ∈ s.pnl.menu, s.pnl.backlight = true → (k = 0 → t.pnl.menu = some ((i + 2) % 3) ∧ Unchanged [.pnl] s t) ∧
        (k = 1 → t.pnl.menu = some ((i + 1) % 3) ∧ Unchanged [.pnl] s t)) ∧
      (k = 3 → t.emb = s.emb ∧ t.saf = s.saf) ∧
      t.emb.mode = s.emb.mode ∧ Unchanged [.emb, .lgc, .kln, .recd, .hst, .mem, .pnl] s t) ∧
  (∀ (k : Fin 4) (s : State), s.emb.power = .on → s.emb.mode ≠ .ember → s.emb.eject = true → keyOn s k = false →
    k ≠ 2 ∨ s.pnl.menu = none ∨ othersOn s k = true →
    Runs (.keyTouch k) s fun t => tget none t.pnl.touched k = some s.now ∧ t.pnl.screen = s.pnl.screen ∧
      t.pnl.menu = s.pnl.menu ∧ t.pnl.backlight = s.pnl.backlight ∧ t.pnl.outcome = s.pnl.outcome ∧ Unchanged [.pnl] s t) ∧
  (∀ s : State, s.emb.power = .on → s.emb.mode ≠ .ember → s.emb.eject = true → keyOn s 2 = false → othersOn s 2 = false →
    s.pnl.menu = some 1 →
    Runs (.keyTouch 2) s fun t => t.pnl.outcome = some (.refusedMode, s.now) ∧ t.pnl.menu = some 1 ∧
      Unchanged [.pnl] s t) ∧
  (∀ (k : Fin 4) (s : State), s.emb.power = .on → s.emb.mode = .ember → keyOn s k = false →
    bitN (rd s embWakeEn []) 4 = true →
    Runs (.keyTouch k) s fun t => t.emb.wakePend = true ∧ t.emb.wakeSrc.getLsbD 4 = true ∧
      bitN t.pnl.consumed.toNat k = true ∧ t.pnl.screen = s.pnl.screen ∧ Unchanged [.emb, .pnl] s t) ∧
  (∀ (k : Fin 4) (t0 : Nat) (s : State), tget none s.pnl.touched k = some t0 →
    k ≠ 3 ∨ bitN s.pnl.stuck.toNat k = true ∨ bitN s.pnl.consumed.toNat k = true ∨ s.pnl.withOther = true →
    Runs (.keyRelease k) s fun t => tget none t.pnl.touched k = none ∧ bitN t.pnl.stuck.toNat k = false ∧
      t.pnl.outcome = s.pnl.outcome ∧ Unchanged [.pnl] s t) ∧
  (∀ (k : Fin 4) (s : State), tget none s.pnl.touched k = none → exec (.keyRelease k) s = .next s) ∧
  (∀ (k : Fin 4) (t0 : Nat) (s : State), tget none s.pnl.touched k = some t0 → t0 + 30000000 < s.now → awake s = true →
    bitN s.pnl.stuck.toNat k = false →
    Runs (.keyStuck k) s fun t => bitN t.pnl.stuck.toNat k = true ∧ t.pnl.screen = s.pnl.screen ∧
      t.pnl.touched = s.pnl.touched ∧ Unchanged [.pnl, .kln, .recd, .hst, .mem] s t) ∧
  (∀ (k : Fin 4) (t0 : Nat) (s : State), tget none s.pnl.touched k = some t0 → s.now ≤ t0 + 30000000 →
    exec (.keyStuck k) s = .next s) ∧
  (∀ (t0 : Nat) (s : State), s.pnl.bothSince = some t0 → awake s = true → s.emb.eject = false → t0 + 2000000 ≤ s.now →
    Runs .lampTest s fun t => t.pnl = { s.pnl with lampUntil := some (s.now + 2000000), bothSince := none } ∧
      Unchanged [.pnl] s t) ∧
  (∀ s : State, s.pnl.backlight = true → (∀ j < 4, keyLive s j = false) → s.pnl.lastTouch + 1000000 * rdf s pnlCfg [] 15 0 ≤ s.now →
    Runs .backlightTimeout s fun t => t.pnl = { s.pnl with backlight := false } ∧ Unchanged [.pnl] s t) ∧
  (∀ s : State, s.now < s.pnl.lastTouch + 1000000 * rdf s pnlCfg [] 15 0 → exec .backlightTimeout s = .next s) ∧
  (∀ s : State, keyLive s 0 = true → exec .backlightTimeout s = .next s)) ∧
  ((∀ s : State, s.emb.power = .on → s.emb.present = true → s.emb.eject = false → s.emb.mode ≠ .ember →
    Runs .presentLost s fun t => t.emb.present = false ∧ t.emb.pfail = true ∧ t.emb.power = .flushing ∧
      t.pnl.plost = min 65535 (s.pnl.plost + 1) ∧ outputsOff t = true ∧ t.emb.mode = s.emb.mode) ∧
  (∀ s : State, s.emb.power = .on → s.emb.present = true → s.emb.eject = true →
    Runs .presentLost s fun t => t.emb = { s.emb with present := false } ∧ Unchanged [.emb] s t) ∧
  (∀ s : State, s.emb.present = false → exec .presentLost s = .next s) ∧
  (∀ s : State, s.emb.power = .on → s.emb.eject = false → s.emb.mode ≠ .ember →
    Runs .eject s fun t => t.emb.eject = true ∧ t.pnl.ejState = 1 ∧ t.pnl.ejAt = s.now ∧
      t.pnl.ejects = min 65535 (s.pnl.ejects + 1) ∧ t.upd.tx = [] ∧ t.upd.rx.state = 0 ∧
      t.upd.out = [] ∧ t.crd.xferOpen = false ∧
      (∀ r ∈ t.emb.reqs, r.target = .safeStop ∨ r.src = .lever) ∧
      (∀ r ∈ s.emb.reqs, r.target = .safeStop → r ∈ t.emb.reqs) ∧
      (s.emb.mode = .connected ∨ s.emb.mode = .drowse → { target := .standby, src := .lever } ∈ t.emb.reqs) ∧
      t.emb.mode = s.emb.mode ∧ (∀ j < 16, sout t j = sout s j) ∧
      Unchanged [.emb, .pnl, .upd, .crd, .chn, .thm, .lgc, .kln, .recd, .hst, .mem] s t) ∧
  (∀ s : State, s.emb.eject = true → exec .eject s = .next s) ∧
  (∀ s : State, s.emb.power = .on → s.emb.eject = false → s.emb.mode = .ember →
    Runs .eject s fun t => t.emb.eject = true ∧ t.emb.wakePend = true ∧ t.emb.wakeSrc.getLsbD 7 = true ∧
      Unchanged [.emb] s t) ∧
  (∀ s : State, s.pnl.ejState ≠ 0 → awake s = true → s.pnl.ejAt + 500000 ≤ s.now →
    Runs .ejectContactorTimeout s fun t =>
      (∀ j < 16, isContactor s j = true → (sout t j).req = false ∧ (sout t j).laneOn = false) ∧
      (∀ j < 16, isContactor s j = false → sout t j = sout s j) ∧ Unchanged [.saf, .kln, .recd, .hst, .mem] s t) ∧
  (∀ s : State, s.now < s.pnl.ejAt + 500000 → exec .ejectContactorTimeout s = .next s) ∧
  (∀ s : State, s.pnl.ejState ≠ 0 → awake s = true → emberReady s = true → contactorWanted s = false → allOpen s = true →
    (∀ k ∈ strs s, (ctr s k).pstate ≠ 4) → s.emb.mode ≠ .connected → s.emb.mode ≠ .drowse →
    Runs .ejectFlushComplete s fun t => t.emb.mode = .ember ∧ t.emb.prev = s.emb.mode ∧ t.emb.cause = 0x0A ∧
      t.emb.power = .waiting ∧ t.pnl.ejState = 0 ∧ outputsOff t = true ∧ t.mem = [] ∧ t.recd.staging = []) ∧
  (∀ s : State, contactorWanted s = true ∨ allOpen s = false → exec .ejectFlushComplete s = .next s))

/-- ACK acts when it is released, by the whole time it was held: nothing before 1 s, and nothing where it is STUCK or was touched
together with another key, ENTER among them; the SAFE_STOP acknowledge from 1 s; from 3 s FORCE_ACK and no acknowledge
with the key in MAINT and FORCE_PEND set, in every other case the acknowledge. The touch of ACK itself does nothing,
and the lamp test starts when ENTER and ACK have been touched together for 2 s (R508). -/
def Obligations.AckActsOnReleaseByTheTimeHeld : Prop :=
  (∀ s : State, s.emb.power = .on → s.emb.mode ≠ .ember → keyOn s 3 = false →
    Runs (.keyTouch 3) s fun t => tget none t.pnl.touched 3 = some s.now ∧
      (keyLive s 2 = true → t.pnl.withOther = true ∧ (s.emb.eject = false → t.pnl.bothSince = some s.now)) ∧ Unchanged [.pnl] s t) ∧
  (∀ (t0 : Nat) (s : State), tget none s.pnl.touched 3 = some t0 → awake s = true → bitN s.pnl.stuck.toNat 3 = false →
    bitN s.pnl.consumed.toNat 3 = false → s.pnl.withOther = false → panelAck s = true → s.emb.mode = .safeStop →
    s.saf.dem = 0 → s.emb.eject = false → s.emb.pfail = false → t0 + 1000000 ≤ s.now →
    s.now < t0 + 3000000 ∨ lotoPos s ≠ .maint ∨ forcesActive s = false ∨ s.emb.forceAcked = true →
    Runs (.keyRelease 3) s fun t => tget none t.pnl.touched 3 = none ∧ t.saf.latch = 0 ∧ t.emb.latchFaults = [] ∧
      t.pnl.outcome = some (.ok, s.now) ∧ t.emb.recovAt = some (s.now + 1000000 * rdf s embRecov [] 15 0) ∧
      t.emb.forceAcked = s.emb.forceAcked ∧ t.emb.mode = .safeStop ∧
      Unchanged [.emb, .saf, .lgc, .kln, .recd, .hst, .mem, .pnl] s t) ∧
  (∀ (t0 : Nat) (s : State), tget none s.pnl.touched 3 = some t0 → awake s = true → bitN s.pnl.stuck.toNat 3 = false →
    bitN s.pnl.consumed.toNat 3 = false → s.pnl.withOther = false → panelMaint s = true → forcesActive s = true →
    s.emb.forceAcked = false → s.emb.eject = false → t0 + 3000000 ≤ s.now →
    Runs (.keyRelease 3) s fun t => tget none t.pnl.touched 3 = none ∧ t.emb.forceAcked = true ∧ t.saf = s.saf ∧
      t.emb.latchFaults = s.emb.latchFaults ∧ t.emb.recovAt = s.emb.recovAt ∧ t.pnl.outcome = some (.ok, s.now) ∧
      Unchanged [.emb, .kln, .recd, .hst, .mem, .pnl] s t) ∧
  (∀ (t0 : Nat) (s : State), tget none s.pnl.touched 3 = some t0 → awake s = true → bitN s.pnl.stuck.toNat 3 = false →
    bitN s.pnl.consumed.toNat 3 = false → s.pnl.withOther = false → panelAck s = false → t0 + 1000000 ≤ s.now →
    s.now < t0 + 3000000 →
    Runs (.keyRelease 3) s fun t => t.pnl.outcome = some (.refusedRights, s.now) ∧ Unchanged [.pnl] s t) ∧
  (∀ (t0 : Nat) (s : State), tget none s.pnl.touched 3 = some t0 →
    s.now < t0 + 1000000 ∨ bitN s.pnl.stuck.toNat 3 = true ∨ s.pnl.withOther = true →
    Runs (.keyRelease 3) s fun t => tget none t.pnl.touched 3 = none ∧ t.pnl.outcome = s.pnl.outcome ∧
      Unchanged [.pnl] s t) ∧
  (∀ (t0 : Nat) (s : State), s.pnl.bothSince = some t0 → awake s = true → s.emb.eject = false → t0 + 2000000 ≤ s.now →
    Runs .lampTest s fun t => t.pnl = { s.pnl with lampUntil := some (s.now + 2000000), bothSince := none } ∧
      Unchanged [.pnl] s t) ∧
  (∀ (t0 : Nat) (s : State), s.pnl.bothSince = some t0 → s.now < t0 + 2000000 → exec .lampTest s = .next s)
end

