-- ==== Sys2Proof/Laws/State.lean ====
section
/-!
SUPPORT. For each update of the state, what every other part of the state reads after it. All are true by unfolding the
update; no later proof unfolds one.
-/

namespace Sys2Proof.Machine

section
variable (s : State) (w : Nat) (f : Wnd → Wnd)

@[simp] theorem modWin_pending : (modWin s w f).pending = s.pending := rfl
@[simp] theorem modWin_variant : (modWin s w f).variant = s.variant := rfl
@[simp] theorem modWin_now : (modWin s w f).now = s.now := rfl
@[simp] theorem modWin_fresh : (modWin s w f).fresh = s.fresh := rfl
@[simp] theorem modWin_regs : (modWin s w f).regs = s.regs := rfl
@[simp] theorem modWin_shadow : (modWin s w f).shadow = s.shadow := rfl
@[simp] theorem modWin_frozen : (modWin s w f).frozen = s.frozen := rfl
@[simp] theorem modWin_kept : (modWin s w f).kept = s.kept := rfl
@[simp] theorem modWin_mem : (modWin s w f).mem = s.mem := rfl
@[simp] theorem modWin_arb : (modWin s w f).arb = s.arb := rfl
@[simp] theorem modWin_flash : (modWin s w f).flash = s.flash := rfl
@[simp] theorem modWin_tx : (modWin s w f).tx = s.tx := rfl
@[simp] theorem modWin_kln : (modWin s w f).kln = s.kln := rfl
@[simp] theorem modWin_crd : (modWin s w f).crd = s.crd := rfl
@[simp] theorem modWin_emb : (modWin s w f).emb = s.emb := rfl
@[simp] theorem modWin_chn : (modWin s w f).chn = s.chn := rfl
@[simp] theorem modWin_mea : (modWin s w f).mea = s.mea := rfl
@[simp] theorem modWin_trc : (modWin s w f).trc = s.trc := rfl
@[simp] theorem modWin_est : (modWin s w f).est = s.est := rfl
@[simp] theorem modWin_imp : (modWin s w f).imp = s.imp := rfl
@[simp] theorem modWin_ctl : (modWin s w f).ctl = s.ctl := rfl
@[simp] theorem modWin_hrp : (modWin s w f).hrp = s.hrp := rfl
@[simp] theorem modWin_thm : (modWin s w f).thm = s.thm := rfl
@[simp] theorem modWin_saf : (modWin s w f).saf = s.saf := rfl
@[simp] theorem modWin_lgc : (modWin s w f).lgc = s.lgc := rfl
@[simp] theorem modWin_fio : (modWin s w f).fio = s.fio := rfl
@[simp] theorem modWin_can : (modWin s w f).can = s.can := rfl
@[simp] theorem modWin_tim : (modWin s w f).tim = s.tim := rfl
@[simp] theorem modWin_recd : (modWin s w f).recd = s.recd := rfl
@[simp] theorem modWin_par : (modWin s w f).par = s.par := rfl
@[simp] theorem modWin_upd : (modWin s w f).upd = s.upd := rfl
@[simp] theorem modWin_pnl : (modWin s w f).pnl = s.pnl := rfl

end

section
variable (s : State) (r : Nat) (f : Ring → Ring)

@[simp] theorem modRing_pending : (modRing s r f).pending = s.pending := rfl
@[simp] theorem modRing_variant : (modRing s r f).variant = s.variant := rfl
@[simp] theorem modRing_now : (modRing s r f).now = s.now := rfl
@[simp] theorem modRing_fresh : (modRing s r f).fresh = s.fresh := rfl
@[simp] theorem modRing_regs : (modRing s r f).regs = s.regs := rfl
@[simp] theorem modRing_shadow : (modRing s r f).shadow = s.shadow := rfl
@[simp] theorem modRing_frozen : (modRing s r f).frozen = s.frozen := rfl
@[simp] theorem modRing_kept : (modRing s r f).kept = s.kept := rfl
@[simp] theorem modRing_mem : (modRing s r f).mem = s.mem := rfl
@[simp] theorem modRing_arb : (modRing s r f).arb = s.arb := rfl
@[simp] theorem modRing_flash : (modRing s r f).flash = s.flash := rfl
@[simp] theorem modRing_tx : (modRing s r f).tx = s.tx := rfl
@[simp] theorem modRing_kln : (modRing s r f).kln = s.kln := rfl
@[simp] theorem modRing_crd : (modRing s r f).crd = s.crd := rfl
@[simp] theorem modRing_emb : (modRing s r f).emb = s.emb := rfl
@[simp] theorem modRing_chn : (modRing s r f).chn = s.chn := rfl
@[simp] theorem modRing_mea : (modRing s r f).mea = s.mea := rfl
@[simp] theorem modRing_trc : (modRing s r f).trc = s.trc := rfl
@[simp] theorem modRing_est : (modRing s r f).est = s.est := rfl
@[simp] theorem modRing_imp : (modRing s r f).imp = s.imp := rfl
@[simp] theorem modRing_ctl : (modRing s r f).ctl = s.ctl := rfl
@[simp] theorem modRing_hrp : (modRing s r f).hrp = s.hrp := rfl
@[simp] theorem modRing_thm : (modRing s r f).thm = s.thm := rfl
@[simp] theorem modRing_saf : (modRing s r f).saf = s.saf := rfl
@[simp] theorem modRing_lgc : (modRing s r f).lgc = s.lgc := rfl
@[simp] theorem modRing_fio : (modRing s r f).fio = s.fio := rfl
@[simp] theorem modRing_can : (modRing s r f).can = s.can := rfl
@[simp] theorem modRing_tim : (modRing s r f).tim = s.tim := rfl
@[simp] theorem modRing_recd : (modRing s r f).recd = s.recd := rfl
@[simp] theorem modRing_par : (modRing s r f).par = s.par := rfl
@[simp] theorem modRing_upd : (modRing s r f).upd = s.upd := rfl
@[simp] theorem modRing_pnl : (modRing s r f).pnl = s.pnl := rfl

end

section
variable (s : State) (k : Nat) (f : LoopS → LoopS)

@[simp] theorem modLp_pending : (modLp s k f).pending = s.pending := rfl
@[simp] theorem modLp_variant : (modLp s k f).variant = s.variant := rfl
@[simp] theorem modLp_now : (modLp s k f).now = s.now := rfl
@[simp] theorem modLp_fresh : (modLp s k f).fresh = s.fresh := rfl
@[simp] theorem modLp_regs : (modLp s k f).regs = s.regs := rfl
@[simp] theorem modLp_shadow : (modLp s k f).shadow = s.shadow := rfl
@[simp] theorem modLp_frozen : (modLp s k f).frozen = s.frozen := rfl
@[simp] theorem modLp_kept : (modLp s k f).kept = s.kept := rfl
@[simp] theorem modLp_mem : (modLp s k f).mem = s.mem := rfl
@[simp] theorem modLp_arb : (modLp s k f).arb = s.arb := rfl
@[simp] theorem modLp_flash : (modLp s k f).flash = s.flash := rfl
@[simp] theorem modLp_tx : (modLp s k f).tx = s.tx := rfl
@[simp] theorem modLp_kln : (modLp s k f).kln = s.kln := rfl
@[simp] theorem modLp_crd : (modLp s k f).crd = s.crd := rfl
@[simp] theorem modLp_emb : (modLp s k f).emb = s.emb := rfl
@[simp] theorem modLp_mea : (modLp s k f).mea = s.mea := rfl
@[simp] theorem modLp_trc : (modLp s k f).trc = s.trc := rfl
@[simp] theorem modLp_est : (modLp s k f).est = s.est := rfl
@[simp] theorem modLp_imp : (modLp s k f).imp = s.imp := rfl
@[simp] theorem modLp_ctl : (modLp s k f).ctl = s.ctl := rfl
@[simp] theorem modLp_hrp : (modLp s k f).hrp = s.hrp := rfl
@[simp] theorem modLp_thm : (modLp s k f).thm = s.thm := rfl
@[simp] theorem modLp_saf : (modLp s k f).saf = s.saf := rfl
@[simp] theorem modLp_lgc : (modLp s k f).lgc = s.lgc := rfl
@[simp] theorem modLp_fio : (modLp s k f).fio = s.fio := rfl
@[simp] theorem modLp_can : (modLp s k f).can = s.can := rfl
@[simp] theorem modLp_tim : (modLp s k f).tim = s.tim := rfl
@[simp] theorem modLp_hst : (modLp s k f).hst = s.hst := rfl
@[simp] theorem modLp_recd : (modLp s k f).recd = s.recd := rfl
@[simp] theorem modLp_par : (modLp s k f).par = s.par := rfl
@[simp] theorem modLp_upd : (modLp s k f).upd = s.upd := rfl
@[simp] theorem modLp_pnl : (modLp s k f).pnl = s.pnl := rfl

end

section
variable (s : State) (j : Nat) (f : PortS → PortS)

@[simp] theorem modPort_pending : (modPort s j f).pending = s.pending := rfl
@[simp] theorem modPort_variant : (modPort s j f).variant = s.variant := rfl
@[simp] theorem modPort_now : (modPort s j f).now = s.now := rfl
@[simp] theorem modPort_fresh : (modPort s j f).fresh = s.fresh := rfl
@[simp] theorem modPort_regs : (modPort s j f).regs = s.regs := rfl
@[simp] theorem modPort_shadow : (modPort s j f).shadow = s.shadow := rfl
@[simp] theorem modPort_frozen : (modPort s j f).frozen = s.frozen := rfl
@[simp] theorem modPort_kept : (modPort s j f).kept = s.kept := rfl
@[simp] theorem modPort_mem : (modPort s j f).mem = s.mem := rfl
@[simp] theorem modPort_arb : (modPort s j f).arb = s.arb := rfl
@[simp] theorem modPort_flash : (modPort s j f).flash = s.flash := rfl
@[simp] theorem modPort_tx : (modPort s j f).tx = s.tx := rfl
@[simp] theorem modPort_kln : (modPort s j f).kln = s.kln := rfl
@[simp] theorem modPort_crd : (modPort s j f).crd = s.crd := rfl
@[simp] theorem modPort_emb : (modPort s j f).emb = s.emb := rfl
@[simp] theorem modPort_mea : (modPort s j f).mea = s.mea := rfl
@[simp] theorem modPort_trc : (modPort s j f).trc = s.trc := rfl
@[simp] theorem modPort_est : (modPort s j f).est = s.est := rfl
@[simp] theorem modPort_imp : (modPort s j f).imp = s.imp := rfl
@[simp] theorem modPort_ctl : (modPort s j f).ctl = s.ctl := rfl
@[simp] theorem modPort_hrp : (modPort s j f).hrp = s.hrp := rfl
@[simp] theorem modPort_thm : (modPort s j f).thm = s.thm := rfl
@[simp] theorem modPort_saf : (modPort s j f).saf = s.saf := rfl
@[simp] theorem modPort_lgc : (modPort s j f).lgc = s.lgc := rfl
@[simp] theorem modPort_fio : (modPort s j f).fio = s.fio := rfl
@[simp] theorem modPort_can : (modPort s j f).can = s.can := rfl
@[simp] theorem modPort_tim : (modPort s j f).tim = s.tim := rfl
@[simp] theorem modPort_hst : (modPort s j f).hst = s.hst := rfl
@[simp] theorem modPort_recd : (modPort s j f).recd = s.recd := rfl
@[simp] theorem modPort_par : (modPort s j f).par = s.par := rfl
@[simp] theorem modPort_upd : (modPort s j f).upd = s.upd := rfl
@[simp] theorem modPort_pnl : (modPort s j f).pnl = s.pnl := rfl

end

section
variable (s : State) (c : Nat) (f : ChanS → ChanS)

@[simp] theorem modChan_pending : (modChan s c f).pending = s.pending := rfl
@[simp] theorem modChan_variant : (modChan s c f).variant = s.variant := rfl
@[simp] theorem modChan_now : (modChan s c f).now = s.now := rfl
@[simp] theorem modChan_fresh : (modChan s c f).fresh = s.fresh := rfl
@[simp] theorem modChan_regs : (modChan s c f).regs = s.regs := rfl
@[simp] theorem modChan_shadow : (modChan s c f).shadow = s.shadow := rfl
@[simp] theorem modChan_frozen : (modChan s c f).frozen = s.frozen := rfl
@[simp] theorem modChan_kept : (modChan s c f).kept = s.kept := rfl
@[simp] theorem modChan_mem : (modChan s c f).mem = s.mem := rfl
@[simp] theorem modChan_arb : (modChan s c f).arb = s.arb := rfl
@[simp] theorem modChan_flash : (modChan s c f).flash = s.flash := rfl
@[simp] theorem modChan_tx : (modChan s c f).tx = s.tx := rfl
@[simp] theorem modChan_kln : (modChan s c f).kln = s.kln := rfl
@[simp] theorem modChan_crd : (modChan s c f).crd = s.crd := rfl
@[simp] theorem modChan_emb : (modChan s c f).emb = s.emb := rfl
@[simp] theorem modChan_chn : (modChan s c f).chn = s.chn := rfl
@[simp] theorem modChan_trc : (modChan s c f).trc = s.trc := rfl
@[simp] theorem modChan_est : (modChan s c f).est = s.est := rfl
@[simp] theorem modChan_imp : (modChan s c f).imp = s.imp := rfl
@[simp] theorem modChan_ctl : (modChan s c f).ctl = s.ctl := rfl
@[simp] theorem modChan_hrp : (modChan s c f).hrp = s.hrp := rfl
@[simp] theorem modChan_thm : (modChan s c f).thm = s.thm := rfl
@[simp] theorem modChan_saf : (modChan s c f).saf = s.saf := rfl
@[simp] theorem modChan_lgc : (modChan s c f).lgc = s.lgc := rfl
@[simp] theorem modChan_fio : (modChan s c f).fio = s.fio := rfl
@[simp] theorem modChan_can : (modChan s c f).can = s.can := rfl
@[simp] theorem modChan_tim : (modChan s c f).tim = s.tim := rfl
@[simp] theorem modChan_hst : (modChan s c f).hst = s.hst := rfl
@[simp] theorem modChan_recd : (modChan s c f).recd = s.recd := rfl
@[simp] theorem modChan_par : (modChan s c f).par = s.par := rfl
@[simp] theorem modChan_upd : (modChan s c f).upd = s.upd := rfl
@[simp] theorem modChan_pnl : (modChan s c f).pnl = s.pnl := rfl

end

section
variable (s : State) (k : Nat) (f : MeaStr → MeaStr)

@[simp] theorem modMstr_pending : (modMstr s k f).pending = s.pending := rfl
@[simp] theorem modMstr_variant : (modMstr s k f).variant = s.variant := rfl
@[simp] theorem modMstr_now : (modMstr s k f).now = s.now := rfl
@[simp] theorem modMstr_fresh : (modMstr s k f).fresh = s.fresh := rfl
@[simp] theorem modMstr_regs : (modMstr s k f).regs = s.regs := rfl
@[simp] theorem modMstr_shadow : (modMstr s k f).shadow = s.shadow := rfl
@[simp] theorem modMstr_frozen : (modMstr s k f).frozen = s.frozen := rfl
@[simp] theorem modMstr_kept : (modMstr s k f).kept = s.kept := rfl
@[simp] theorem modMstr_mem : (modMstr s k f).mem = s.mem := rfl
@[simp] theorem modMstr_arb : (modMstr s k f).arb = s.arb := rfl
@[simp] theorem modMstr_flash : (modMstr s k f).flash = s.flash := rfl
@[simp] theorem modMstr_tx : (modMstr s k f).tx = s.tx := rfl
@[simp] theorem modMstr_kln : (modMstr s k f).kln = s.kln := rfl
@[simp] theorem modMstr_crd : (modMstr s k f).crd = s.crd := rfl
@[simp] theorem modMstr_emb : (modMstr s k f).emb = s.emb := rfl
@[simp] theorem modMstr_chn : (modMstr s k f).chn = s.chn := rfl
@[simp] theorem modMstr_trc : (modMstr s k f).trc = s.trc := rfl
@[simp] theorem modMstr_est : (modMstr s k f).est = s.est := rfl
@[simp] theorem modMstr_imp : (modMstr s k f).imp = s.imp := rfl
@[simp] theorem modMstr_ctl : (modMstr s k f).ctl = s.ctl := rfl
@[simp] theorem modMstr_hrp : (modMstr s k f).hrp = s.hrp := rfl
@[simp] theorem modMstr_thm : (modMstr s k f).thm = s.thm := rfl
@[simp] theorem modMstr_saf : (modMstr s k f).saf = s.saf := rfl
@[simp] theorem modMstr_lgc : (modMstr s k f).lgc = s.lgc := rfl
@[simp] theorem modMstr_fio : (modMstr s k f).fio = s.fio := rfl
@[simp] theorem modMstr_can : (modMstr s k f).can = s.can := rfl
@[simp] theorem modMstr_tim : (modMstr s k f).tim = s.tim := rfl
@[simp] theorem modMstr_hst : (modMstr s k f).hst = s.hst := rfl
@[simp] theorem modMstr_recd : (modMstr s k f).recd = s.recd := rfl
@[simp] theorem modMstr_par : (modMstr s k f).par = s.par := rfl
@[simp] theorem modMstr_upd : (modMstr s k f).upd = s.upd := rfl
@[simp] theorem modMstr_pnl : (modMstr s k f).pnl = s.pnl := rfl

end

section
variable (s : State) (i : Nat) (f : SliceS → SliceS)

@[simp] theorem modSlice_pending : (modSlice s i f).pending = s.pending := rfl
@[simp] theorem modSlice_variant : (modSlice s i f).variant = s.variant := rfl
@[simp] theorem modSlice_now : (modSlice s i f).now = s.now := rfl
@[simp] theorem modSlice_fresh : (modSlice s i f).fresh = s.fresh := rfl
@[simp] theorem modSlice_regs : (modSlice s i f).regs = s.regs := rfl
@[simp] theorem modSlice_shadow : (modSlice s i f).shadow = s.shadow := rfl
@[simp] theorem modSlice_frozen : (modSlice s i f).frozen = s.frozen := rfl
@[simp] theorem modSlice_kept : (modSlice s i f).kept = s.kept := rfl
@[simp] theorem modSlice_mem : (modSlice s i f).mem = s.mem := rfl
@[simp] theorem modSlice_arb : (modSlice s i f).arb = s.arb := rfl
@[simp] theorem modSlice_flash : (modSlice s i f).flash = s.flash := rfl
@[simp] theorem modSlice_tx : (modSlice s i f).tx = s.tx := rfl
@[simp] theorem modSlice_kln : (modSlice s i f).kln = s.kln := rfl
@[simp] theorem modSlice_crd : (modSlice s i f).crd = s.crd := rfl
@[simp] theorem modSlice_emb : (modSlice s i f).emb = s.emb := rfl
@[simp] theorem modSlice_chn : (modSlice s i f).chn = s.chn := rfl
@[simp] theorem modSlice_trc : (modSlice s i f).trc = s.trc := rfl
@[simp] theorem modSlice_est : (modSlice s i f).est = s.est := rfl
@[simp] theorem modSlice_imp : (modSlice s i f).imp = s.imp := rfl
@[simp] theorem modSlice_ctl : (modSlice s i f).ctl = s.ctl := rfl
@[simp] theorem modSlice_hrp : (modSlice s i f).hrp = s.hrp := rfl
@[simp] theorem modSlice_thm : (modSlice s i f).thm = s.thm := rfl
@[simp] theorem modSlice_saf : (modSlice s i f).saf = s.saf := rfl
@[simp] theorem modSlice_lgc : (modSlice s i f).lgc = s.lgc := rfl
@[simp] theorem modSlice_fio : (modSlice s i f).fio = s.fio := rfl
@[simp] theorem modSlice_can : (modSlice s i f).can = s.can := rfl
@[simp] theorem modSlice_tim : (modSlice s i f).tim = s.tim := rfl
@[simp] theorem modSlice_hst : (modSlice s i f).hst = s.hst := rfl
@[simp] theorem modSlice_recd : (modSlice s i f).recd = s.recd := rfl
@[simp] theorem modSlice_par : (modSlice s i f).par = s.par := rfl
@[simp] theorem modSlice_upd : (modSlice s i f).upd = s.upd := rfl
@[simp] theorem modSlice_pnl : (modSlice s i f).pnl = s.pnl := rfl

end

section
variable (s : State) (f : Trc → Trc)

@[simp] theorem modTrc_pending : (modTrc s f).pending = s.pending := rfl
@[simp] theorem modTrc_variant : (modTrc s f).variant = s.variant := rfl
@[simp] theorem modTrc_now : (modTrc s f).now = s.now := rfl
@[simp] theorem modTrc_fresh : (modTrc s f).fresh = s.fresh := rfl
@[simp] theorem modTrc_regs : (modTrc s f).regs = s.regs := rfl
@[simp] theorem modTrc_shadow : (modTrc s f).shadow = s.shadow := rfl
@[simp] theorem modTrc_frozen : (modTrc s f).frozen = s.frozen := rfl
@[simp] theorem modTrc_kept : (modTrc s f).kept = s.kept := rfl
@[simp] theorem modTrc_mem : (modTrc s f).mem = s.mem := rfl
@[simp] theorem modTrc_arb : (modTrc s f).arb = s.arb := rfl
@[simp] theorem modTrc_flash : (modTrc s f).flash = s.flash := rfl
@[simp] theorem modTrc_tx : (modTrc s f).tx = s.tx := rfl
@[simp] theorem modTrc_kln : (modTrc s f).kln = s.kln := rfl
@[simp] theorem modTrc_crd : (modTrc s f).crd = s.crd := rfl
@[simp] theorem modTrc_emb : (modTrc s f).emb = s.emb := rfl
@[simp] theorem modTrc_chn : (modTrc s f).chn = s.chn := rfl
@[simp] theorem modTrc_mea : (modTrc s f).mea = s.mea := rfl
@[simp] theorem modTrc_est : (modTrc s f).est = s.est := rfl
@[simp] theorem modTrc_imp : (modTrc s f).imp = s.imp := rfl
@[simp] theorem modTrc_ctl : (modTrc s f).ctl = s.ctl := rfl
@[simp] theorem modTrc_hrp : (modTrc s f).hrp = s.hrp := rfl
@[simp] theorem modTrc_thm : (modTrc s f).thm = s.thm := rfl
@[simp] theorem modTrc_saf : (modTrc s f).saf = s.saf := rfl
@[simp] theorem modTrc_lgc : (modTrc s f).lgc = s.lgc := rfl
@[simp] theorem modTrc_fio : (modTrc s f).fio = s.fio := rfl
@[simp] theorem modTrc_can : (modTrc s f).can = s.can := rfl
@[simp] theorem modTrc_tim : (modTrc s f).tim = s.tim := rfl
@[simp] theorem modTrc_hst : (modTrc s f).hst = s.hst := rfl
@[simp] theorem modTrc_recd : (modTrc s f).recd = s.recd := rfl
@[simp] theorem modTrc_par : (modTrc s f).par = s.par := rfl
@[simp] theorem modTrc_upd : (modTrc s f).upd = s.upd := rfl
@[simp] theorem modTrc_pnl : (modTrc s f).pnl = s.pnl := rfl

end

section
variable (s : State) (k : Nat) (f : EstStr → EstStr)

@[simp] theorem modEstr_pending : (modEstr s k f).pending = s.pending := rfl
@[simp] theorem modEstr_variant : (modEstr s k f).variant = s.variant := rfl
@[simp] theorem modEstr_now : (modEstr s k f).now = s.now := rfl
@[simp] theorem modEstr_fresh : (modEstr s k f).fresh = s.fresh := rfl
@[simp] theorem modEstr_regs : (modEstr s k f).regs = s.regs := rfl
@[simp] theorem modEstr_shadow : (modEstr s k f).shadow = s.shadow := rfl
@[simp] theorem modEstr_frozen : (modEstr s k f).frozen = s.frozen := rfl
@[simp] theorem modEstr_kept : (modEstr s k f).kept = s.kept := rfl
@[simp] theorem modEstr_mem : (modEstr s k f).mem = s.mem := rfl
@[simp] theorem modEstr_arb : (modEstr s k f).arb = s.arb := rfl
@[simp] theorem modEstr_flash : (modEstr s k f).flash = s.flash := rfl
@[simp] theorem modEstr_tx : (modEstr s k f).tx = s.tx := rfl
@[simp] theorem modEstr_kln : (modEstr s k f).kln = s.kln := rfl
@[simp] theorem modEstr_crd : (modEstr s k f).crd = s.crd := rfl
@[simp] theorem modEstr_emb : (modEstr s k f).emb = s.emb := rfl
@[simp] theorem modEstr_chn : (modEstr s k f).chn = s.chn := rfl
@[simp] theorem modEstr_mea : (modEstr s k f).mea = s.mea := rfl
@[simp] theorem modEstr_trc : (modEstr s k f).trc = s.trc := rfl
@[simp] theorem modEstr_imp : (modEstr s k f).imp = s.imp := rfl
@[simp] theorem modEstr_ctl : (modEstr s k f).ctl = s.ctl := rfl
@[simp] theorem modEstr_hrp : (modEstr s k f).hrp = s.hrp := rfl
@[simp] theorem modEstr_thm : (modEstr s k f).thm = s.thm := rfl
@[simp] theorem modEstr_saf : (modEstr s k f).saf = s.saf := rfl
@[simp] theorem modEstr_lgc : (modEstr s k f).lgc = s.lgc := rfl
@[simp] theorem modEstr_fio : (modEstr s k f).fio = s.fio := rfl
@[simp] theorem modEstr_can : (modEstr s k f).can = s.can := rfl
@[simp] theorem modEstr_tim : (modEstr s k f).tim = s.tim := rfl
@[simp] theorem modEstr_hst : (modEstr s k f).hst = s.hst := rfl
@[simp] theorem modEstr_recd : (modEstr s k f).recd = s.recd := rfl
@[simp] theorem modEstr_par : (modEstr s k f).par = s.par := rfl
@[simp] theorem modEstr_upd : (modEstr s k f).upd = s.upd := rfl
@[simp] theorem modEstr_pnl : (modEstr s k f).pnl = s.pnl := rfl

end

section
variable (s : State) (n : Nat) (f : CellS → CellS)

@[simp] theorem modCell_pending : (modCell s n f).pending = s.pending := rfl
@[simp] theorem modCell_variant : (modCell s n f).variant = s.variant := rfl
@[simp] theorem modCell_now : (modCell s n f).now = s.now := rfl
@[simp] theorem modCell_fresh : (modCell s n f).fresh = s.fresh := rfl
@[simp] theorem modCell_regs : (modCell s n f).regs = s.regs := rfl
@[simp] theorem modCell_shadow : (modCell s n f).shadow = s.shadow := rfl
@[simp] theorem modCell_frozen : (modCell s n f).frozen = s.frozen := rfl
@[simp] theorem modCell_kept : (modCell s n f).kept = s.kept := rfl
@[simp] theorem modCell_mem : (modCell s n f).mem = s.mem := rfl
@[simp] theorem modCell_arb : (modCell s n f).arb = s.arb := rfl
@[simp] theorem modCell_flash : (modCell s n f).flash = s.flash := rfl
@[simp] theorem modCell_tx : (modCell s n f).tx = s.tx := rfl
@[simp] theorem modCell_kln : (modCell s n f).kln = s.kln := rfl
@[simp] theorem modCell_crd : (modCell s n f).crd = s.crd := rfl
@[simp] theorem modCell_emb : (modCell s n f).emb = s.emb := rfl
@[simp] theorem modCell_chn : (modCell s n f).chn = s.chn := rfl
@[simp] theorem modCell_mea : (modCell s n f).mea = s.mea := rfl
@[simp] theorem modCell_trc : (modCell s n f).trc = s.trc := rfl
@[simp] theorem modCell_imp : (modCell s n f).imp = s.imp := rfl
@[simp] theorem modCell_ctl : (modCell s n f).ctl = s.ctl := rfl
@[simp] theorem modCell_hrp : (modCell s n f).hrp = s.hrp := rfl
@[simp] theorem modCell_thm : (modCell s n f).thm = s.thm := rfl
@[simp] theorem modCell_saf : (modCell s n f).saf = s.saf := rfl
@[simp] theorem modCell_lgc : (modCell s n f).lgc = s.lgc := rfl
@[simp] theorem modCell_fio : (modCell s n f).fio = s.fio := rfl
@[simp] theorem modCell_can : (modCell s n f).can = s.can := rfl
@[simp] theorem modCell_tim : (modCell s n f).tim = s.tim := rfl
@[simp] theorem modCell_hst : (modCell s n f).hst = s.hst := rfl
@[simp] theorem modCell_recd : (modCell s n f).recd = s.recd := rfl
@[simp] theorem modCell_par : (modCell s n f).par = s.par := rfl
@[simp] theorem modCell_upd : (modCell s n f).upd = s.upd := rfl
@[simp] theorem modCell_pnl : (modCell s n f).pnl = s.pnl := rfl

end

section
variable (s : State) (k : Nat) (f : ImpS → ImpS)

@[simp] theorem modImp_pending : (modImp s k f).pending = s.pending := rfl
@[simp] theorem modImp_variant : (modImp s k f).variant = s.variant := rfl
@[simp] theorem modImp_now : (modImp s k f).now = s.now := rfl
@[simp] theorem modImp_fresh : (modImp s k f).fresh = s.fresh := rfl
@[simp] theorem modImp_regs : (modImp s k f).regs = s.regs := rfl
@[simp] theorem modImp_shadow : (modImp s k f).shadow = s.shadow := rfl
@[simp] theorem modImp_frozen : (modImp s k f).frozen = s.frozen := rfl
@[simp] theorem modImp_kept : (modImp s k f).kept = s.kept := rfl
@[simp] theorem modImp_mem : (modImp s k f).mem = s.mem := rfl
@[simp] theorem modImp_arb : (modImp s k f).arb = s.arb := rfl
@[simp] theorem modImp_flash : (modImp s k f).flash = s.flash := rfl
@[simp] theorem modImp_tx : (modImp s k f).tx = s.tx := rfl
@[simp] theorem modImp_kln : (modImp s k f).kln = s.kln := rfl
@[simp] theorem modImp_crd : (modImp s k f).crd = s.crd := rfl
@[simp] theorem modImp_emb : (modImp s k f).emb = s.emb := rfl
@[simp] theorem modImp_chn : (modImp s k f).chn = s.chn := rfl
@[simp] theorem modImp_mea : (modImp s k f).mea = s.mea := rfl
@[simp] theorem modImp_trc : (modImp s k f).trc = s.trc := rfl
@[simp] theorem modImp_est : (modImp s k f).est = s.est := rfl
@[simp] theorem modImp_ctl : (modImp s k f).ctl = s.ctl := rfl
@[simp] theorem modImp_hrp : (modImp s k f).hrp = s.hrp := rfl
@[simp] theorem modImp_thm : (modImp s k f).thm = s.thm := rfl
@[simp] theorem modImp_saf : (modImp s k f).saf = s.saf := rfl
@[simp] theorem modImp_lgc : (modImp s k f).lgc = s.lgc := rfl
@[simp] theorem modImp_fio : (modImp s k f).fio = s.fio := rfl
@[simp] theorem modImp_can : (modImp s k f).can = s.can := rfl
@[simp] theorem modImp_tim : (modImp s k f).tim = s.tim := rfl
@[simp] theorem modImp_hst : (modImp s k f).hst = s.hst := rfl
@[simp] theorem modImp_recd : (modImp s k f).recd = s.recd := rfl
@[simp] theorem modImp_par : (modImp s k f).par = s.par := rfl
@[simp] theorem modImp_upd : (modImp s k f).upd = s.upd := rfl
@[simp] theorem modImp_pnl : (modImp s k f).pnl = s.pnl := rfl

end

section
variable (s : State) (n : Nat) (f : Ctx → Ctx)

@[simp] theorem modCtx_pending : (modCtx s n f).pending = s.pending := rfl
@[simp] theorem modCtx_variant : (modCtx s n f).variant = s.variant := rfl
@[simp] theorem modCtx_now : (modCtx s n f).now = s.now := rfl
@[simp] theorem modCtx_fresh : (modCtx s n f).fresh = s.fresh := rfl
@[simp] theorem modCtx_regs : (modCtx s n f).regs = s.regs := rfl
@[simp] theorem modCtx_shadow : (modCtx s n f).shadow = s.shadow := rfl
@[simp] theorem modCtx_frozen : (modCtx s n f).frozen = s.frozen := rfl
@[simp] theorem modCtx_kept : (modCtx s n f).kept = s.kept := rfl
@[simp] theorem modCtx_mem : (modCtx s n f).mem = s.mem := rfl
@[simp] theorem modCtx_arb : (modCtx s n f).arb = s.arb := rfl
@[simp] theorem modCtx_flash : (modCtx s n f).flash = s.flash := rfl
@[simp] theorem modCtx_tx : (modCtx s n f).tx = s.tx := rfl
@[simp] theorem modCtx_kln : (modCtx s n f).kln = s.kln := rfl
@[simp] theorem modCtx_crd : (modCtx s n f).crd = s.crd := rfl
@[simp] theorem modCtx_emb : (modCtx s n f).emb = s.emb := rfl
@[simp] theorem modCtx_chn : (modCtx s n f).chn = s.chn := rfl
@[simp] theorem modCtx_mea : (modCtx s n f).mea = s.mea := rfl
@[simp] theorem modCtx_trc : (modCtx s n f).trc = s.trc := rfl
@[simp] theorem modCtx_est : (modCtx s n f).est = s.est := rfl
@[simp] theorem modCtx_imp : (modCtx s n f).imp = s.imp := rfl
@[simp] theorem modCtx_hrp : (modCtx s n f).hrp = s.hrp := rfl
@[simp] theorem modCtx_thm : (modCtx s n f).thm = s.thm := rfl
@[simp] theorem modCtx_saf : (modCtx s n f).saf = s.saf := rfl
@[simp] theorem modCtx_lgc : (modCtx s n f).lgc = s.lgc := rfl
@[simp] theorem modCtx_fio : (modCtx s n f).fio = s.fio := rfl
@[simp] theorem modCtx_can : (modCtx s n f).can = s.can := rfl
@[simp] theorem modCtx_tim : (modCtx s n f).tim = s.tim := rfl
@[simp] theorem modCtx_hst : (modCtx s n f).hst = s.hst := rfl
@[simp] theorem modCtx_recd : (modCtx s n f).recd = s.recd := rfl
@[simp] theorem modCtx_par : (modCtx s n f).par = s.par := rfl
@[simp] theorem modCtx_upd : (modCtx s n f).upd = s.upd := rfl
@[simp] theorem modCtx_pnl : (modCtx s n f).pnl = s.pnl := rfl

end

section
variable (s : State) (k : Nat) (f : Conv → Conv)

@[simp] theorem modConv_pending : (modConv s k f).pending = s.pending := rfl
@[simp] theorem modConv_variant : (modConv s k f).variant = s.variant := rfl
@[simp] theorem modConv_now : (modConv s k f).now = s.now := rfl
@[simp] theorem modConv_fresh : (modConv s k f).fresh = s.fresh := rfl
@[simp] theorem modConv_regs : (modConv s k f).regs = s.regs := rfl
@[simp] theorem modConv_shadow : (modConv s k f).shadow = s.shadow := rfl
@[simp] theorem modConv_frozen : (modConv s k f).frozen = s.frozen := rfl
@[simp] theorem modConv_kept : (modConv s k f).kept = s.kept := rfl
@[simp] theorem modConv_mem : (modConv s k f).mem = s.mem := rfl
@[simp] theorem modConv_arb : (modConv s k f).arb = s.arb := rfl
@[simp] theorem modConv_flash : (modConv s k f).flash = s.flash := rfl
@[simp] theorem modConv_tx : (modConv s k f).tx = s.tx := rfl
@[simp] theorem modConv_kln : (modConv s k f).kln = s.kln := rfl
@[simp] theorem modConv_crd : (modConv s k f).crd = s.crd := rfl
@[simp] theorem modConv_emb : (modConv s k f).emb = s.emb := rfl
@[simp] theorem modConv_chn : (modConv s k f).chn = s.chn := rfl
@[simp] theorem modConv_mea : (modConv s k f).mea = s.mea := rfl
@[simp] theorem modConv_trc : (modConv s k f).trc = s.trc := rfl
@[simp] theorem modConv_est : (modConv s k f).est = s.est := rfl
@[simp] theorem modConv_imp : (modConv s k f).imp = s.imp := rfl
@[simp] theorem modConv_hrp : (modConv s k f).hrp = s.hrp := rfl
@[simp] theorem modConv_thm : (modConv s k f).thm = s.thm := rfl
@[simp] theorem modConv_saf : (modConv s k f).saf = s.saf := rfl
@[simp] theorem modConv_lgc : (modConv s k f).lgc = s.lgc := rfl
@[simp] theorem modConv_fio : (modConv s k f).fio = s.fio := rfl
@[simp] theorem modConv_can : (modConv s k f).can = s.can := rfl
@[simp] theorem modConv_tim : (modConv s k f).tim = s.tim := rfl
@[simp] theorem modConv_hst : (modConv s k f).hst = s.hst := rfl
@[simp] theorem modConv_recd : (modConv s k f).recd = s.recd := rfl
@[simp] theorem modConv_par : (modConv s k f).par = s.par := rfl
@[simp] theorem modConv_upd : (modConv s k f).upd = s.upd := rfl
@[simp] theorem modConv_pnl : (modConv s k f).pnl = s.pnl := rfl

end

section
variable (s : State) (g : Nat) (f : Gen → Gen)

@[simp] theorem modGen_pending : (modGen s g f).pending = s.pending := rfl
@[simp] theorem modGen_variant : (modGen s g f).variant = s.variant := rfl
@[simp] theorem modGen_now : (modGen s g f).now = s.now := rfl
@[simp] theorem modGen_fresh : (modGen s g f).fresh = s.fresh := rfl
@[simp] theorem modGen_regs : (modGen s g f).regs = s.regs := rfl
@[simp] theorem modGen_shadow : (modGen s g f).shadow = s.shadow := rfl
@[simp] theorem modGen_frozen : (modGen s g f).frozen = s.frozen := rfl
@[simp] theorem modGen_kept : (modGen s g f).kept = s.kept := rfl
@[simp] theorem modGen_mem : (modGen s g f).mem = s.mem := rfl
@[simp] theorem modGen_arb : (modGen s g f).arb = s.arb := rfl
@[simp] theorem modGen_flash : (modGen s g f).flash = s.flash := rfl
@[simp] theorem modGen_tx : (modGen s g f).tx = s.tx := rfl
@[simp] theorem modGen_kln : (modGen s g f).kln = s.kln := rfl
@[simp] theorem modGen_crd : (modGen s g f).crd = s.crd := rfl
@[simp] theorem modGen_emb : (modGen s g f).emb = s.emb := rfl
@[simp] theorem modGen_chn : (modGen s g f).chn = s.chn := rfl
@[simp] theorem modGen_mea : (modGen s g f).mea = s.mea := rfl
@[simp] theorem modGen_trc : (modGen s g f).trc = s.trc := rfl
@[simp] theorem modGen_est : (modGen s g f).est = s.est := rfl
@[simp] theorem modGen_imp : (modGen s g f).imp = s.imp := rfl
@[simp] theorem modGen_hrp : (modGen s g f).hrp = s.hrp := rfl
@[simp] theorem modGen_thm : (modGen s g f).thm = s.thm := rfl
@[simp] theorem modGen_saf : (modGen s g f).saf = s.saf := rfl
@[simp] theorem modGen_lgc : (modGen s g f).lgc = s.lgc := rfl
@[simp] theorem modGen_fio : (modGen s g f).fio = s.fio := rfl
@[simp] theorem modGen_can : (modGen s g f).can = s.can := rfl
@[simp] theorem modGen_tim : (modGen s g f).tim = s.tim := rfl
@[simp] theorem modGen_hst : (modGen s g f).hst = s.hst := rfl
@[simp] theorem modGen_recd : (modGen s g f).recd = s.recd := rfl
@[simp] theorem modGen_par : (modGen s g f).par = s.par := rfl
@[simp] theorem modGen_upd : (modGen s g f).upd = s.upd := rfl
@[simp] theorem modGen_pnl : (modGen s g f).pnl = s.pnl := rfl

end

section
variable (s : State) (c : Nat) (f : Cap → Cap)

@[simp] theorem modCap_pending : (modCap s c f).pending = s.pending := rfl
@[simp] theorem modCap_variant : (modCap s c f).variant = s.variant := rfl
@[simp] theorem modCap_now : (modCap s c f).now = s.now := rfl
@[simp] theorem modCap_fresh : (modCap s c f).fresh = s.fresh := rfl
@[simp] theorem modCap_regs : (modCap s c f).regs = s.regs := rfl
@[simp] theorem modCap_shadow : (modCap s c f).shadow = s.shadow := rfl
@[simp] theorem modCap_frozen : (modCap s c f).frozen = s.frozen := rfl
@[simp] theorem modCap_kept : (modCap s c f).kept = s.kept := rfl
@[simp] theorem modCap_mem : (modCap s c f).mem = s.mem := rfl
@[simp] theorem modCap_arb : (modCap s c f).arb = s.arb := rfl
@[simp] theorem modCap_flash : (modCap s c f).flash = s.flash := rfl
@[simp] theorem modCap_tx : (modCap s c f).tx = s.tx := rfl
@[simp] theorem modCap_kln : (modCap s c f).kln = s.kln := rfl
@[simp] theorem modCap_crd : (modCap s c f).crd = s.crd := rfl
@[simp] theorem modCap_emb : (modCap s c f).emb = s.emb := rfl
@[simp] theorem modCap_chn : (modCap s c f).chn = s.chn := rfl
@[simp] theorem modCap_mea : (modCap s c f).mea = s.mea := rfl
@[simp] theorem modCap_trc : (modCap s c f).trc = s.trc := rfl
@[simp] theorem modCap_est : (modCap s c f).est = s.est := rfl
@[simp] theorem modCap_imp : (modCap s c f).imp = s.imp := rfl
@[simp] theorem modCap_hrp : (modCap s c f).hrp = s.hrp := rfl
@[simp] theorem modCap_thm : (modCap s c f).thm = s.thm := rfl
@[simp] theorem modCap_saf : (modCap s c f).saf = s.saf := rfl
@[simp] theorem modCap_lgc : (modCap s c f).lgc = s.lgc := rfl
@[simp] theorem modCap_fio : (modCap s c f).fio = s.fio := rfl
@[simp] theorem modCap_can : (modCap s c f).can = s.can := rfl
@[simp] theorem modCap_tim : (modCap s c f).tim = s.tim := rfl
@[simp] theorem modCap_hst : (modCap s c f).hst = s.hst := rfl
@[simp] theorem modCap_recd : (modCap s c f).recd = s.recd := rfl
@[simp] theorem modCap_par : (modCap s c f).par = s.par := rfl
@[simp] theorem modCap_upd : (modCap s c f).upd = s.upd := rfl
@[simp] theorem modCap_pnl : (modCap s c f).pnl = s.pnl := rfl

end

section
variable (s : State) (j : Nat) (f : Pwm → Pwm)

@[simp] theorem modPwm_pending : (modPwm s j f).pending = s.pending := rfl
@[simp] theorem modPwm_variant : (modPwm s j f).variant = s.variant := rfl
@[simp] theorem modPwm_now : (modPwm s j f).now = s.now := rfl
@[simp] theorem modPwm_fresh : (modPwm s j f).fresh = s.fresh := rfl
@[simp] theorem modPwm_regs : (modPwm s j f).regs = s.regs := rfl
@[simp] theorem modPwm_shadow : (modPwm s j f).shadow = s.shadow := rfl
@[simp] theorem modPwm_frozen : (modPwm s j f).frozen = s.frozen := rfl
@[simp] theorem modPwm_kept : (modPwm s j f).kept = s.kept := rfl
@[simp] theorem modPwm_mem : (modPwm s j f).mem = s.mem := rfl
@[simp] theorem modPwm_arb : (modPwm s j f).arb = s.arb := rfl
@[simp] theorem modPwm_flash : (modPwm s j f).flash = s.flash := rfl
@[simp] theorem modPwm_tx : (modPwm s j f).tx = s.tx := rfl
@[simp] theorem modPwm_kln : (modPwm s j f).kln = s.kln := rfl
@[simp] theorem modPwm_crd : (modPwm s j f).crd = s.crd := rfl
@[simp] theorem modPwm_emb : (modPwm s j f).emb = s.emb := rfl
@[simp] theorem modPwm_chn : (modPwm s j f).chn = s.chn := rfl
@[simp] theorem modPwm_mea : (modPwm s j f).mea = s.mea := rfl
@[simp] theorem modPwm_trc : (modPwm s j f).trc = s.trc := rfl
@[simp] theorem modPwm_est : (modPwm s j f).est = s.est := rfl
@[simp] theorem modPwm_imp : (modPwm s j f).imp = s.imp := rfl
@[simp] theorem modPwm_ctl : (modPwm s j f).ctl = s.ctl := rfl
@[simp] theorem modPwm_thm : (modPwm s j f).thm = s.thm := rfl
@[simp] theorem modPwm_saf : (modPwm s j f).saf = s.saf := rfl
@[simp] theorem modPwm_lgc : (modPwm s j f).lgc = s.lgc := rfl
@[simp] theorem modPwm_fio : (modPwm s j f).fio = s.fio := rfl
@[simp] theorem modPwm_can : (modPwm s j f).can = s.can := rfl
@[simp] theorem modPwm_tim : (modPwm s j f).tim = s.tim := rfl
@[simp] theorem modPwm_hst : (modPwm s j f).hst = s.hst := rfl
@[simp] theorem modPwm_recd : (modPwm s j f).recd = s.recd := rfl
@[simp] theorem modPwm_par : (modPwm s j f).par = s.par := rfl
@[simp] theorem modPwm_upd : (modPwm s j f).upd = s.upd := rfl
@[simp] theorem modPwm_pnl : (modPwm s j f).pnl = s.pnl := rfl

end

section
variable (s : State) (k : Nat) (f : ThmStr → ThmStr)

@[simp] theorem modThmStr_pending : (modThmStr s k f).pending = s.pending := rfl
@[simp] theorem modThmStr_variant : (modThmStr s k f).variant = s.variant := rfl
@[simp] theorem modThmStr_now : (modThmStr s k f).now = s.now := rfl
@[simp] theorem modThmStr_fresh : (modThmStr s k f).fresh = s.fresh := rfl
@[simp] theorem modThmStr_regs : (modThmStr s k f).regs = s.regs := rfl
@[simp] theorem modThmStr_shadow : (modThmStr s k f).shadow = s.shadow := rfl
@[simp] theorem modThmStr_frozen : (modThmStr s k f).frozen = s.frozen := rfl
@[simp] theorem modThmStr_kept : (modThmStr s k f).kept = s.kept := rfl
@[simp] theorem modThmStr_mem : (modThmStr s k f).mem = s.mem := rfl
@[simp] theorem modThmStr_arb : (modThmStr s k f).arb = s.arb := rfl
@[simp] theorem modThmStr_flash : (modThmStr s k f).flash = s.flash := rfl
@[simp] theorem modThmStr_tx : (modThmStr s k f).tx = s.tx := rfl
@[simp] theorem modThmStr_kln : (modThmStr s k f).kln = s.kln := rfl
@[simp] theorem modThmStr_crd : (modThmStr s k f).crd = s.crd := rfl
@[simp] theorem modThmStr_emb : (modThmStr s k f).emb = s.emb := rfl
@[simp] theorem modThmStr_chn : (modThmStr s k f).chn = s.chn := rfl
@[simp] theorem modThmStr_mea : (modThmStr s k f).mea = s.mea := rfl
@[simp] theorem modThmStr_trc : (modThmStr s k f).trc = s.trc := rfl
@[simp] theorem modThmStr_est : (modThmStr s k f).est = s.est := rfl
@[simp] theorem modThmStr_imp : (modThmStr s k f).imp = s.imp := rfl
@[simp] theorem modThmStr_ctl : (modThmStr s k f).ctl = s.ctl := rfl
@[simp] theorem modThmStr_hrp : (modThmStr s k f).hrp = s.hrp := rfl
@[simp] theorem modThmStr_saf : (modThmStr s k f).saf = s.saf := rfl
@[simp] theorem modThmStr_lgc : (modThmStr s k f).lgc = s.lgc := rfl
@[simp] theorem modThmStr_fio : (modThmStr s k f).fio = s.fio := rfl
@[simp] theorem modThmStr_can : (modThmStr s k f).can = s.can := rfl
@[simp] theorem modThmStr_tim : (modThmStr s k f).tim = s.tim := rfl
@[simp] theorem modThmStr_hst : (modThmStr s k f).hst = s.hst := rfl
@[simp] theorem modThmStr_recd : (modThmStr s k f).recd = s.recd := rfl
@[simp] theorem modThmStr_par : (modThmStr s k f).par = s.par := rfl
@[simp] theorem modThmStr_upd : (modThmStr s k f).upd = s.upd := rfl
@[simp] theorem modThmStr_pnl : (modThmStr s k f).pnl = s.pnl := rfl

end

section
variable (s : State) (f : Saf → Saf)

@[simp] theorem modSaf_pending : (modSaf s f).pending = s.pending := rfl
@[simp] theorem modSaf_variant : (modSaf s f).variant = s.variant := rfl
@[simp] theorem modSaf_now : (modSaf s f).now = s.now := rfl
@[simp] theorem modSaf_fresh : (modSaf s f).fresh = s.fresh := rfl
@[simp] theorem modSaf_regs : (modSaf s f).regs = s.regs := rfl
@[simp] theorem modSaf_shadow : (modSaf s f).shadow = s.shadow := rfl
@[simp] theorem modSaf_frozen : (modSaf s f).frozen = s.frozen := rfl
@[simp] theorem modSaf_kept : (modSaf s f).kept = s.kept := rfl
@[simp] theorem modSaf_mem : (modSaf s f).mem = s.mem := rfl
@[simp] theorem modSaf_arb : (modSaf s f).arb = s.arb := rfl
@[simp] theorem modSaf_flash : (modSaf s f).flash = s.flash := rfl
@[simp] theorem modSaf_tx : (modSaf s f).tx = s.tx := rfl
@[simp] theorem modSaf_kln : (modSaf s f).kln = s.kln := rfl
@[simp] theorem modSaf_crd : (modSaf s f).crd = s.crd := rfl
@[simp] theorem modSaf_emb : (modSaf s f).emb = s.emb := rfl
@[simp] theorem modSaf_chn : (modSaf s f).chn = s.chn := rfl
@[simp] theorem modSaf_mea : (modSaf s f).mea = s.mea := rfl
@[simp] theorem modSaf_trc : (modSaf s f).trc = s.trc := rfl
@[simp] theorem modSaf_est : (modSaf s f).est = s.est := rfl
@[simp] theorem modSaf_imp : (modSaf s f).imp = s.imp := rfl
@[simp] theorem modSaf_ctl : (modSaf s f).ctl = s.ctl := rfl
@[simp] theorem modSaf_hrp : (modSaf s f).hrp = s.hrp := rfl
@[simp] theorem modSaf_thm : (modSaf s f).thm = s.thm := rfl
@[simp] theorem modSaf_lgc : (modSaf s f).lgc = s.lgc := rfl
@[simp] theorem modSaf_fio : (modSaf s f).fio = s.fio := rfl
@[simp] theorem modSaf_can : (modSaf s f).can = s.can := rfl
@[simp] theorem modSaf_tim : (modSaf s f).tim = s.tim := rfl
@[simp] theorem modSaf_hst : (modSaf s f).hst = s.hst := rfl
@[simp] theorem modSaf_recd : (modSaf s f).recd = s.recd := rfl
@[simp] theorem modSaf_par : (modSaf s f).par = s.par := rfl
@[simp] theorem modSaf_upd : (modSaf s f).upd = s.upd := rfl
@[simp] theorem modSaf_pnl : (modSaf s f).pnl = s.pnl := rfl

end

section
variable (s : State) (f : Lgc → Lgc)

@[simp] theorem modLgc_pending : (modLgc s f).pending = s.pending := rfl
@[simp] theorem modLgc_variant : (modLgc s f).variant = s.variant := rfl
@[simp] theorem modLgc_now : (modLgc s f).now = s.now := rfl
@[simp] theorem modLgc_fresh : (modLgc s f).fresh = s.fresh := rfl
@[simp] theorem modLgc_regs : (modLgc s f).regs = s.regs := rfl
@[simp] theorem modLgc_shadow : (modLgc s f).shadow = s.shadow := rfl
@[simp] theorem modLgc_frozen : (modLgc s f).frozen = s.frozen := rfl
@[simp] theorem modLgc_kept : (modLgc s f).kept = s.kept := rfl
@[simp] theorem modLgc_mem : (modLgc s f).mem = s.mem := rfl
@[simp] theorem modLgc_arb : (modLgc s f).arb = s.arb := rfl
@[simp] theorem modLgc_flash : (modLgc s f).flash = s.flash := rfl
@[simp] theorem modLgc_tx : (modLgc s f).tx = s.tx := rfl
@[simp] theorem modLgc_kln : (modLgc s f).kln = s.kln := rfl
@[simp] theorem modLgc_crd : (modLgc s f).crd = s.crd := rfl
@[simp] theorem modLgc_emb : (modLgc s f).emb = s.emb := rfl
@[simp] theorem modLgc_chn : (modLgc s f).chn = s.chn := rfl
@[simp] theorem modLgc_mea : (modLgc s f).mea = s.mea := rfl
@[simp] theorem modLgc_trc : (modLgc s f).trc = s.trc := rfl
@[simp] theorem modLgc_est : (modLgc s f).est = s.est := rfl
@[simp] theorem modLgc_imp : (modLgc s f).imp = s.imp := rfl
@[simp] theorem modLgc_ctl : (modLgc s f).ctl = s.ctl := rfl
@[simp] theorem modLgc_hrp : (modLgc s f).hrp = s.hrp := rfl
@[simp] theorem modLgc_thm : (modLgc s f).thm = s.thm := rfl
@[simp] theorem modLgc_saf : (modLgc s f).saf = s.saf := rfl
@[simp] theorem modLgc_fio : (modLgc s f).fio = s.fio := rfl
@[simp] theorem modLgc_can : (modLgc s f).can = s.can := rfl
@[simp] theorem modLgc_tim : (modLgc s f).tim = s.tim := rfl
@[simp] theorem modLgc_hst : (modLgc s f).hst = s.hst := rfl
@[simp] theorem modLgc_recd : (modLgc s f).recd = s.recd := rfl
@[simp] theorem modLgc_par : (modLgc s f).par = s.par := rfl
@[simp] theorem modLgc_upd : (modLgc s f).upd = s.upd := rfl
@[simp] theorem modLgc_pnl : (modLgc s f).pnl = s.pnl := rfl

end

section
variable (s : State) (f : Fio → Fio)

@[simp] theorem modFio_pending : (modFio s f).pending = s.pending := rfl
@[simp] theorem modFio_variant : (modFio s f).variant = s.variant := rfl
@[simp] theorem modFio_now : (modFio s f).now = s.now := rfl
@[simp] theorem modFio_fresh : (modFio s f).fresh = s.fresh := rfl
@[simp] theorem modFio_regs : (modFio s f).regs = s.regs := rfl
@[simp] theorem modFio_shadow : (modFio s f).shadow = s.shadow := rfl
@[simp] theorem modFio_frozen : (modFio s f).frozen = s.frozen := rfl
@[simp] theorem modFio_kept : (modFio s f).kept = s.kept := rfl
@[simp] theorem modFio_mem : (modFio s f).mem = s.mem := rfl
@[simp] theorem modFio_arb : (modFio s f).arb = s.arb := rfl
@[simp] theorem modFio_flash : (modFio s f).flash = s.flash := rfl
@[simp] theorem modFio_tx : (modFio s f).tx = s.tx := rfl
@[simp] theorem modFio_kln : (modFio s f).kln = s.kln := rfl
@[simp] theorem modFio_crd : (modFio s f).crd = s.crd := rfl
@[simp] theorem modFio_emb : (modFio s f).emb = s.emb := rfl
@[simp] theorem modFio_chn : (modFio s f).chn = s.chn := rfl
@[simp] theorem modFio_mea : (modFio s f).mea = s.mea := rfl
@[simp] theorem modFio_trc : (modFio s f).trc = s.trc := rfl
@[simp] theorem modFio_est : (modFio s f).est = s.est := rfl
@[simp] theorem modFio_imp : (modFio s f).imp = s.imp := rfl
@[simp] theorem modFio_ctl : (modFio s f).ctl = s.ctl := rfl
@[simp] theorem modFio_hrp : (modFio s f).hrp = s.hrp := rfl
@[simp] theorem modFio_thm : (modFio s f).thm = s.thm := rfl
@[simp] theorem modFio_saf : (modFio s f).saf = s.saf := rfl
@[simp] theorem modFio_lgc : (modFio s f).lgc = s.lgc := rfl
@[simp] theorem modFio_can : (modFio s f).can = s.can := rfl
@[simp] theorem modFio_tim : (modFio s f).tim = s.tim := rfl
@[simp] theorem modFio_hst : (modFio s f).hst = s.hst := rfl
@[simp] theorem modFio_recd : (modFio s f).recd = s.recd := rfl
@[simp] theorem modFio_par : (modFio s f).par = s.par := rfl
@[simp] theorem modFio_upd : (modFio s f).upd = s.upd := rfl
@[simp] theorem modFio_pnl : (modFio s f).pnl = s.pnl := rfl

end

section
variable (s : State) (c : Nat) (f : Can → Can)

@[simp] theorem modCan_pending : (modCan s c f).pending = s.pending := rfl
@[simp] theorem modCan_variant : (modCan s c f).variant = s.variant := rfl
@[simp] theorem modCan_now : (modCan s c f).now = s.now := rfl
@[simp] theorem modCan_fresh : (modCan s c f).fresh = s.fresh := rfl
@[simp] theorem modCan_regs : (modCan s c f).regs = s.regs := rfl
@[simp] theorem modCan_shadow : (modCan s c f).shadow = s.shadow := rfl
@[simp] theorem modCan_frozen : (modCan s c f).frozen = s.frozen := rfl
@[simp] theorem modCan_kept : (modCan s c f).kept = s.kept := rfl
@[simp] theorem modCan_mem : (modCan s c f).mem = s.mem := rfl
@[simp] theorem modCan_arb : (modCan s c f).arb = s.arb := rfl
@[simp] theorem modCan_flash : (modCan s c f).flash = s.flash := rfl
@[simp] theorem modCan_tx : (modCan s c f).tx = s.tx := rfl
@[simp] theorem modCan_kln : (modCan s c f).kln = s.kln := rfl
@[simp] theorem modCan_crd : (modCan s c f).crd = s.crd := rfl
@[simp] theorem modCan_emb : (modCan s c f).emb = s.emb := rfl
@[simp] theorem modCan_chn : (modCan s c f).chn = s.chn := rfl
@[simp] theorem modCan_mea : (modCan s c f).mea = s.mea := rfl
@[simp] theorem modCan_trc : (modCan s c f).trc = s.trc := rfl
@[simp] theorem modCan_est : (modCan s c f).est = s.est := rfl
@[simp] theorem modCan_imp : (modCan s c f).imp = s.imp := rfl
@[simp] theorem modCan_ctl : (modCan s c f).ctl = s.ctl := rfl
@[simp] theorem modCan_hrp : (modCan s c f).hrp = s.hrp := rfl
@[simp] theorem modCan_thm : (modCan s c f).thm = s.thm := rfl
@[simp] theorem modCan_saf : (modCan s c f).saf = s.saf := rfl
@[simp] theorem modCan_lgc : (modCan s c f).lgc = s.lgc := rfl
@[simp] theorem modCan_fio : (modCan s c f).fio = s.fio := rfl
@[simp] theorem modCan_tim : (modCan s c f).tim = s.tim := rfl
@[simp] theorem modCan_hst : (modCan s c f).hst = s.hst := rfl
@[simp] theorem modCan_recd : (modCan s c f).recd = s.recd := rfl
@[simp] theorem modCan_par : (modCan s c f).par = s.par := rfl
@[simp] theorem modCan_upd : (modCan s c f).upd = s.upd := rfl
@[simp] theorem modCan_pnl : (modCan s c f).pnl = s.pnl := rfl

end

section
variable (s : State) (f : Tim → Tim)

@[simp] theorem modTim_pending : (modTim s f).pending = s.pending := rfl
@[simp] theorem modTim_variant : (modTim s f).variant = s.variant := rfl
@[simp] theorem modTim_now : (modTim s f).now = s.now := rfl
@[simp] theorem modTim_fresh : (modTim s f).fresh = s.fresh := rfl
@[simp] theorem modTim_regs : (modTim s f).regs = s.regs := rfl
@[simp] theorem modTim_shadow : (modTim s f).shadow = s.shadow := rfl
@[simp] theorem modTim_frozen : (modTim s f).frozen = s.frozen := rfl
@[simp] theorem modTim_kept : (modTim s f).kept = s.kept := rfl
@[simp] theorem modTim_mem : (modTim s f).mem = s.mem := rfl
@[simp] theorem modTim_arb : (modTim s f).arb = s.arb := rfl
@[simp] theorem modTim_flash : (modTim s f).flash = s.flash := rfl
@[simp] theorem modTim_tx : (modTim s f).tx = s.tx := rfl
@[simp] theorem modTim_kln : (modTim s f).kln = s.kln := rfl
@[simp] theorem modTim_crd : (modTim s f).crd = s.crd := rfl
@[simp] theorem modTim_emb : (modTim s f).emb = s.emb := rfl
@[simp] theorem modTim_chn : (modTim s f).chn = s.chn := rfl
@[simp] theorem modTim_mea : (modTim s f).mea = s.mea := rfl
@[simp] theorem modTim_trc : (modTim s f).trc = s.trc := rfl
@[simp] theorem modTim_est : (modTim s f).est = s.est := rfl
@[simp] theorem modTim_imp : (modTim s f).imp = s.imp := rfl
@[simp] theorem modTim_ctl : (modTim s f).ctl = s.ctl := rfl
@[simp] theorem modTim_hrp : (modTim s f).hrp = s.hrp := rfl
@[simp] theorem modTim_thm : (modTim s f).thm = s.thm := rfl
@[simp] theorem modTim_saf : (modTim s f).saf = s.saf := rfl
@[simp] theorem modTim_lgc : (modTim s f).lgc = s.lgc := rfl
@[simp] theorem modTim_fio : (modTim s f).fio = s.fio := rfl
@[simp] theorem modTim_can : (modTim s f).can = s.can := rfl
@[simp] theorem modTim_hst : (modTim s f).hst = s.hst := rfl
@[simp] theorem modTim_recd : (modTim s f).recd = s.recd := rfl
@[simp] theorem modTim_par : (modTim s f).par = s.par := rfl
@[simp] theorem modTim_upd : (modTim s f).upd = s.upd := rfl
@[simp] theorem modTim_pnl : (modTim s f).pnl = s.pnl := rfl

end

section
variable (s : State) (f : RecS → RecS)

@[simp] theorem modRec_pending : (modRec s f).pending = s.pending := rfl
@[simp] theorem modRec_variant : (modRec s f).variant = s.variant := rfl
@[simp] theorem modRec_now : (modRec s f).now = s.now := rfl
@[simp] theorem modRec_fresh : (modRec s f).fresh = s.fresh := rfl
@[simp] theorem modRec_regs : (modRec s f).regs = s.regs := rfl
@[simp] theorem modRec_shadow : (modRec s f).shadow = s.shadow := rfl
@[simp] theorem modRec_frozen : (modRec s f).frozen = s.frozen := rfl
@[simp] theorem modRec_kept : (modRec s f).kept = s.kept := rfl
@[simp] theorem modRec_mem : (modRec s f).mem = s.mem := rfl
@[simp] theorem modRec_arb : (modRec s f).arb = s.arb := rfl
@[simp] theorem modRec_flash : (modRec s f).flash = s.flash := rfl
@[simp] theorem modRec_tx : (modRec s f).tx = s.tx := rfl
@[simp] theorem modRec_kln : (modRec s f).kln = s.kln := rfl
@[simp] theorem modRec_crd : (modRec s f).crd = s.crd := rfl
@[simp] theorem modRec_emb : (modRec s f).emb = s.emb := rfl
@[simp] theorem modRec_chn : (modRec s f).chn = s.chn := rfl
@[simp] theorem modRec_mea : (modRec s f).mea = s.mea := rfl
@[simp] theorem modRec_trc : (modRec s f).trc = s.trc := rfl
@[simp] theorem modRec_est : (modRec s f).est = s.est := rfl
@[simp] theorem modRec_imp : (modRec s f).imp = s.imp := rfl
@[simp] theorem modRec_ctl : (modRec s f).ctl = s.ctl := rfl
@[simp] theorem modRec_hrp : (modRec s f).hrp = s.hrp := rfl
@[simp] theorem modRec_thm : (modRec s f).thm = s.thm := rfl
@[simp] theorem modRec_saf : (modRec s f).saf = s.saf := rfl
@[simp] theorem modRec_lgc : (modRec s f).lgc = s.lgc := rfl
@[simp] theorem modRec_fio : (modRec s f).fio = s.fio := rfl
@[simp] theorem modRec_can : (modRec s f).can = s.can := rfl
@[simp] theorem modRec_tim : (modRec s f).tim = s.tim := rfl
@[simp] theorem modRec_hst : (modRec s f).hst = s.hst := rfl
@[simp] theorem modRec_par : (modRec s f).par = s.par := rfl
@[simp] theorem modRec_upd : (modRec s f).upd = s.upd := rfl
@[simp] theorem modRec_pnl : (modRec s f).pnl = s.pnl := rfl

end

section
variable (s : State) (f : Par → Par)

@[simp] theorem modPar_pending : (modPar s f).pending = s.pending := rfl
@[simp] theorem modPar_variant : (modPar s f).variant = s.variant := rfl
@[simp] theorem modPar_now : (modPar s f).now = s.now := rfl
@[simp] theorem modPar_fresh : (modPar s f).fresh = s.fresh := rfl
@[simp] theorem modPar_regs : (modPar s f).regs = s.regs := rfl
@[simp] theorem modPar_shadow : (modPar s f).shadow = s.shadow := rfl
@[simp] theorem modPar_frozen : (modPar s f).frozen = s.frozen := rfl
@[simp] theorem modPar_kept : (modPar s f).kept = s.kept := rfl
@[simp] theorem modPar_mem : (modPar s f).mem = s.mem := rfl
@[simp] theorem modPar_arb : (modPar s f).arb = s.arb := rfl
@[simp] theorem modPar_flash : (modPar s f).flash = s.flash := rfl
@[simp] theorem modPar_tx : (modPar s f).tx = s.tx := rfl
@[simp] theorem modPar_kln : (modPar s f).kln = s.kln := rfl
@[simp] theorem modPar_crd : (modPar s f).crd = s.crd := rfl
@[simp] theorem modPar_emb : (modPar s f).emb = s.emb := rfl
@[simp] theorem modPar_chn : (modPar s f).chn = s.chn := rfl
@[simp] theorem modPar_mea : (modPar s f).mea = s.mea := rfl
@[simp] theorem modPar_trc : (modPar s f).trc = s.trc := rfl
@[simp] theorem modPar_est : (modPar s f).est = s.est := rfl
@[simp] theorem modPar_imp : (modPar s f).imp = s.imp := rfl
@[simp] theorem modPar_ctl : (modPar s f).ctl = s.ctl := rfl
@[simp] theorem modPar_hrp : (modPar s f).hrp = s.hrp := rfl
@[simp] theorem modPar_thm : (modPar s f).thm = s.thm := rfl
@[simp] theorem modPar_saf : (modPar s f).saf = s.saf := rfl
@[simp] theorem modPar_lgc : (modPar s f).lgc = s.lgc := rfl
@[simp] theorem modPar_fio : (modPar s f).fio = s.fio := rfl
@[simp] theorem modPar_can : (modPar s f).can = s.can := rfl
@[simp] theorem modPar_tim : (modPar s f).tim = s.tim := rfl
@[simp] theorem modPar_hst : (modPar s f).hst = s.hst := rfl
@[simp] theorem modPar_recd : (modPar s f).recd = s.recd := rfl
@[simp] theorem modPar_upd : (modPar s f).upd = s.upd := rfl
@[simp] theorem modPar_pnl : (modPar s f).pnl = s.pnl := rfl

end

section
variable (s : State) (f : Emb → Emb)

@[simp] theorem modEmb_pending : (modEmb s f).pending = s.pending := rfl
@[simp] theorem modEmb_variant : (modEmb s f).variant = s.variant := rfl
@[simp] theorem modEmb_now : (modEmb s f).now = s.now := rfl
@[simp] theorem modEmb_fresh : (modEmb s f).fresh = s.fresh := rfl
@[simp] theorem modEmb_regs : (modEmb s f).regs = s.regs := rfl
@[simp] theorem modEmb_shadow : (modEmb s f).shadow = s.shadow := rfl
@[simp] theorem modEmb_frozen : (modEmb s f).frozen = s.frozen := rfl
@[simp] theorem modEmb_kept : (modEmb s f).kept = s.kept := rfl
@[simp] theorem modEmb_mem : (modEmb s f).mem = s.mem := rfl
@[simp] theorem modEmb_arb : (modEmb s f).arb = s.arb := rfl
@[simp] theorem modEmb_flash : (modEmb s f).flash = s.flash := rfl
@[simp] theorem modEmb_tx : (modEmb s f).tx = s.tx := rfl
@[simp] theorem modEmb_kln : (modEmb s f).kln = s.kln := rfl
@[simp] theorem modEmb_crd : (modEmb s f).crd = s.crd := rfl
@[simp] theorem modEmb_chn : (modEmb s f).chn = s.chn := rfl
@[simp] theorem modEmb_mea : (modEmb s f).mea = s.mea := rfl
@[simp] theorem modEmb_trc : (modEmb s f).trc = s.trc := rfl
@[simp] theorem modEmb_est : (modEmb s f).est = s.est := rfl
@[simp] theorem modEmb_imp : (modEmb s f).imp = s.imp := rfl
@[simp] theorem modEmb_ctl : (modEmb s f).ctl = s.ctl := rfl
@[simp] theorem modEmb_hrp : (modEmb s f).hrp = s.hrp := rfl
@[simp] theorem modEmb_thm : (modEmb s f).thm = s.thm := rfl
@[simp] theorem modEmb_saf : (modEmb s f).saf = s.saf := rfl
@[simp] theorem modEmb_lgc : (modEmb s f).lgc = s.lgc := rfl
@[simp] theorem modEmb_fio : (modEmb s f).fio = s.fio := rfl
@[simp] theorem modEmb_can : (modEmb s f).can = s.can := rfl
@[simp] theorem modEmb_tim : (modEmb s f).tim = s.tim := rfl
@[simp] theorem modEmb_hst : (modEmb s f).hst = s.hst := rfl
@[simp] theorem modEmb_recd : (modEmb s f).recd = s.recd := rfl
@[simp] theorem modEmb_par : (modEmb s f).par = s.par := rfl
@[simp] theorem modEmb_upd : (modEmb s f).upd = s.upd := rfl
@[simp] theorem modEmb_pnl : (modEmb s f).pnl = s.pnl := rfl

end

section
variable (s : State) (f : Kln → Kln)

@[simp] theorem modKln_pending : (modKln s f).pending = s.pending := rfl
@[simp] theorem modKln_variant : (modKln s f).variant = s.variant := rfl
@[simp] theorem modKln_now : (modKln s f).now = s.now := rfl
@[simp] theorem modKln_fresh : (modKln s f).fresh = s.fresh := rfl
@[simp] theorem modKln_regs : (modKln s f).regs = s.regs := rfl
@[simp] theorem modKln_shadow : (modKln s f).shadow = s.shadow := rfl
@[simp] theorem modKln_frozen : (modKln s f).frozen = s.frozen := rfl
@[simp] theorem modKln_kept : (modKln s f).kept = s.kept := rfl
@[simp] theorem modKln_mem : (modKln s f).mem = s.mem := rfl
@[simp] theorem modKln_arb : (modKln s f).arb = s.arb := rfl
@[simp] theorem modKln_flash : (modKln s f).flash = s.flash := rfl
@[simp] theorem modKln_tx : (modKln s f).tx = s.tx := rfl
@[simp] theorem modKln_crd : (modKln s f).crd = s.crd := rfl
@[simp] theorem modKln_emb : (modKln s f).emb = s.emb := rfl
@[simp] theorem modKln_chn : (modKln s f).chn = s.chn := rfl
@[simp] theorem modKln_mea : (modKln s f).mea = s.mea := rfl
@[simp] theorem modKln_trc : (modKln s f).trc = s.trc := rfl
@[simp] theorem modKln_est : (modKln s f).est = s.est := rfl
@[simp] theorem modKln_imp : (modKln s f).imp = s.imp := rfl
@[simp] theorem modKln_ctl : (modKln s f).ctl = s.ctl := rfl
@[simp] theorem modKln_hrp : (modKln s f).hrp = s.hrp := rfl
@[simp] theorem modKln_thm : (modKln s f).thm = s.thm := rfl
@[simp] theorem modKln_saf : (modKln s f).saf = s.saf := rfl
@[simp] theorem modKln_lgc : (modKln s f).lgc = s.lgc := rfl
@[simp] theorem modKln_fio : (modKln s f).fio = s.fio := rfl
@[simp] theorem modKln_can : (modKln s f).can = s.can := rfl
@[simp] theorem modKln_tim : (modKln s f).tim = s.tim := rfl
@[simp] theorem modKln_hst : (modKln s f).hst = s.hst := rfl
@[simp] theorem modKln_recd : (modKln s f).recd = s.recd := rfl
@[simp] theorem modKln_par : (modKln s f).par = s.par := rfl
@[simp] theorem modKln_upd : (modKln s f).upd = s.upd := rfl
@[simp] theorem modKln_pnl : (modKln s f).pnl = s.pnl := rfl

end

section
variable (s : State) (f : Pnl → Pnl)

@[simp] theorem modPnl_pending : (modPnl s f).pending = s.pending := rfl
@[simp] theorem modPnl_variant : (modPnl s f).variant = s.variant := rfl
@[simp] theorem modPnl_now : (modPnl s f).now = s.now := rfl
@[simp] theorem modPnl_fresh : (modPnl s f).fresh = s.fresh := rfl
@[simp] theorem modPnl_regs : (modPnl s f).regs = s.regs := rfl
@[simp] theorem modPnl_shadow : (modPnl s f).shadow = s.shadow := rfl
@[simp] theorem modPnl_frozen : (modPnl s f).frozen = s.frozen := rfl
@[simp] theorem modPnl_kept : (modPnl s f).kept = s.kept := rfl
@[simp] theorem modPnl_mem : (modPnl s f).mem = s.mem := rfl
@[simp] theorem modPnl_arb : (modPnl s f).arb = s.arb := rfl
@[simp] theorem modPnl_flash : (modPnl s f).flash = s.flash := rfl
@[simp] theorem modPnl_tx : (modPnl s f).tx = s.tx := rfl
@[simp] theorem modPnl_kln : (modPnl s f).kln = s.kln := rfl
@[simp] theorem modPnl_crd : (modPnl s f).crd = s.crd := rfl
@[simp] theorem modPnl_emb : (modPnl s f).emb = s.emb := rfl
@[simp] theorem modPnl_chn : (modPnl s f).chn = s.chn := rfl
@[simp] theorem modPnl_mea : (modPnl s f).mea = s.mea := rfl
@[simp] theorem modPnl_trc : (modPnl s f).trc = s.trc := rfl
@[simp] theorem modPnl_est : (modPnl s f).est = s.est := rfl
@[simp] theorem modPnl_imp : (modPnl s f).imp = s.imp := rfl
@[simp] theorem modPnl_ctl : (modPnl s f).ctl = s.ctl := rfl
@[simp] theorem modPnl_hrp : (modPnl s f).hrp = s.hrp := rfl
@[simp] theorem modPnl_thm : (modPnl s f).thm = s.thm := rfl
@[simp] theorem modPnl_saf : (modPnl s f).saf = s.saf := rfl
@[simp] theorem modPnl_lgc : (modPnl s f).lgc = s.lgc := rfl
@[simp] theorem modPnl_fio : (modPnl s f).fio = s.fio := rfl
@[simp] theorem modPnl_can : (modPnl s f).can = s.can := rfl
@[simp] theorem modPnl_tim : (modPnl s f).tim = s.tim := rfl
@[simp] theorem modPnl_hst : (modPnl s f).hst = s.hst := rfl
@[simp] theorem modPnl_recd : (modPnl s f).recd = s.recd := rfl
@[simp] theorem modPnl_par : (modPnl s f).par = s.par := rfl
@[simp] theorem modPnl_upd : (modPnl s f).upd = s.upd := rfl

end

section
variable (s : State) (p : Plane) (off : Nat) (bs : List Byte)

@[simp] theorem storeBytes_pending : (storeBytes p s off bs).pending = s.pending := rfl
@[simp] theorem storeBytes_variant : (storeBytes p s off bs).variant = s.variant := rfl
@[simp] theorem storeBytes_now : (storeBytes p s off bs).now = s.now := rfl
@[simp] theorem storeBytes_fresh : (storeBytes p s off bs).fresh = s.fresh := rfl
@[simp] theorem storeBytes_regs : (storeBytes p s off bs).regs = s.regs := rfl
@[simp] theorem storeBytes_shadow : (storeBytes p s off bs).shadow = s.shadow := rfl
@[simp] theorem storeBytes_frozen : (storeBytes p s off bs).frozen = s.frozen := rfl
@[simp] theorem storeBytes_kept : (storeBytes p s off bs).kept = s.kept := rfl
@[simp] theorem storeBytes_flash : (storeBytes p s off bs).flash = s.flash := rfl
@[simp] theorem storeBytes_tx : (storeBytes p s off bs).tx = s.tx := rfl
@[simp] theorem storeBytes_kln : (storeBytes p s off bs).kln = s.kln := rfl
@[simp] theorem storeBytes_crd : (storeBytes p s off bs).crd = s.crd := rfl
@[simp] theorem storeBytes_emb : (storeBytes p s off bs).emb = s.emb := rfl
@[simp] theorem storeBytes_chn : (storeBytes p s off bs).chn = s.chn := rfl
@[simp] theorem storeBytes_mea : (storeBytes p s off bs).mea = s.mea := rfl
@[simp] theorem storeBytes_trc : (storeBytes p s off bs).trc = s.trc := rfl
@[simp] theorem storeBytes_est : (storeBytes p s off bs).est = s.est := rfl
@[simp] theorem storeBytes_imp : (storeBytes p s off bs).imp = s.imp := rfl
@[simp] theorem storeBytes_ctl : (storeBytes p s off bs).ctl = s.ctl := rfl
@[simp] theorem storeBytes_hrp : (storeBytes p s off bs).hrp = s.hrp := rfl
@[simp] theorem storeBytes_thm : (storeBytes p s off bs).thm = s.thm := rfl
@[simp] theorem storeBytes_saf : (storeBytes p s off bs).saf = s.saf := rfl
@[simp] theorem storeBytes_lgc : (storeBytes p s off bs).lgc = s.lgc := rfl
@[simp] theorem storeBytes_fio : (storeBytes p s off bs).fio = s.fio := rfl
@[simp] theorem storeBytes_can : (storeBytes p s off bs).can = s.can := rfl
@[simp] theorem storeBytes_tim : (storeBytes p s off bs).tim = s.tim := rfl
@[simp] theorem storeBytes_hst : (storeBytes p s off bs).hst = s.hst := rfl
@[simp] theorem storeBytes_recd : (storeBytes p s off bs).recd = s.recd := rfl
@[simp] theorem storeBytes_par : (storeBytes p s off bs).par = s.par := rfl
@[simp] theorem storeBytes_upd : (storeBytes p s off bs).upd = s.upd := rfl
@[simp] theorem storeBytes_pnl : (storeBytes p s off bs).pnl = s.pnl := rfl

end

section
variable (s : State) (i : Nat) (bs : List Byte)

@[simp] theorem send_pending : (send s i bs).pending = s.pending := rfl
@[simp] theorem send_variant : (send s i bs).variant = s.variant := rfl
@[simp] theorem send_now : (send s i bs).now = s.now := rfl
@[simp] theorem send_fresh : (send s i bs).fresh = s.fresh := rfl
@[simp] theorem send_regs : (send s i bs).regs = s.regs := rfl
@[simp] theorem send_shadow : (send s i bs).shadow = s.shadow := rfl
@[simp] theorem send_frozen : (send s i bs).frozen = s.frozen := rfl
@[simp] theorem send_kept : (send s i bs).kept = s.kept := rfl
@[simp] theorem send_mem : (send s i bs).mem = s.mem := rfl
@[simp] theorem send_arb : (send s i bs).arb = s.arb := rfl
@[simp] theorem send_flash : (send s i bs).flash = s.flash := rfl
@[simp] theorem send_kln : (send s i bs).kln = s.kln := rfl
@[simp] theorem send_crd : (send s i bs).crd = s.crd := rfl
@[simp] theorem send_emb : (send s i bs).emb = s.emb := rfl
@[simp] theorem send_chn : (send s i bs).chn = s.chn := rfl
@[simp] theorem send_mea : (send s i bs).mea = s.mea := rfl
@[simp] theorem send_trc : (send s i bs).trc = s.trc := rfl
@[simp] theorem send_est : (send s i bs).est = s.est := rfl
@[simp] theorem send_imp : (send s i bs).imp = s.imp := rfl
@[simp] theorem send_ctl : (send s i bs).ctl = s.ctl := rfl
@[simp] theorem send_hrp : (send s i bs).hrp = s.hrp := rfl
@[simp] theorem send_thm : (send s i bs).thm = s.thm := rfl
@[simp] theorem send_saf : (send s i bs).saf = s.saf := rfl
@[simp] theorem send_lgc : (send s i bs).lgc = s.lgc := rfl
@[simp] theorem send_fio : (send s i bs).fio = s.fio := rfl
@[simp] theorem send_can : (send s i bs).can = s.can := rfl
@[simp] theorem send_tim : (send s i bs).tim = s.tim := rfl
@[simp] theorem send_hst : (send s i bs).hst = s.hst := rfl
@[simp] theorem send_recd : (send s i bs).recd = s.recd := rfl
@[simp] theorem send_par : (send s i bs).par = s.par := rfl
@[simp] theorem send_upd : (send s i bs).upd = s.upd := rfl
@[simp] theorem send_pnl : (send s i bs).pnl = s.pnl := rfl

end

section
variable (s : State) (g : RegFam) (w : Nat) (ix : List Nat) (v : Nat)

@[simp] theorem wr_pending : (wr s g w ix v).pending = s.pending := rfl
@[simp] theorem wr_variant : (wr s g w ix v).variant = s.variant := rfl
@[simp] theorem wr_now : (wr s g w ix v).now = s.now := rfl
@[simp] theorem wr_fresh : (wr s g w ix v).fresh = s.fresh := rfl
@[simp] theorem wr_shadow : (wr s g w ix v).shadow = s.shadow := rfl
@[simp] theorem wr_frozen : (wr s g w ix v).frozen = s.frozen := rfl
@[simp] theorem wr_kept : (wr s g w ix v).kept = s.kept := rfl
@[simp] theorem wr_mem : (wr s g w ix v).mem = s.mem := rfl
@[simp] theorem wr_arb : (wr s g w ix v).arb = s.arb := rfl
@[simp] theorem wr_flash : (wr s g w ix v).flash = s.flash := rfl
@[simp] theorem wr_tx : (wr s g w ix v).tx = s.tx := rfl
@[simp] theorem wr_kln : (wr s g w ix v).kln = s.kln := rfl
@[simp] theorem wr_crd : (wr s g w ix v).crd = s.crd := rfl
@[simp] theorem wr_emb : (wr s g w ix v).emb = s.emb := rfl
@[simp] theorem wr_chn : (wr s g w ix v).chn = s.chn := rfl
@[simp] theorem wr_mea : (wr s g w ix v).mea = s.mea := rfl
@[simp] theorem wr_trc : (wr s g w ix v).trc = s.trc := rfl
@[simp] theorem wr_est : (wr s g w ix v).est = s.est := rfl
@[simp] theorem wr_imp : (wr s g w ix v).imp = s.imp := rfl
@[simp] theorem wr_ctl : (wr s g w ix v).ctl = s.ctl := rfl
@[simp] theorem wr_hrp : (wr s g w ix v).hrp = s.hrp := rfl
@[simp] theorem wr_thm : (wr s g w ix v).thm = s.thm := rfl
@[simp] theorem wr_saf : (wr s g w ix v).saf = s.saf := rfl
@[simp] theorem wr_lgc : (wr s g w ix v).lgc = s.lgc := rfl
@[simp] theorem wr_fio : (wr s g w ix v).fio = s.fio := rfl
@[simp] theorem wr_can : (wr s g w ix v).can = s.can := rfl
@[simp] theorem wr_tim : (wr s g w ix v).tim = s.tim := rfl
@[simp] theorem wr_hst : (wr s g w ix v).hst = s.hst := rfl
@[simp] theorem wr_recd : (wr s g w ix v).recd = s.recd := rfl
@[simp] theorem wr_par : (wr s g w ix v).par = s.par := rfl
@[simp] theorem wr_upd : (wr s g w ix v).upd = s.upd := rfl
@[simp] theorem wr_pnl : (wr s g w ix v).pnl = s.pnl := rfl

end

@[simp] theorem modTrc_trc (s : State) (f : Trc → Trc) : (modTrc s f).trc = f s.trc := rfl
@[simp] theorem modSaf_saf (s : State) (f : Saf → Saf) : (modSaf s f).saf = f s.saf := rfl
@[simp] theorem modLgc_lgc (s : State) (f : Lgc → Lgc) : (modLgc s f).lgc = f s.lgc := rfl
@[simp] theorem modFio_fio (s : State) (f : Fio → Fio) : (modFio s f).fio = f s.fio := rfl
@[simp] theorem modTim_tim (s : State) (f : Tim → Tim) : (modTim s f).tim = f s.tim := rfl
@[simp] theorem modRec_recd (s : State) (f : RecS → RecS) : (modRec s f).recd = f s.recd := rfl
@[simp] theorem modPar_par (s : State) (f : Par → Par) : (modPar s f).par = f s.par := rfl
@[simp] theorem modEmb_emb (s : State) (f : Emb → Emb) : (modEmb s f).emb = f s.emb := rfl
@[simp] theorem modKln_kln (s : State) (f : Kln → Kln) : (modKln s f).kln = f s.kln := rfl
@[simp] theorem modPnl_pnl (s : State) (f : Pnl → Pnl) : (modPnl s f).pnl = f s.pnl := rfl

section
variable (s : State) (k p : Nat) (f : UnitS → UnitS)

@[simp] theorem modUnit_pending : (modUnit s k p f).pending = s.pending := rfl
@[simp] theorem modUnit_variant : (modUnit s k p f).variant = s.variant := rfl
@[simp] theorem modUnit_now : (modUnit s k p f).now = s.now := rfl
@[simp] theorem modUnit_fresh : (modUnit s k p f).fresh = s.fresh := rfl
@[simp] theorem modUnit_regs : (modUnit s k p f).regs = s.regs := rfl
@[simp] theorem modUnit_shadow : (modUnit s k p f).shadow = s.shadow := rfl
@[simp] theorem modUnit_frozen : (modUnit s k p f).frozen = s.frozen := rfl
@[simp] theorem modUnit_kept : (modUnit s k p f).kept = s.kept := rfl
@[simp] theorem modUnit_mem : (modUnit s k p f).mem = s.mem := rfl
@[simp] theorem modUnit_arb : (modUnit s k p f).arb = s.arb := rfl
@[simp] theorem modUnit_flash : (modUnit s k p f).flash = s.flash := rfl
@[simp] theorem modUnit_tx : (modUnit s k p f).tx = s.tx := rfl
@[simp] theorem modUnit_kln : (modUnit s k p f).kln = s.kln := rfl
@[simp] theorem modUnit_crd : (modUnit s k p f).crd = s.crd := rfl
@[simp] theorem modUnit_emb : (modUnit s k p f).emb = s.emb := rfl
@[simp] theorem modUnit_mea : (modUnit s k p f).mea = s.mea := rfl
@[simp] theorem modUnit_trc : (modUnit s k p f).trc = s.trc := rfl
@[simp] theorem modUnit_est : (modUnit s k p f).est = s.est := rfl
@[simp] theorem modUnit_imp : (modUnit s k p f).imp = s.imp := rfl
@[simp] theorem modUnit_ctl : (modUnit s k p f).ctl = s.ctl := rfl
@[simp] theorem modUnit_hrp : (modUnit s k p f).hrp = s.hrp := rfl
@[simp] theorem modUnit_thm : (modUnit s k p f).thm = s.thm := rfl
@[simp] theorem modUnit_saf : (modUnit s k p f).saf = s.saf := rfl
@[simp] theorem modUnit_lgc : (modUnit s k p f).lgc = s.lgc := rfl
@[simp] theorem modUnit_fio : (modUnit s k p f).fio = s.fio := rfl
@[simp] theorem modUnit_can : (modUnit s k p f).can = s.can := rfl
@[simp] theorem modUnit_tim : (modUnit s k p f).tim = s.tim := rfl
@[simp] theorem modUnit_hst : (modUnit s k p f).hst = s.hst := rfl
@[simp] theorem modUnit_recd : (modUnit s k p f).recd = s.recd := rfl
@[simp] theorem modUnit_par : (modUnit s k p f).par = s.par := rfl
@[simp] theorem modUnit_upd : (modUnit s k p f).upd = s.upd := rfl
@[simp] theorem modUnit_pnl : (modUnit s k p f).pnl = s.pnl := rfl

end

section
variable (s : State) (c m : Nat) (f : Mbx → Mbx)

@[simp] theorem modMbx_pending : (modMbx s c m f).pending = s.pending := rfl
@[simp] theorem modMbx_variant : (modMbx s c m f).variant = s.variant := rfl
@[simp] theorem modMbx_now : (modMbx s c m f).now = s.now := rfl
@[simp] theorem modMbx_fresh : (modMbx s c m f).fresh = s.fresh := rfl
@[simp] theorem modMbx_regs : (modMbx s c m f).regs = s.regs := rfl
@[simp] theorem modMbx_shadow : (modMbx s c m f).shadow = s.shadow := rfl
@[simp] theorem modMbx_frozen : (modMbx s c m f).frozen = s.frozen := rfl
@[simp] theorem modMbx_kept : (modMbx s c m f).kept = s.kept := rfl
@[simp] theorem modMbx_mem : (modMbx s c m f).mem = s.mem := rfl
@[simp] theorem modMbx_arb : (modMbx s c m f).arb = s.arb := rfl
@[simp] theorem modMbx_flash : (modMbx s c m f).flash = s.flash := rfl
@[simp] theorem modMbx_tx : (modMbx s c m f).tx = s.tx := rfl
@[simp] theorem modMbx_kln : (modMbx s c m f).kln = s.kln := rfl
@[simp] theorem modMbx_crd : (modMbx s c m f).crd = s.crd := rfl
@[simp] theorem modMbx_emb : (modMbx s c m f).emb = s.emb := rfl
@[simp] theorem modMbx_chn : (modMbx s c m f).chn = s.chn := rfl
@[simp] theorem modMbx_mea : (modMbx s c m f).mea = s.mea := rfl
@[simp] theorem modMbx_trc : (modMbx s c m f).trc = s.trc := rfl
@[simp] theorem modMbx_est : (modMbx s c m f).est = s.est := rfl
@[simp] theorem modMbx_imp : (modMbx s c m f).imp = s.imp := rfl
@[simp] theorem modMbx_ctl : (modMbx s c m f).ctl = s.ctl := rfl
@[simp] theorem modMbx_hrp : (modMbx s c m f).hrp = s.hrp := rfl
@[simp] theorem modMbx_thm : (modMbx s c m f).thm = s.thm := rfl
@[simp] theorem modMbx_saf : (modMbx s c m f).saf = s.saf := rfl
@[simp] theorem modMbx_lgc : (modMbx s c m f).lgc = s.lgc := rfl
@[simp] theorem modMbx_fio : (modMbx s c m f).fio = s.fio := rfl
@[simp] theorem modMbx_tim : (modMbx s c m f).tim = s.tim := rfl
@[simp] theorem modMbx_hst : (modMbx s c m f).hst = s.hst := rfl
@[simp] theorem modMbx_recd : (modMbx s c m f).recd = s.recd := rfl
@[simp] theorem modMbx_par : (modMbx s c m f).par = s.par := rfl
@[simp] theorem modMbx_upd : (modMbx s c m f).upd = s.upd := rfl
@[simp] theorem modMbx_pnl : (modMbx s c m f).pnl = s.pnl := rfl

end

section
variable (s : State) (c h : Nat) (f : Hpb → Hpb)

@[simp] theorem modHpb_pending : (modHpb s c h f).pending = s.pending := rfl
@[simp] theorem modHpb_variant : (modHpb s c h f).variant = s.variant := rfl
@[simp] theorem modHpb_now : (modHpb s c h f).now = s.now := rfl
@[simp] theorem modHpb_fresh : (modHpb s c h f).fresh = s.fresh := rfl
@[simp] theorem modHpb_regs : (modHpb s c h f).regs = s.regs := rfl
@[simp] theorem modHpb_shadow : (modHpb s c h f).shadow = s.shadow := rfl
@[simp] theorem modHpb_frozen : (modHpb s c h f).frozen = s.frozen := rfl
@[simp] theorem modHpb_kept : (modHpb s c h f).kept = s.kept := rfl
@[simp] theorem modHpb_mem : (modHpb s c h f).mem = s.mem := rfl
@[simp] theorem modHpb_arb : (modHpb s c h f).arb = s.arb := rfl
@[simp] theorem modHpb_flash : (modHpb s c h f).flash = s.flash := rfl
@[simp] theorem modHpb_tx : (modHpb s c h f).tx = s.tx := rfl
@[simp] theorem modHpb_kln : (modHpb s c h f).kln = s.kln := rfl
@[simp] theorem modHpb_crd : (modHpb s c h f).crd = s.crd := rfl
@[simp] theorem modHpb_emb : (modHpb s c h f).emb = s.emb := rfl
@[simp] theorem modHpb_chn : (modHpb s c h f).chn = s.chn := rfl
@[simp] theorem modHpb_mea : (modHpb s c h f).mea = s.mea := rfl
@[simp] theorem modHpb_trc : (modHpb s c h f).trc = s.trc := rfl
@[simp] theorem modHpb_est : (modHpb s c h f).est = s.est := rfl
@[simp] theorem modHpb_imp : (modHpb s c h f).imp = s.imp := rfl
@[simp] theorem modHpb_ctl : (modHpb s c h f).ctl = s.ctl := rfl
@[simp] theorem modHpb_hrp : (modHpb s c h f).hrp = s.hrp := rfl
@[simp] theorem modHpb_thm : (modHpb s c h f).thm = s.thm := rfl
@[simp] theorem modHpb_saf : (modHpb s c h f).saf = s.saf := rfl
@[simp] theorem modHpb_lgc : (modHpb s c h f).lgc = s.lgc := rfl
@[simp] theorem modHpb_fio : (modHpb s c h f).fio = s.fio := rfl
@[simp] theorem modHpb_tim : (modHpb s c h f).tim = s.tim := rfl
@[simp] theorem modHpb_hst : (modHpb s c h f).hst = s.hst := rfl
@[simp] theorem modHpb_recd : (modHpb s c h f).recd = s.recd := rfl
@[simp] theorem modHpb_par : (modHpb s c h f).par = s.par := rfl
@[simp] theorem modHpb_upd : (modHpb s c h f).upd = s.upd := rfl
@[simp] theorem modHpb_pnl : (modHpb s c h f).pnl = s.pnl := rfl

end

section
variable (s : State) (n : Nat) (f : FioIn → FioIn)

@[simp] theorem modFin_pending : (modFin s n f).pending = s.pending := rfl
@[simp] theorem modFin_variant : (modFin s n f).variant = s.variant := rfl
@[simp] theorem modFin_now : (modFin s n f).now = s.now := rfl
@[simp] theorem modFin_fresh : (modFin s n f).fresh = s.fresh := rfl
@[simp] theorem modFin_regs : (modFin s n f).regs = s.regs := rfl
@[simp] theorem modFin_shadow : (modFin s n f).shadow = s.shadow := rfl
@[simp] theorem modFin_frozen : (modFin s n f).frozen = s.frozen := rfl
@[simp] theorem modFin_kept : (modFin s n f).kept = s.kept := rfl
@[simp] theorem modFin_mem : (modFin s n f).mem = s.mem := rfl
@[simp] theorem modFin_arb : (modFin s n f).arb = s.arb := rfl
@[simp] theorem modFin_flash : (modFin s n f).flash = s.flash := rfl
@[simp] theorem modFin_tx : (modFin s n f).tx = s.tx := rfl
@[simp] theorem modFin_kln : (modFin s n f).kln = s.kln := rfl
@[simp] theorem modFin_crd : (modFin s n f).crd = s.crd := rfl
@[simp] theorem modFin_emb : (modFin s n f).emb = s.emb := rfl
@[simp] theorem modFin_chn : (modFin s n f).chn = s.chn := rfl
@[simp] theorem modFin_mea : (modFin s n f).mea = s.mea := rfl
@[simp] theorem modFin_trc : (modFin s n f).trc = s.trc := rfl
@[simp] theorem modFin_est : (modFin s n f).est = s.est := rfl
@[simp] theorem modFin_imp : (modFin s n f).imp = s.imp := rfl
@[simp] theorem modFin_ctl : (modFin s n f).ctl = s.ctl := rfl
@[simp] theorem modFin_hrp : (modFin s n f).hrp = s.hrp := rfl
@[simp] theorem modFin_thm : (modFin s n f).thm = s.thm := rfl
@[simp] theorem modFin_saf : (modFin s n f).saf = s.saf := rfl
@[simp] theorem modFin_lgc : (modFin s n f).lgc = s.lgc := rfl
@[simp] theorem modFin_can : (modFin s n f).can = s.can := rfl
@[simp] theorem modFin_tim : (modFin s n f).tim = s.tim := rfl
@[simp] theorem modFin_hst : (modFin s n f).hst = s.hst := rfl
@[simp] theorem modFin_recd : (modFin s n f).recd = s.recd := rfl
@[simp] theorem modFin_par : (modFin s n f).par = s.par := rfl
@[simp] theorem modFin_upd : (modFin s n f).upd = s.upd := rfl
@[simp] theorem modFin_pnl : (modFin s n f).pnl = s.pnl := rfl

end

section
variable (s : State) (j : Nat) (f : FioOut → FioOut)

@[simp] theorem modFout_pending : (modFout s j f).pending = s.pending := rfl
@[simp] theorem modFout_variant : (modFout s j f).variant = s.variant := rfl
@[simp] theorem modFout_now : (modFout s j f).now = s.now := rfl
@[simp] theorem modFout_fresh : (modFout s j f).fresh = s.fresh := rfl
@[simp] theorem modFout_regs : (modFout s j f).regs = s.regs := rfl
@[simp] theorem modFout_shadow : (modFout s j f).shadow = s.shadow := rfl
@[simp] theorem modFout_frozen : (modFout s j f).frozen = s.frozen := rfl
@[simp] theorem modFout_kept : (modFout s j f).kept = s.kept := rfl
@[simp] theorem modFout_mem : (modFout s j f).mem = s.mem := rfl
@[simp] theorem modFout_arb : (modFout s j f).arb = s.arb := rfl
@[simp] theorem modFout_flash : (modFout s j f).flash = s.flash := rfl
@[simp] theorem modFout_tx : (modFout s j f).tx = s.tx := rfl
@[simp] theorem modFout_kln : (modFout s j f).kln = s.kln := rfl
@[simp] theorem modFout_crd : (modFout s j f).crd = s.crd := rfl
@[simp] theorem modFout_emb : (modFout s j f).emb = s.emb := rfl
@[simp] theorem modFout_chn : (modFout s j f).chn = s.chn := rfl
@[simp] theorem modFout_mea : (modFout s j f).mea = s.mea := rfl
@[simp] theorem modFout_trc : (modFout s j f).trc = s.trc := rfl
@[simp] theorem modFout_est : (modFout s j f).est = s.est := rfl
@[simp] theorem modFout_imp : (modFout s j f).imp = s.imp := rfl
@[simp] theorem modFout_ctl : (modFout s j f).ctl = s.ctl := rfl
@[simp] theorem modFout_hrp : (modFout s j f).hrp = s.hrp := rfl
@[simp] theorem modFout_thm : (modFout s j f).thm = s.thm := rfl
@[simp] theorem modFout_saf : (modFout s j f).saf = s.saf := rfl
@[simp] theorem modFout_lgc : (modFout s j f).lgc = s.lgc := rfl
@[simp] theorem modFout_can : (modFout s j f).can = s.can := rfl
@[simp] theorem modFout_tim : (modFout s j f).tim = s.tim := rfl
@[simp] theorem modFout_hst : (modFout s j f).hst = s.hst := rfl
@[simp] theorem modFout_recd : (modFout s j f).recd = s.recd := rfl
@[simp] theorem modFout_par : (modFout s j f).par = s.par := rfl
@[simp] theorem modFout_upd : (modFout s j f).upd = s.upd := rfl
@[simp] theorem modFout_pnl : (modFout s j f).pnl = s.pnl := rfl

end

section
variable (s : State) (n : Nat) (f : Stn → Stn)

@[simp] theorem modStn_pending : (modStn s n f).pending = s.pending := rfl
@[simp] theorem modStn_variant : (modStn s n f).variant = s.variant := rfl
@[simp] theorem modStn_now : (modStn s n f).now = s.now := rfl
@[simp] theorem modStn_fresh : (modStn s n f).fresh = s.fresh := rfl
@[simp] theorem modStn_regs : (modStn s n f).regs = s.regs := rfl
@[simp] theorem modStn_shadow : (modStn s n f).shadow = s.shadow := rfl
@[simp] theorem modStn_frozen : (modStn s n f).frozen = s.frozen := rfl
@[simp] theorem modStn_kept : (modStn s n f).kept = s.kept := rfl
@[simp] theorem modStn_mem : (modStn s n f).mem = s.mem := rfl
@[simp] theorem modStn_arb : (modStn s n f).arb = s.arb := rfl
@[simp] theorem modStn_flash : (modStn s n f).flash = s.flash := rfl
@[simp] theorem modStn_tx : (modStn s n f).tx = s.tx := rfl
@[simp] theorem modStn_kln : (modStn s n f).kln = s.kln := rfl
@[simp] theorem modStn_crd : (modStn s n f).crd = s.crd := rfl
@[simp] theorem modStn_emb : (modStn s n f).emb = s.emb := rfl
@[simp] theorem modStn_chn : (modStn s n f).chn = s.chn := rfl
@[simp] theorem modStn_mea : (modStn s n f).mea = s.mea := rfl
@[simp] theorem modStn_trc : (modStn s n f).trc = s.trc := rfl
@[simp] theorem modStn_est : (modStn s n f).est = s.est := rfl
@[simp] theorem modStn_imp : (modStn s n f).imp = s.imp := rfl
@[simp] theorem modStn_ctl : (modStn s n f).ctl = s.ctl := rfl
@[simp] theorem modStn_hrp : (modStn s n f).hrp = s.hrp := rfl
@[simp] theorem modStn_thm : (modStn s n f).thm = s.thm := rfl
@[simp] theorem modStn_saf : (modStn s n f).saf = s.saf := rfl
@[simp] theorem modStn_fio : (modStn s n f).fio = s.fio := rfl
@[simp] theorem modStn_can : (modStn s n f).can = s.can := rfl
@[simp] theorem modStn_tim : (modStn s n f).tim = s.tim := rfl
@[simp] theorem modStn_hst : (modStn s n f).hst = s.hst := rfl
@[simp] theorem modStn_recd : (modStn s n f).recd = s.recd := rfl
@[simp] theorem modStn_par : (modStn s n f).par = s.par := rfl
@[simp] theorem modStn_upd : (modStn s n f).upd = s.upd := rfl
@[simp] theorem modStn_pnl : (modStn s n f).pnl = s.pnl := rfl

end

section
variable (s : State) (t : Nat) (f : Task → Task)

@[simp] theorem modTask_pending : (modTask s t f).pending = s.pending := rfl
@[simp] theorem modTask_variant : (modTask s t f).variant = s.variant := rfl
@[simp] theorem modTask_now : (modTask s t f).now = s.now := rfl
@[simp] theorem modTask_fresh : (modTask s t f).fresh = s.fresh := rfl
@[simp] theorem modTask_regs : (modTask s t f).regs = s.regs := rfl
@[simp] theorem modTask_shadow : (modTask s t f).shadow = s.shadow := rfl
@[simp] theorem modTask_frozen : (modTask s t f).frozen = s.frozen := rfl
@[simp] theorem modTask_kept : (modTask s t f).kept = s.kept := rfl
@[simp] theorem modTask_mem : (modTask s t f).mem = s.mem := rfl
@[simp] theorem modTask_arb : (modTask s t f).arb = s.arb := rfl
@[simp] theorem modTask_flash : (modTask s t f).flash = s.flash := rfl
@[simp] theorem modTask_tx : (modTask s t f).tx = s.tx := rfl
@[simp] theorem modTask_kln : (modTask s t f).kln = s.kln := rfl
@[simp] theorem modTask_crd : (modTask s t f).crd = s.crd := rfl
@[simp] theorem modTask_emb : (modTask s t f).emb = s.emb := rfl
@[simp] theorem modTask_chn : (modTask s t f).chn = s.chn := rfl
@[simp] theorem modTask_mea : (modTask s t f).mea = s.mea := rfl
@[simp] theorem modTask_trc : (modTask s t f).trc = s.trc := rfl
@[simp] theorem modTask_est : (modTask s t f).est = s.est := rfl
@[simp] theorem modTask_imp : (modTask s t f).imp = s.imp := rfl
@[simp] theorem modTask_ctl : (modTask s t f).ctl = s.ctl := rfl
@[simp] theorem modTask_hrp : (modTask s t f).hrp = s.hrp := rfl
@[simp] theorem modTask_thm : (modTask s t f).thm = s.thm := rfl
@[simp] theorem modTask_saf : (modTask s t f).saf = s.saf := rfl
@[simp] theorem modTask_fio : (modTask s t f).fio = s.fio := rfl
@[simp] theorem modTask_can : (modTask s t f).can = s.can := rfl
@[simp] theorem modTask_tim : (modTask s t f).tim = s.tim := rfl
@[simp] theorem modTask_hst : (modTask s t f).hst = s.hst := rfl
@[simp] theorem modTask_recd : (modTask s t f).recd = s.recd := rfl
@[simp] theorem modTask_par : (modTask s t f).par = s.par := rfl
@[simp] theorem modTask_upd : (modTask s t f).upd = s.upd := rfl
@[simp] theorem modTask_pnl : (modTask s t f).pnl = s.pnl := rfl

end

section
variable (s : State) (w : Nat) (f : Reader → Reader)

@[simp] theorem modReader_pending : (modReader s w f).pending = s.pending := rfl
@[simp] theorem modReader_variant : (modReader s w f).variant = s.variant := rfl
@[simp] theorem modReader_now : (modReader s w f).now = s.now := rfl
@[simp] theorem modReader_fresh : (modReader s w f).fresh = s.fresh := rfl
@[simp] theorem modReader_regs : (modReader s w f).regs = s.regs := rfl
@[simp] theorem modReader_shadow : (modReader s w f).shadow = s.shadow := rfl
@[simp] theorem modReader_frozen : (modReader s w f).frozen = s.frozen := rfl
@[simp] theorem modReader_kept : (modReader s w f).kept = s.kept := rfl
@[simp] theorem modReader_mem : (modReader s w f).mem = s.mem := rfl
@[simp] theorem modReader_arb : (modReader s w f).arb = s.arb := rfl
@[simp] theorem modReader_flash : (modReader s w f).flash = s.flash := rfl
@[simp] theorem modReader_tx : (modReader s w f).tx = s.tx := rfl
@[simp] theorem modReader_kln : (modReader s w f).kln = s.kln := rfl
@[simp] theorem modReader_crd : (modReader s w f).crd = s.crd := rfl
@[simp] theorem modReader_emb : (modReader s w f).emb = s.emb := rfl
@[simp] theorem modReader_chn : (modReader s w f).chn = s.chn := rfl
@[simp] theorem modReader_mea : (modReader s w f).mea = s.mea := rfl
@[simp] theorem modReader_trc : (modReader s w f).trc = s.trc := rfl
@[simp] theorem modReader_est : (modReader s w f).est = s.est := rfl
@[simp] theorem modReader_imp : (modReader s w f).imp = s.imp := rfl
@[simp] theorem modReader_ctl : (modReader s w f).ctl = s.ctl := rfl
@[simp] theorem modReader_hrp : (modReader s w f).hrp = s.hrp := rfl
@[simp] theorem modReader_thm : (modReader s w f).thm = s.thm := rfl
@[simp] theorem modReader_saf : (modReader s w f).saf = s.saf := rfl
@[simp] theorem modReader_lgc : (modReader s w f).lgc = s.lgc := rfl
@[simp] theorem modReader_fio : (modReader s w f).fio = s.fio := rfl
@[simp] theorem modReader_can : (modReader s w f).can = s.can := rfl
@[simp] theorem modReader_tim : (modReader s w f).tim = s.tim := rfl
@[simp] theorem modReader_recd : (modReader s w f).recd = s.recd := rfl
@[simp] theorem modReader_par : (modReader s w f).par = s.par := rfl
@[simp] theorem modReader_upd : (modReader s w f).upd = s.upd := rfl
@[simp] theorem modReader_pnl : (modReader s w f).pnl = s.pnl := rfl

end

section
variable (s : State) (j : Nat) (f : SafOut → SafOut)

@[simp] theorem modSo_pending : (modSo s j f).pending = s.pending := rfl
@[simp] theorem modSo_variant : (modSo s j f).variant = s.variant := rfl
@[simp] theorem modSo_now : (modSo s j f).now = s.now := rfl
@[simp] theorem modSo_fresh : (modSo s j f).fresh = s.fresh := rfl
@[simp] theorem modSo_regs : (modSo s j f).regs = s.regs := rfl
@[simp] theorem modSo_shadow : (modSo s j f).shadow = s.shadow := rfl
@[simp] theorem modSo_frozen : (modSo s j f).frozen = s.frozen := rfl
@[simp] theorem modSo_kept : (modSo s j f).kept = s.kept := rfl
@[simp] theorem modSo_mem : (modSo s j f).mem = s.mem := rfl
@[simp] theorem modSo_arb : (modSo s j f).arb = s.arb := rfl
@[simp] theorem modSo_flash : (modSo s j f).flash = s.flash := rfl
@[simp] theorem modSo_tx : (modSo s j f).tx = s.tx := rfl
@[simp] theorem modSo_kln : (modSo s j f).kln = s.kln := rfl
@[simp] theorem modSo_crd : (modSo s j f).crd = s.crd := rfl
@[simp] theorem modSo_emb : (modSo s j f).emb = s.emb := rfl
@[simp] theorem modSo_chn : (modSo s j f).chn = s.chn := rfl
@[simp] theorem modSo_mea : (modSo s j f).mea = s.mea := rfl
@[simp] theorem modSo_trc : (modSo s j f).trc = s.trc := rfl
@[simp] theorem modSo_est : (modSo s j f).est = s.est := rfl
@[simp] theorem modSo_imp : (modSo s j f).imp = s.imp := rfl
@[simp] theorem modSo_ctl : (modSo s j f).ctl = s.ctl := rfl
@[simp] theorem modSo_hrp : (modSo s j f).hrp = s.hrp := rfl
@[simp] theorem modSo_thm : (modSo s j f).thm = s.thm := rfl
@[simp] theorem modSo_lgc : (modSo s j f).lgc = s.lgc := rfl
@[simp] theorem modSo_fio : (modSo s j f).fio = s.fio := rfl
@[simp] theorem modSo_can : (modSo s j f).can = s.can := rfl
@[simp] theorem modSo_tim : (modSo s j f).tim = s.tim := rfl
@[simp] theorem modSo_hst : (modSo s j f).hst = s.hst := rfl
@[simp] theorem modSo_recd : (modSo s j f).recd = s.recd := rfl
@[simp] theorem modSo_par : (modSo s j f).par = s.par := rfl
@[simp] theorem modSo_upd : (modSo s j f).upd = s.upd := rfl
@[simp] theorem modSo_pnl : (modSo s j f).pnl = s.pnl := rfl

end

section
variable (s : State) (k : Nat) (f : Ctr → Ctr)

@[simp] theorem modCtr_pending : (modCtr s k f).pending = s.pending := rfl
@[simp] theorem modCtr_variant : (modCtr s k f).variant = s.variant := rfl
@[simp] theorem modCtr_now : (modCtr s k f).now = s.now := rfl
@[simp] theorem modCtr_fresh : (modCtr s k f).fresh = s.fresh := rfl
@[simp] theorem modCtr_regs : (modCtr s k f).regs = s.regs := rfl
@[simp] theorem modCtr_shadow : (modCtr s k f).shadow = s.shadow := rfl
@[simp] theorem modCtr_frozen : (modCtr s k f).frozen = s.frozen := rfl
@[simp] theorem modCtr_kept : (modCtr s k f).kept = s.kept := rfl
@[simp] theorem modCtr_mem : (modCtr s k f).mem = s.mem := rfl
@[simp] theorem modCtr_arb : (modCtr s k f).arb = s.arb := rfl
@[simp] theorem modCtr_flash : (modCtr s k f).flash = s.flash := rfl
@[simp] theorem modCtr_tx : (modCtr s k f).tx = s.tx := rfl
@[simp] theorem modCtr_kln : (modCtr s k f).kln = s.kln := rfl
@[simp] theorem modCtr_crd : (modCtr s k f).crd = s.crd := rfl
@[simp] theorem modCtr_emb : (modCtr s k f).emb = s.emb := rfl
@[simp] theorem modCtr_chn : (modCtr s k f).chn = s.chn := rfl
@[simp] theorem modCtr_mea : (modCtr s k f).mea = s.mea := rfl
@[simp] theorem modCtr_trc : (modCtr s k f).trc = s.trc := rfl
@[simp] theorem modCtr_est : (modCtr s k f).est = s.est := rfl
@[simp] theorem modCtr_imp : (modCtr s k f).imp = s.imp := rfl
@[simp] theorem modCtr_ctl : (modCtr s k f).ctl = s.ctl := rfl
@[simp] theorem modCtr_hrp : (modCtr s k f).hrp = s.hrp := rfl
@[simp] theorem modCtr_thm : (modCtr s k f).thm = s.thm := rfl
@[simp] theorem modCtr_lgc : (modCtr s k f).lgc = s.lgc := rfl
@[simp] theorem modCtr_fio : (modCtr s k f).fio = s.fio := rfl
@[simp] theorem modCtr_can : (modCtr s k f).can = s.can := rfl
@[simp] theorem modCtr_tim : (modCtr s k f).tim = s.tim := rfl
@[simp] theorem modCtr_hst : (modCtr s k f).hst = s.hst := rfl
@[simp] theorem modCtr_recd : (modCtr s k f).recd = s.recd := rfl
@[simp] theorem modCtr_par : (modCtr s k f).par = s.par := rfl
@[simp] theorem modCtr_upd : (modCtr s k f).upd = s.upd := rfl
@[simp] theorem modCtr_pnl : (modCtr s k f).pnl = s.pnl := rfl

end

section
variable (s : State) (c : Nat) (f : SafConnS → SafConnS)

@[simp] theorem modConn_pending : (modConn s c f).pending = s.pending := rfl
@[simp] theorem modConn_variant : (modConn s c f).variant = s.variant := rfl
@[simp] theorem modConn_now : (modConn s c f).now = s.now := rfl
@[simp] theorem modConn_fresh : (modConn s c f).fresh = s.fresh := rfl
@[simp] theorem modConn_regs : (modConn s c f).regs = s.regs := rfl
@[simp] theorem modConn_shadow : (modConn s c f).shadow = s.shadow := rfl
@[simp] theorem modConn_frozen : (modConn s c f).frozen = s.frozen := rfl
@[simp] theorem modConn_kept : (modConn s c f).kept = s.kept := rfl
@[simp] theorem modConn_mem : (modConn s c f).mem = s.mem := rfl
@[simp] theorem modConn_arb : (modConn s c f).arb = s.arb := rfl
@[simp] theorem modConn_flash : (modConn s c f).flash = s.flash := rfl
@[simp] theorem modConn_tx : (modConn s c f).tx = s.tx := rfl
@[simp] theorem modConn_kln : (modConn s c f).kln = s.kln := rfl
@[simp] theorem modConn_crd : (modConn s c f).crd = s.crd := rfl
@[simp] theorem modConn_emb : (modConn s c f).emb = s.emb := rfl
@[simp] theorem modConn_chn : (modConn s c f).chn = s.chn := rfl
@[simp] theorem modConn_mea : (modConn s c f).mea = s.mea := rfl
@[simp] theorem modConn_trc : (modConn s c f).trc = s.trc := rfl
@[simp] theorem modConn_est : (modConn s c f).est = s.est := rfl
@[simp] theorem modConn_imp : (modConn s c f).imp = s.imp := rfl
@[simp] theorem modConn_ctl : (modConn s c f).ctl = s.ctl := rfl
@[simp] theorem modConn_hrp : (modConn s c f).hrp = s.hrp := rfl
@[simp] theorem modConn_thm : (modConn s c f).thm = s.thm := rfl
@[simp] theorem modConn_lgc : (modConn s c f).lgc = s.lgc := rfl
@[simp] theorem modConn_fio : (modConn s c f).fio = s.fio := rfl
@[simp] theorem modConn_can : (modConn s c f).can = s.can := rfl
@[simp] theorem modConn_tim : (modConn s c f).tim = s.tim := rfl
@[simp] theorem modConn_hst : (modConn s c f).hst = s.hst := rfl
@[simp] theorem modConn_recd : (modConn s c f).recd = s.recd := rfl
@[simp] theorem modConn_par : (modConn s c f).par = s.par := rfl
@[simp] theorem modConn_upd : (modConn s c f).upd = s.upd := rfl
@[simp] theorem modConn_pnl : (modConn s c f).pnl = s.pnl := rfl

end

section
variable (s : State) (p : Nat) (f : NetPort → NetPort)

@[simp] theorem modNet_pending : (modNet s p f).pending = s.pending := rfl
@[simp] theorem modNet_variant : (modNet s p f).variant = s.variant := rfl
@[simp] theorem modNet_now : (modNet s p f).now = s.now := rfl
@[simp] theorem modNet_fresh : (modNet s p f).fresh = s.fresh := rfl
@[simp] theorem modNet_regs : (modNet s p f).regs = s.regs := rfl
@[simp] theorem modNet_shadow : (modNet s p f).shadow = s.shadow := rfl
@[simp] theorem modNet_frozen : (modNet s p f).frozen = s.frozen := rfl
@[simp] theorem modNet_kept : (modNet s p f).kept = s.kept := rfl
@[simp] theorem modNet_mem : (modNet s p f).mem = s.mem := rfl
@[simp] theorem modNet_arb : (modNet s p f).arb = s.arb := rfl
@[simp] theorem modNet_flash : (modNet s p f).flash = s.flash := rfl
@[simp] theorem modNet_tx : (modNet s p f).tx = s.tx := rfl
@[simp] theorem modNet_kln : (modNet s p f).kln = s.kln := rfl
@[simp] theorem modNet_crd : (modNet s p f).crd = s.crd := rfl
@[simp] theorem modNet_emb : (modNet s p f).emb = s.emb := rfl
@[simp] theorem modNet_chn : (modNet s p f).chn = s.chn := rfl
@[simp] theorem modNet_mea : (modNet s p f).mea = s.mea := rfl
@[simp] theorem modNet_trc : (modNet s p f).trc = s.trc := rfl
@[simp] theorem modNet_est : (modNet s p f).est = s.est := rfl
@[simp] theorem modNet_imp : (modNet s p f).imp = s.imp := rfl
@[simp] theorem modNet_ctl : (modNet s p f).ctl = s.ctl := rfl
@[simp] theorem modNet_hrp : (modNet s p f).hrp = s.hrp := rfl
@[simp] theorem modNet_thm : (modNet s p f).thm = s.thm := rfl
@[simp] theorem modNet_saf : (modNet s p f).saf = s.saf := rfl
@[simp] theorem modNet_lgc : (modNet s p f).lgc = s.lgc := rfl
@[simp] theorem modNet_fio : (modNet s p f).fio = s.fio := rfl
@[simp] theorem modNet_can : (modNet s p f).can = s.can := rfl
@[simp] theorem modNet_hst : (modNet s p f).hst = s.hst := rfl
@[simp] theorem modNet_recd : (modNet s p f).recd = s.recd := rfl
@[simp] theorem modNet_par : (modNet s p f).par = s.par := rfl
@[simp] theorem modNet_upd : (modNet s p f).upd = s.upd := rfl
@[simp] theorem modNet_pnl : (modNet s p f).pnl = s.pnl := rfl

end

end Sys2Proof.Machine
end

