-- ==== Sys2Proof/Laws/Tab.lean ====
section
/-!
SUPPORT. What reading gives after writing a sparse table, for any list of pairs, and that writing keeps the canonical
form.
-/

namespace Sys2Proof.Machine

variable {α : Type}

theorem tget_dropWhile_le (d : α) (t : Tab α) (i j : Nat) (h : i ≤ j) (hj : j ≠ i) :
    tget d (t.dropWhile fun p => p.1 ≤ i) j = tget d t j := by
  induction t with
  | nil => rfl
  | cons p t ih =>
    obtain ⟨k, u⟩ := p
    by_cases hk : k ≤ i
    · have h1 : ¬ j = k := by omega
      have h2 : ¬ j < k := by omega
      simp [List.dropWhile, hk, ih, tget, h1, h2]
    · simp [List.dropWhile, hk]

theorem tget_dropWhile_of_le (d : α) (t : Tab α) (i j : Nat) (h : j ≤ i) :
    tget d (t.dropWhile fun p => p.1 ≤ i) j = d := by
  induction t with
  | nil => rfl
  | cons p t ih =>
    obtain ⟨k, u⟩ := p
    by_cases hk : k ≤ i
    · simp [List.dropWhile, hk, ih]
    · have h1 : ¬ j = k := by omega
      have h2 : j < k := by omega
      simp [List.dropWhile, hk, tget, h1, h2]

/-- Reading where one has written gives the value written. -/
@[simp] theorem tget_tset_self [DecidableEq α] (d : α) (t : Tab α) (i : Nat) (v : α) : tget d (tset d t i v) i = v := by
  induction t with
  | nil => by_cases h : v = d <;> simp [tset, tget, h]
  | cons p t ih =>
    obtain ⟨k, u⟩ := p
    by_cases h1 : i = k
    · subst h1
      by_cases h : v = d
      · simp [tset, h, tget_dropWhile_of_le]
      · simp [tset, h, tget]
    · by_cases h2 : i < k
      · by_cases h : v = d <;> simp [tset, tget, h1, h2, h]
      · simp [tset, tget, h1, h2, ih]

/-- Reading elsewhere gives what was there, whatever the reader takes an unlisted entry for. -/
theorem tget_tset_of_ne_any [DecidableEq α] (d e : α) (t : Tab α) (i j : Nat) (v : α) (hj : j ≠ i) :
    tget e (tset d t i v) j = tget e t j := by
  induction t with
  | nil => by_cases h : v = d <;> simp [tset, tget, h, hj]
  | cons p t ih =>
    obtain ⟨k, u⟩ := p
    by_cases h1 : i = k
    · subst h1
      by_cases h : v = d
      · rcases Nat.lt_or_gt_of_ne hj with hlt | hgt
        · simp [tset, h, tget, hj, hlt, tget_dropWhile_of_le _ _ _ _ (Nat.le_of_lt hlt)]
        · have h3 : ¬ j < i := by omega
          simp [tset, h, tget, hj, h3, tget_dropWhile_le _ _ _ _ (Nat.le_of_lt hgt) hj]
      · simp [tset, h, tget, hj]
    · by_cases h2 : i < k
      · by_cases h : v = d
        · simp [tset, tget, h1, h2, h]
        · by_cases h3 : j < i
          · have h4 : ¬ j = k := by omega
            have h5 : j < k := by omega
            simp [tset, tget, h1, h2, h, hj, h3, h4, h5]
          · simp [tset, tget, h1, h2, h, hj, h3]
      · by_cases h3 : j = k
        · simp [tset, tget, h1, h2, h3]
        · by_cases h4 : j < k <;> simp [tset, tget, h1, h2, h3, h4, ih]

/-- Reading elsewhere gives what was there. -/
theorem tget_tset_of_ne [DecidableEq α] (d : α) (t : Tab α) (i j : Nat) (v : α) (hj : j ≠ i) :
    tget d (tset d t i v) j = tget d t j := tget_tset_of_ne_any d d t i j v hj

@[simp] theorem tget_tmod_self [DecidableEq α] (d : α) (t : Tab α) (i : Nat) (f : α → α) :
    tget d (tmod d t i f) i = f (tget d t i) := by simp [tmod]

theorem tget_tmod_of_ne [DecidableEq α] (d : α) (t : Tab α) (i j : Nat) (f : α → α) (hj : j ≠ i) :
    tget d (tmod d t i f) j = tget d t j := by simp [tmod, tget_tset_of_ne, hj]

theorem tabAbove_mono [DecidableEq α] (d : α) (t : Tab α) {b c : Nat} (h : c ≤ b) (hb : tabAbove d b t = true) :
    tabAbove d c t = true := by
  cases t with
  | nil => rfl
  | cons p t =>
    obtain ⟨k, u⟩ := p
    simp only [tabAbove, Bool.and_eq_true, decide_eq_true_eq] at hb ⊢
    exact ⟨⟨by omega, hb.1.2⟩, hb.2⟩

theorem dropWhile_tabAbove [DecidableEq α] (d : α) (t : Tab α) {b i : Nat} (h : i < b) (hb : tabAbove d b t = true) :
    (t.dropWhile fun p => p.1 ≤ i) = t := by
  cases t with
  | nil => rfl
  | cons p t =>
    obtain ⟨k, u⟩ := p
    simp only [tabAbove, Bool.and_eq_true, decide_eq_true_eq] at hb
    have : ¬ k ≤ i := by omega
    simp [List.dropWhile, this]

theorem tabAbove_tset [DecidableEq α] (d : α) (t : Tab α) {b : Nat} (i : Nat) (v : α) (hi : b ≤ i)
    (hb : tabAbove d b t = true) : tabAbove d b (tset d t i v) = true := by
  induction t generalizing b with
  | nil => by_cases h : v = d <;> simp [tset, tabAbove, h, hi]
  | cons p t ih =>
    obtain ⟨k, u⟩ := p
    simp only [tabAbove, Bool.and_eq_true, decide_eq_true_eq] at hb
    by_cases h1 : i = k
    · subst h1
      by_cases h : v = d
      · simp only [tset, h, if_true]
        rw [dropWhile_tabAbove d t (Nat.lt_succ_self i) hb.2]
        exact tabAbove_mono d t (by omega) hb.2
      · simp [tset, tabAbove, h, hb.2, hi]
    · by_cases h2 : i < k
      · by_cases h : v = d
        · simp [tset, tabAbove, h1, h2, h, hb.1, hb.2]
        · have h3 : tabAbove d (i + 1) ((k, u) :: t) = true := by
            simp only [tabAbove, Bool.and_eq_true, decide_eq_true_eq]; exact ⟨⟨by omega, hb.1.2⟩, hb.2⟩
          simp only [tset, h1, h2, h, if_true, if_false]
          simp only [tabAbove, Bool.and_eq_true, decide_eq_true_eq] at h3 ⊢
          exact ⟨⟨hi, h⟩, h3⟩
      · have h3 : tabAbove d (k + 1) (tset d t i v) = true := ih (by omega) hb.2
        simp [tset, tabAbove, h1, h2, h3, hb.1]

/-- Writing keeps the canonical form. -/
theorem tabWf_tset [DecidableEq α] (d : α) (t : Tab α) (i : Nat) (v : α) (h : tabWf d t = true) :
    tabWf d (tset d t i v) = true := tabAbove_tset d t i v (Nat.zero_le i) h

end Sys2Proof.Machine
end

