-- ==== Sys2Proof/Laws/Access.lean ====
section
/-!
SUPPORT. What each indexed accessor reads after its update: the new entry where it was written, the old ones elsewhere.
-/

namespace Sys2Proof.Machine

@[simp] theorem win_modWin (s : State) (w : Nat) (f : Wnd → Wnd) : win (modWin s w f) w = f (win s w) := by
  simp [win, modWin]

theorem win_modWin_of_ne (s : State) (i w : Nat) (f : Wnd → Wnd) (h : i ≠ w) :
    win (modWin s w f) i = win s i := by
  simp [win, modWin, tget_tmod_of_ne _ _ _ _ _ h]

@[simp] theorem ring_modRing (s : State) (r : Nat) (f : Ring → Ring) : ring (modRing s r f) r = f (ring s r) := by
  simp [ring, modRing]

theorem ring_modRing_of_ne (s : State) (i r : Nat) (f : Ring → Ring) (h : i ≠ r) :
    ring (modRing s r f) i = ring s i := by
  simp [ring, modRing, tget_tmod_of_ne _ _ _ _ _ h]

@[simp] theorem lp_modLp (s : State) (k : Nat) (f : LoopS → LoopS) : lp (modLp s k f) k = f (lp s k) := by
  simp [lp, modLp]

theorem lp_modLp_of_ne (s : State) (i k : Nat) (f : LoopS → LoopS) (h : i ≠ k) :
    lp (modLp s k f) i = lp s i := by
  simp [lp, modLp, tget_tmod_of_ne _ _ _ _ _ h]

@[simp] theorem port_modPort (s : State) (j : Nat) (f : PortS → PortS) : port (modPort s j f) j = f (port s j) := by
  simp [port, modPort]

theorem port_modPort_of_ne (s : State) (i j : Nat) (f : PortS → PortS) (h : i ≠ j) :
    port (modPort s j f) i = port s i := by
  simp [port, modPort, tget_tmod_of_ne _ _ _ _ _ h]

@[simp] theorem chan_modChan (s : State) (c : Nat) (f : ChanS → ChanS) : chan (modChan s c f) c = f (chan s c) := by
  simp [chan, modChan]

theorem chan_modChan_of_ne (s : State) (i c : Nat) (f : ChanS → ChanS) (h : i ≠ c) :
    chan (modChan s c f) i = chan s i := by
  simp [chan, modChan, tget_tmod_of_ne _ _ _ _ _ h]

@[simp] theorem mstr_modMstr (s : State) (k : Nat) (f : MeaStr → MeaStr) : mstr (modMstr s k f) k = f (mstr s k) := by
  simp [mstr, modMstr]

theorem mstr_modMstr_of_ne (s : State) (i k : Nat) (f : MeaStr → MeaStr) (h : i ≠ k) :
    mstr (modMstr s k f) i = mstr s i := by
  simp [mstr, modMstr, tget_tmod_of_ne _ _ _ _ _ h]

@[simp] theorem sliceOf_modSlice (s : State) (i : Nat) (f : SliceS → SliceS) : sliceOf (modSlice s i f) i = f (sliceOf s i) := by
  simp [sliceOf, modSlice]

theorem sliceOf_modSlice_of_ne (s : State) (n i : Nat) (f : SliceS → SliceS) (h : n ≠ i) :
    sliceOf (modSlice s i f) n = sliceOf s n := by
  simp [sliceOf, modSlice, tget_tmod_of_ne _ _ _ _ _ h]

@[simp] theorem estr_modEstr (s : State) (k : Nat) (f : EstStr → EstStr) : estr (modEstr s k f) k = f (estr s k) := by
  simp [estr, modEstr]

theorem estr_modEstr_of_ne (s : State) (i k : Nat) (f : EstStr → EstStr) (h : i ≠ k) :
    estr (modEstr s k f) i = estr s i := by
  simp [estr, modEstr, tget_tmod_of_ne _ _ _ _ _ h]

@[simp] theorem cell_modCell (s : State) (n : Nat) (f : CellS → CellS) : cell (modCell s n f) n = f (cell s n) := by
  simp [cell, modCell]

theorem cell_modCell_of_ne (s : State) (i n : Nat) (f : CellS → CellS) (h : i ≠ n) :
    cell (modCell s n f) i = cell s i := by
  simp [cell, modCell, tget_tmod_of_ne _ _ _ _ _ h]

@[simp] theorem imps_modImp (s : State) (k : Nat) (f : ImpS → ImpS) : imps (modImp s k f) k = f (imps s k) := by
  simp [imps, modImp]

theorem imps_modImp_of_ne (s : State) (i k : Nat) (f : ImpS → ImpS) (h : i ≠ k) :
    imps (modImp s k f) i = imps s i := by
  simp [imps, modImp, tget_tmod_of_ne _ _ _ _ _ h]

@[simp] theorem ctx_modCtx (s : State) (n : Nat) (f : Ctx → Ctx) : ctx (modCtx s n f) n = f (ctx s n) := by
  simp [ctx, modCtx]

theorem ctx_modCtx_of_ne (s : State) (i n : Nat) (f : Ctx → Ctx) (h : i ≠ n) :
    ctx (modCtx s n f) i = ctx s i := by
  simp [ctx, modCtx, tget_tmod_of_ne _ _ _ _ _ h]

@[simp] theorem conv_modConv (s : State) (k : Nat) (f : Conv → Conv) : conv (modConv s k f) k = f (conv s k) := by
  simp [conv, modConv]

theorem conv_modConv_of_ne (s : State) (i k : Nat) (f : Conv → Conv) (h : i ≠ k) :
    conv (modConv s k f) i = conv s i := by
  simp [conv, modConv, tget_tmod_of_ne _ _ _ _ _ h]

@[simp] theorem gen_modGen (s : State) (g : Nat) (f : Gen → Gen) : gen (modGen s g f) g = f (gen s g) := by
  simp [gen, modGen]

theorem gen_modGen_of_ne (s : State) (i g : Nat) (f : Gen → Gen) (h : i ≠ g) :
    gen (modGen s g f) i = gen s i := by
  simp [gen, modGen, tget_tmod_of_ne _ _ _ _ _ h]

@[simp] theorem cap_modCap (s : State) (c : Nat) (f : Cap → Cap) : cap (modCap s c f) c = f (cap s c) := by
  simp [cap, modCap]

theorem cap_modCap_of_ne (s : State) (i c : Nat) (f : Cap → Cap) (h : i ≠ c) :
    cap (modCap s c f) i = cap s i := by
  simp [cap, modCap, tget_tmod_of_ne _ _ _ _ _ h]

@[simp] theorem pwm_modPwm (s : State) (j : Nat) (f : Pwm → Pwm) : pwm (modPwm s j f) j = f (pwm s j) := by
  simp [pwm, modPwm]

theorem pwm_modPwm_of_ne (s : State) (i j : Nat) (f : Pwm → Pwm) (h : i ≠ j) :
    pwm (modPwm s j f) i = pwm s i := by
  simp [pwm, modPwm, tget_tmod_of_ne _ _ _ _ _ h]

@[simp] theorem thmStr_modThmStr (s : State) (k : Nat) (f : ThmStr → ThmStr) : thmStr (modThmStr s k f) k = f (thmStr s k) := by
  simp [thmStr, modThmStr]

theorem thmStr_modThmStr_of_ne (s : State) (i k : Nat) (f : ThmStr → ThmStr) (h : i ≠ k) :
    thmStr (modThmStr s k f) i = thmStr s i := by
  simp [thmStr, modThmStr, tget_tmod_of_ne _ _ _ _ _ h]

@[simp] theorem can_modCan (s : State) (c : Nat) (f : Can → Can) : can (modCan s c f) c = f (can s c) := by
  simp [can, modCan]

theorem can_modCan_of_ne (s : State) (i c : Nat) (f : Can → Can) (h : i ≠ c) :
    can (modCan s c f) i = can s i := by
  simp [can, modCan, tget_tmod_of_ne _ _ _ _ _ h]

@[simp] theorem task_modTask (s : State) (t : Nat) (f : Task → Task) : task (modTask s t f) t = f (task s t) := by
  simp [task, modTask, modLgc]

theorem task_modTask_of_ne (s : State) (i t : Nat) (f : Task → Task) (h : i ≠ t) :
    task (modTask s t f) i = task s i := by
  simp [task, modTask, tget_tmod_of_ne _ _ _ _ _ h, modLgc]

@[simp] theorem stn_modStn (s : State) (n : Nat) (f : Stn → Stn) : stn (modStn s n f) n = f (stn s n) := by
  simp [stn, modStn, modLgc]

theorem stn_modStn_of_ne (s : State) (i n : Nat) (f : Stn → Stn) (h : i ≠ n) :
    stn (modStn s n f) i = stn s i := by
  simp [stn, modStn, tget_tmod_of_ne _ _ _ _ _ h, modLgc]

@[simp] theorem fin_modFin (s : State) (n : Nat) (f : FioIn → FioIn) : fin (modFin s n f) n = f (fin s n) := by
  simp [fin, modFin, modFio]

theorem fin_modFin_of_ne (s : State) (i n : Nat) (f : FioIn → FioIn) (h : i ≠ n) :
    fin (modFin s n f) i = fin s i := by
  simp [fin, modFin, tget_tmod_of_ne _ _ _ _ _ h, modFio]

@[simp] theorem fout_modFout (s : State) (j : Nat) (f : FioOut → FioOut) : fout (modFout s j f) j = f (fout s j) := by
  simp [fout, modFout, modFio]

theorem fout_modFout_of_ne (s : State) (i j : Nat) (f : FioOut → FioOut) (h : i ≠ j) :
    fout (modFout s j f) i = fout s i := by
  simp [fout, modFout, tget_tmod_of_ne _ _ _ _ _ h, modFio]

@[simp] theorem netPort_modNet (s : State) (p : Nat) (f : NetPort → NetPort) : netPort (modNet s p f) p = f (netPort s p) := by
  simp [netPort, modNet, modTim]

theorem netPort_modNet_of_ne (s : State) (i p : Nat) (f : NetPort → NetPort) (h : i ≠ p) :
    netPort (modNet s p f) i = netPort s i := by
  simp [netPort, modNet, tget_tmod_of_ne _ _ _ _ _ h, modTim]

@[simp] theorem sout_modSo (s : State) (j : Nat) (f : SafOut → SafOut) : sout (modSo s j f) j = f (sout s j) := by
  simp [sout, modSo, modSaf]

theorem sout_modSo_of_ne (s : State) (i j : Nat) (f : SafOut → SafOut) (h : i ≠ j) :
    sout (modSo s j f) i = sout s i := by
  simp [sout, modSo, tget_tmod_of_ne _ _ _ _ _ h, modSaf]

@[simp] theorem ctr_modCtr (s : State) (k : Nat) (f : Ctr → Ctr) : ctr (modCtr s k f) k = f (ctr s k) := by
  simp [ctr, modCtr, modSaf]

theorem ctr_modCtr_of_ne (s : State) (i k : Nat) (f : Ctr → Ctr) (h : i ≠ k) :
    ctr (modCtr s k f) i = ctr s i := by
  simp [ctr, modCtr, tget_tmod_of_ne _ _ _ _ _ h, modSaf]

@[simp] theorem sconn_modConn (s : State) (c : Nat) (f : SafConnS → SafConnS) : sconn (modConn s c f) c = f (sconn s c) := by
  simp [sconn, modConn, modSaf]

theorem sconn_modConn_of_ne (s : State) (i c : Nat) (f : SafConnS → SafConnS) (h : i ≠ c) :
    sconn (modConn s c f) i = sconn s i := by
  simp [sconn, modConn, tget_tmod_of_ne _ _ _ _ _ h, modSaf]

end Sys2Proof.Machine
end

