-- ==== Sys2Proof/Laws/Ops.lean ====
section
/-!
SUPPORT. For each operation that blocks share, the parts of the state that it leaves: a proof cites these and does not
unfold the operation.
-/

namespace Sys2Proof.Machine

/-- A fold of steps that each keep a reading keeps it. -/
theorem foldl_same {β γ : Type} (p : State → γ) (f : State → β → State) (h : ∀ s b, p (f s b) = p s) (l : List β) (s : State) :
    p (l.foldl f s) = p s := by
  induction l generalizing s with
  | nil => rfl
  | cons b t ih => rw [List.foldl_cons, ih, h]

section
variable (s : State) 

@[simp] theorem drawFree_pending : ((drawFree s).2).pending = s.pending := rfl
@[simp] theorem drawFree_variant : ((drawFree s).2).variant = s.variant := rfl
@[simp] theorem drawFree_now : ((drawFree s).2).now = s.now := rfl
@[simp] theorem drawFree_regs : ((drawFree s).2).regs = s.regs := rfl
@[simp] theorem drawFree_shadow : ((drawFree s).2).shadow = s.shadow := rfl
@[simp] theorem drawFree_frozen : ((drawFree s).2).frozen = s.frozen := rfl
@[simp] theorem drawFree_kept : ((drawFree s).2).kept = s.kept := rfl
@[simp] theorem drawFree_mem : ((drawFree s).2).mem = s.mem := rfl
@[simp] theorem drawFree_arb : ((drawFree s).2).arb = s.arb := rfl
@[simp] theorem drawFree_flash : ((drawFree s).2).flash = s.flash := rfl
@[simp] theorem drawFree_tx : ((drawFree s).2).tx = s.tx := rfl
@[simp] theorem drawFree_kln : ((drawFree s).2).kln = s.kln := rfl
@[simp] theorem drawFree_crd : ((drawFree s).2).crd = s.crd := rfl
@[simp] theorem drawFree_emb : ((drawFree s).2).emb = s.emb := rfl
@[simp] theorem drawFree_chn : ((drawFree s).2).chn = s.chn := rfl
@[simp] theorem drawFree_mea : ((drawFree s).2).mea = s.mea := rfl
@[simp] theorem drawFree_trc : ((drawFree s).2).trc = s.trc := rfl
@[simp] theorem drawFree_est : ((drawFree s).2).est = s.est := rfl
@[simp] theorem drawFree_imp : ((drawFree s).2).imp = s.imp := rfl
@[simp] theorem drawFree_ctl : ((drawFree s).2).ctl = s.ctl := rfl
@[simp] theorem drawFree_hrp : ((drawFree s).2).hrp = s.hrp := rfl
@[simp] theorem drawFree_thm : ((drawFree s).2).thm = s.thm := rfl
@[simp] theorem drawFree_saf : ((drawFree s).2).saf = s.saf := rfl
@[simp] theorem drawFree_lgc : ((drawFree s).2).lgc = s.lgc := rfl
@[simp] theorem drawFree_fio : ((drawFree s).2).fio = s.fio := rfl
@[simp] theorem drawFree_can : ((drawFree s).2).can = s.can := rfl
@[simp] theorem drawFree_tim : ((drawFree s).2).tim = s.tim := rfl
@[simp] theorem drawFree_hst : ((drawFree s).2).hst = s.hst := rfl
@[simp] theorem drawFree_recd : ((drawFree s).2).recd = s.recd := rfl
@[simp] theorem drawFree_par : ((drawFree s).2).par = s.par := rfl
@[simp] theorem drawFree_upd : ((drawFree s).2).upd = s.upd := rfl
@[simp] theorem drawFree_pnl : ((drawFree s).2).pnl = s.pnl := rfl

end

section
variable (s : State) (r : Nat) (bs : List Byte)

@[simp] theorem ringPlace_pending : (ringPlace s r bs).pending = s.pending := by simp [ringPlace]
@[simp] theorem ringPlace_variant : (ringPlace s r bs).variant = s.variant := by simp [ringPlace]
@[simp] theorem ringPlace_now : (ringPlace s r bs).now = s.now := by simp [ringPlace]
@[simp] theorem ringPlace_fresh : (ringPlace s r bs).fresh = s.fresh := by simp [ringPlace]
@[simp] theorem ringPlace_regs : (ringPlace s r bs).regs = s.regs := by simp [ringPlace]
@[simp] theorem ringPlace_shadow : (ringPlace s r bs).shadow = s.shadow := by simp [ringPlace]
@[simp] theorem ringPlace_frozen : (ringPlace s r bs).frozen = s.frozen := by simp [ringPlace]
@[simp] theorem ringPlace_kept : (ringPlace s r bs).kept = s.kept := by simp [ringPlace]
@[simp] theorem ringPlace_flash : (ringPlace s r bs).flash = s.flash := by simp [ringPlace]
@[simp] theorem ringPlace_tx : (ringPlace s r bs).tx = s.tx := by simp [ringPlace]
@[simp] theorem ringPlace_kln : (ringPlace s r bs).kln = s.kln := by simp [ringPlace]
@[simp] theorem ringPlace_crd : (ringPlace s r bs).crd = s.crd := by simp [ringPlace]
@[simp] theorem ringPlace_emb : (ringPlace s r bs).emb = s.emb := by simp [ringPlace]
@[simp] theorem ringPlace_chn : (ringPlace s r bs).chn = s.chn := by simp [ringPlace]
@[simp] theorem ringPlace_mea : (ringPlace s r bs).mea = s.mea := by simp [ringPlace]
@[simp] theorem ringPlace_trc : (ringPlace s r bs).trc = s.trc := by simp [ringPlace]
@[simp] theorem ringPlace_est : (ringPlace s r bs).est = s.est := by simp [ringPlace]
@[simp] theorem ringPlace_imp : (ringPlace s r bs).imp = s.imp := by simp [ringPlace]
@[simp] theorem ringPlace_ctl : (ringPlace s r bs).ctl = s.ctl := by simp [ringPlace]
@[simp] theorem ringPlace_hrp : (ringPlace s r bs).hrp = s.hrp := by simp [ringPlace]
@[simp] theorem ringPlace_thm : (ringPlace s r bs).thm = s.thm := by simp [ringPlace]
@[simp] theorem ringPlace_saf : (ringPlace s r bs).saf = s.saf := by simp [ringPlace]
@[simp] theorem ringPlace_lgc : (ringPlace s r bs).lgc = s.lgc := by simp [ringPlace]
@[simp] theorem ringPlace_fio : (ringPlace s r bs).fio = s.fio := by simp [ringPlace]
@[simp] theorem ringPlace_can : (ringPlace s r bs).can = s.can := by simp [ringPlace]
@[simp] theorem ringPlace_tim : (ringPlace s r bs).tim = s.tim := by simp [ringPlace]
@[simp] theorem ringPlace_recd : (ringPlace s r bs).recd = s.recd := by simp [ringPlace]
@[simp] theorem ringPlace_par : (ringPlace s r bs).par = s.par := by simp [ringPlace]
@[simp] theorem ringPlace_upd : (ringPlace s r bs).upd = s.upd := by simp [ringPlace]
@[simp] theorem ringPlace_pnl : (ringPlace s r bs).pnl = s.pnl := by simp [ringPlace]

end

section
variable (s : State) (r : Nat) (d : Desc) (n : Nat)

@[simp] theorem ringPutAt_pending : ((ringPutAt s r d n).2).pending = s.pending := by
  unfold ringPutAt; dsimp only; split
  · rfl
  · split
    · rfl
    · split
      · simp
      · split <;> rfl
@[simp] theorem ringPutAt_variant : ((ringPutAt s r d n).2).variant = s.variant := by
  unfold ringPutAt; dsimp only; split
  · rfl
  · split
    · rfl
    · split
      · simp
      · split <;> rfl
@[simp] theorem ringPutAt_now : ((ringPutAt s r d n).2).now = s.now := by
  unfold ringPutAt; dsimp only; split
  · rfl
  · split
    · rfl
    · split
      · simp
      · split <;> rfl
@[simp] theorem ringPutAt_fresh : ((ringPutAt s r d n).2).fresh = s.fresh := by
  unfold ringPutAt; dsimp only; split
  · rfl
  · split
    · rfl
    · split
      · simp
      · split <;> rfl
@[simp] theorem ringPutAt_regs : ((ringPutAt s r d n).2).regs = s.regs := by
  unfold ringPutAt; dsimp only; split
  · rfl
  · split
    · rfl
    · split
      · simp
      · split <;> rfl
@[simp] theorem ringPutAt_shadow : ((ringPutAt s r d n).2).shadow = s.shadow := by
  unfold ringPutAt; dsimp only; split
  · rfl
  · split
    · rfl
    · split
      · simp
      · split <;> rfl
@[simp] theorem ringPutAt_frozen : ((ringPutAt s r d n).2).frozen = s.frozen := by
  unfold ringPutAt; dsimp only; split
  · rfl
  · split
    · rfl
    · split
      · simp
      · split <;> rfl
@[simp] theorem ringPutAt_kept : ((ringPutAt s r d n).2).kept = s.kept := by
  unfold ringPutAt; dsimp only; split
  · rfl
  · split
    · rfl
    · split
      · simp
      · split <;> rfl
@[simp] theorem ringPutAt_flash : ((ringPutAt s r d n).2).flash = s.flash := by
  unfold ringPutAt; dsimp only; split
  · rfl
  · split
    · rfl
    · split
      · simp
      · split <;> rfl
@[simp] theorem ringPutAt_tx : ((ringPutAt s r d n).2).tx = s.tx := by
  unfold ringPutAt; dsimp only; split
  · rfl
  · split
    · rfl
    · split
      · simp
      · split <;> rfl
@[simp] theorem ringPutAt_kln : ((ringPutAt s r d n).2).kln = s.kln := by
  unfold ringPutAt; dsimp only; split
  · rfl
  · split
    · rfl
    · split
      · simp
      · split <;> rfl
@[simp] theorem ringPutAt_crd : ((ringPutAt s r d n).2).crd = s.crd := by
  unfold ringPutAt; dsimp only; split
  · rfl
  · split
    · rfl
    · split
      · simp
      · split <;> rfl
@[simp] theorem ringPutAt_emb : ((ringPutAt s r d n).2).emb = s.emb := by
  unfold ringPutAt; dsimp only; split
  · rfl
  · split
    · rfl
    · split
      · simp
      · split <;> rfl
@[simp] theorem ringPutAt_chn : ((ringPutAt s r d n).2).chn = s.chn := by
  unfold ringPutAt; dsimp only; split
  · rfl
  · split
    · rfl
    · split
      · simp
      · split <;> rfl
@[simp] theorem ringPutAt_mea : ((ringPutAt s r d n).2).mea = s.mea := by
  unfold ringPutAt; dsimp only; split
  · rfl
  · split
    · rfl
    · split
      · simp
      · split <;> rfl
@[simp] theorem ringPutAt_trc : ((ringPutAt s r d n).2).trc = s.trc := by
  unfold ringPutAt; dsimp only; split
  · rfl
  · split
    · rfl
    · split
      · simp
      · split <;> rfl
@[simp] theorem ringPutAt_est : ((ringPutAt s r d n).2).est = s.est := by
  unfold ringPutAt; dsimp only; split
  · rfl
  · split
    · rfl
    · split
      · simp
      · split <;> rfl
@[simp] theorem ringPutAt_imp : ((ringPutAt s r d n).2).imp = s.imp := by
  unfold ringPutAt; dsimp only; split
  · rfl
  · split
    · rfl
    · split
      · simp
      · split <;> rfl
@[simp] theorem ringPutAt_ctl : ((ringPutAt s r d n).2).ctl = s.ctl := by
  unfold ringPutAt; dsimp only; split
  · rfl
  · split
    · rfl
    · split
      · simp
      · split <;> rfl
@[simp] theorem ringPutAt_hrp : ((ringPutAt s r d n).2).hrp = s.hrp := by
  unfold ringPutAt; dsimp only; split
  · rfl
  · split
    · rfl
    · split
      · simp
      · split <;> rfl
@[simp] theorem ringPutAt_thm : ((ringPutAt s r d n).2).thm = s.thm := by
  unfold ringPutAt; dsimp only; split
  · rfl
  · split
    · rfl
    · split
      · simp
      · split <;> rfl
@[simp] theorem ringPutAt_saf : ((ringPutAt s r d n).2).saf = s.saf := by
  unfold ringPutAt; dsimp only; split
  · rfl
  · split
    · rfl
    · split
      · simp
      · split <;> rfl
@[simp] theorem ringPutAt_lgc : ((ringPutAt s r d n).2).lgc = s.lgc := by
  unfold ringPutAt; dsimp only; split
  · rfl
  · split
    · rfl
    · split
      · simp
      · split <;> rfl
@[simp] theorem ringPutAt_fio : ((ringPutAt s r d n).2).fio = s.fio := by
  unfold ringPutAt; dsimp only; split
  · rfl
  · split
    · rfl
    · split
      · simp
      · split <;> rfl
@[simp] theorem ringPutAt_can : ((ringPutAt s r d n).2).can = s.can := by
  unfold ringPutAt; dsimp only; split
  · rfl
  · split
    · rfl
    · split
      · simp
      · split <;> rfl
@[simp] theorem ringPutAt_tim : ((ringPutAt s r d n).2).tim = s.tim := by
  unfold ringPutAt; dsimp only; split
  · rfl
  · split
    · rfl
    · split
      · simp
      · split <;> rfl
@[simp] theorem ringPutAt_recd : ((ringPutAt s r d n).2).recd = s.recd := by
  unfold ringPutAt; dsimp only; split
  · rfl
  · split
    · rfl
    · split
      · simp
      · split <;> rfl
@[simp] theorem ringPutAt_par : ((ringPutAt s r d n).2).par = s.par := by
  unfold ringPutAt; dsimp only; split
  · rfl
  · split
    · rfl
    · split
      · simp
      · split <;> rfl
@[simp] theorem ringPutAt_upd : ((ringPutAt s r d n).2).upd = s.upd := by
  unfold ringPutAt; dsimp only; split
  · rfl
  · split
    · rfl
    · split
      · simp
      · split <;> rfl
@[simp] theorem ringPutAt_pnl : ((ringPutAt s r d n).2).pnl = s.pnl := by
  unfold ringPutAt; dsimp only; split
  · rfl
  · split
    · rfl
    · split
      · simp
      · split <;> rfl

end

section
variable (s : State) (r : Nat) (d : Desc)

@[simp] theorem ringPut_pending : ((ringPut s r d).2).pending = s.pending := by simp [ringPut]
@[simp] theorem ringPut_variant : ((ringPut s r d).2).variant = s.variant := by simp [ringPut]
@[simp] theorem ringPut_now : ((ringPut s r d).2).now = s.now := by simp [ringPut]
@[simp] theorem ringPut_fresh : ((ringPut s r d).2).fresh = s.fresh := by simp [ringPut]
@[simp] theorem ringPut_regs : ((ringPut s r d).2).regs = s.regs := by simp [ringPut]
@[simp] theorem ringPut_shadow : ((ringPut s r d).2).shadow = s.shadow := by simp [ringPut]
@[simp] theorem ringPut_frozen : ((ringPut s r d).2).frozen = s.frozen := by simp [ringPut]
@[simp] theorem ringPut_kept : ((ringPut s r d).2).kept = s.kept := by simp [ringPut]
@[simp] theorem ringPut_flash : ((ringPut s r d).2).flash = s.flash := by simp [ringPut]
@[simp] theorem ringPut_tx : ((ringPut s r d).2).tx = s.tx := by simp [ringPut]
@[simp] theorem ringPut_kln : ((ringPut s r d).2).kln = s.kln := by simp [ringPut]
@[simp] theorem ringPut_crd : ((ringPut s r d).2).crd = s.crd := by simp [ringPut]
@[simp] theorem ringPut_emb : ((ringPut s r d).2).emb = s.emb := by simp [ringPut]
@[simp] theorem ringPut_chn : ((ringPut s r d).2).chn = s.chn := by simp [ringPut]
@[simp] theorem ringPut_mea : ((ringPut s r d).2).mea = s.mea := by simp [ringPut]
@[simp] theorem ringPut_trc : ((ringPut s r d).2).trc = s.trc := by simp [ringPut]
@[simp] theorem ringPut_est : ((ringPut s r d).2).est = s.est := by simp [ringPut]
@[simp] theorem ringPut_imp : ((ringPut s r d).2).imp = s.imp := by simp [ringPut]
@[simp] theorem ringPut_ctl : ((ringPut s r d).2).ctl = s.ctl := by simp [ringPut]
@[simp] theorem ringPut_hrp : ((ringPut s r d).2).hrp = s.hrp := by simp [ringPut]
@[simp] theorem ringPut_thm : ((ringPut s r d).2).thm = s.thm := by simp [ringPut]
@[simp] theorem ringPut_saf : ((ringPut s r d).2).saf = s.saf := by simp [ringPut]
@[simp] theorem ringPut_lgc : ((ringPut s r d).2).lgc = s.lgc := by simp [ringPut]
@[simp] theorem ringPut_fio : ((ringPut s r d).2).fio = s.fio := by simp [ringPut]
@[simp] theorem ringPut_can : ((ringPut s r d).2).can = s.can := by simp [ringPut]
@[simp] theorem ringPut_tim : ((ringPut s r d).2).tim = s.tim := by simp [ringPut]
@[simp] theorem ringPut_recd : ((ringPut s r d).2).recd = s.recd := by simp [ringPut]
@[simp] theorem ringPut_par : ((ringPut s r d).2).par = s.par := by simp [ringPut]
@[simp] theorem ringPut_upd : ((ringPut s r d).2).upd = s.upd := by simp [ringPut]
@[simp] theorem ringPut_pnl : ((ringPut s r d).2).pnl = s.pnl := by simp [ringPut]

end

section
variable (s : State) (r : Nat)

@[simp] theorem ringPop_pending : (ringPop s r).pending = s.pending := rfl
@[simp] theorem ringPop_variant : (ringPop s r).variant = s.variant := rfl
@[simp] theorem ringPop_now : (ringPop s r).now = s.now := rfl
@[simp] theorem ringPop_fresh : (ringPop s r).fresh = s.fresh := rfl
@[simp] theorem ringPop_regs : (ringPop s r).regs = s.regs := rfl
@[simp] theorem ringPop_shadow : (ringPop s r).shadow = s.shadow := rfl
@[simp] theorem ringPop_frozen : (ringPop s r).frozen = s.frozen := rfl
@[simp] theorem ringPop_kept : (ringPop s r).kept = s.kept := rfl
@[simp] theorem ringPop_mem : (ringPop s r).mem = s.mem := rfl
@[simp] theorem ringPop_flash : (ringPop s r).flash = s.flash := rfl
@[simp] theorem ringPop_tx : (ringPop s r).tx = s.tx := rfl
@[simp] theorem ringPop_kln : (ringPop s r).kln = s.kln := rfl
@[simp] theorem ringPop_crd : (ringPop s r).crd = s.crd := rfl
@[simp] theorem ringPop_emb : (ringPop s r).emb = s.emb := rfl
@[simp] theorem ringPop_chn : (ringPop s r).chn = s.chn := rfl
@[simp] theorem ringPop_mea : (ringPop s r).mea = s.mea := rfl
@[simp] theorem ringPop_trc : (ringPop s r).trc = s.trc := rfl
@[simp] theorem ringPop_est : (ringPop s r).est = s.est := rfl
@[simp] theorem ringPop_imp : (ringPop s r).imp = s.imp := rfl
@[simp] theorem ringPop_ctl : (ringPop s r).ctl = s.ctl := rfl
@[simp] theorem ringPop_hrp : (ringPop s r).hrp = s.hrp := rfl
@[simp] theorem ringPop_thm : (ringPop s r).thm = s.thm := rfl
@[simp] theorem ringPop_saf : (ringPop s r).saf = s.saf := rfl
@[simp] theorem ringPop_lgc : (ringPop s r).lgc = s.lgc := rfl
@[simp] theorem ringPop_fio : (ringPop s r).fio = s.fio := rfl
@[simp] theorem ringPop_can : (ringPop s r).can = s.can := rfl
@[simp] theorem ringPop_tim : (ringPop s r).tim = s.tim := rfl
@[simp] theorem ringPop_recd : (ringPop s r).recd = s.recd := rfl
@[simp] theorem ringPop_par : (ringPop s r).par = s.par := rfl
@[simp] theorem ringPop_upd : (ringPop s r).upd = s.upd := rfl
@[simp] theorem ringPop_pnl : (ringPop s r).pnl = s.pnl := rfl

end

section
variable (s : State) (b : Byte) (a : Nat)

@[simp] theorem violCount_pending : (violCount s b a).pending = s.pending := rfl
@[simp] theorem violCount_variant : (violCount s b a).variant = s.variant := rfl
@[simp] theorem violCount_now : (violCount s b a).now = s.now := rfl
@[simp] theorem violCount_fresh : (violCount s b a).fresh = s.fresh := rfl
@[simp] theorem violCount_regs : (violCount s b a).regs = s.regs := rfl
@[simp] theorem violCount_shadow : (violCount s b a).shadow = s.shadow := rfl
@[simp] theorem violCount_frozen : (violCount s b a).frozen = s.frozen := rfl
@[simp] theorem violCount_kept : (violCount s b a).kept = s.kept := rfl
@[simp] theorem violCount_mem : (violCount s b a).mem = s.mem := rfl
@[simp] theorem violCount_arb : (violCount s b a).arb = s.arb := rfl
@[simp] theorem violCount_flash : (violCount s b a).flash = s.flash := rfl
@[simp] theorem violCount_tx : (violCount s b a).tx = s.tx := rfl
@[simp] theorem violCount_crd : (violCount s b a).crd = s.crd := rfl
@[simp] theorem violCount_emb : (violCount s b a).emb = s.emb := rfl
@[simp] theorem violCount_chn : (violCount s b a).chn = s.chn := rfl
@[simp] theorem violCount_mea : (violCount s b a).mea = s.mea := rfl
@[simp] theorem violCount_trc : (violCount s b a).trc = s.trc := rfl
@[simp] theorem violCount_est : (violCount s b a).est = s.est := rfl
@[simp] theorem violCount_imp : (violCount s b a).imp = s.imp := rfl
@[simp] theorem violCount_ctl : (violCount s b a).ctl = s.ctl := rfl
@[simp] theorem violCount_hrp : (violCount s b a).hrp = s.hrp := rfl
@[simp] theorem violCount_thm : (violCount s b a).thm = s.thm := rfl
@[simp] theorem violCount_saf : (violCount s b a).saf = s.saf := rfl
@[simp] theorem violCount_lgc : (violCount s b a).lgc = s.lgc := rfl
@[simp] theorem violCount_fio : (violCount s b a).fio = s.fio := rfl
@[simp] theorem violCount_can : (violCount s b a).can = s.can := rfl
@[simp] theorem violCount_tim : (violCount s b a).tim = s.tim := rfl
@[simp] theorem violCount_hst : (violCount s b a).hst = s.hst := rfl
@[simp] theorem violCount_recd : (violCount s b a).recd = s.recd := rfl
@[simp] theorem violCount_par : (violCount s b a).par = s.par := rfl
@[simp] theorem violCount_upd : (violCount s b a).upd = s.upd := rfl
@[simp] theorem violCount_pnl : (violCount s b a).pnl = s.pnl := rfl

end

section
variable (s : State) (off : Nat) (bs : List Byte)

@[simp] theorem slotStore_pending : (slotStore s off bs).pending = s.pending := by unfold slotStore; split; rfl; split <;> simp
@[simp] theorem slotStore_variant : (slotStore s off bs).variant = s.variant := by unfold slotStore; split; rfl; split <;> simp
@[simp] theorem slotStore_now : (slotStore s off bs).now = s.now := by unfold slotStore; split; rfl; split <;> simp
@[simp] theorem slotStore_fresh : (slotStore s off bs).fresh = s.fresh := by unfold slotStore; split; rfl; split <;> simp
@[simp] theorem slotStore_regs : (slotStore s off bs).regs = s.regs := by unfold slotStore; split; rfl; split <;> simp
@[simp] theorem slotStore_shadow : (slotStore s off bs).shadow = s.shadow := by unfold slotStore; split; rfl; split <;> simp
@[simp] theorem slotStore_frozen : (slotStore s off bs).frozen = s.frozen := by unfold slotStore; split; rfl; split <;> simp
@[simp] theorem slotStore_kept : (slotStore s off bs).kept = s.kept := by unfold slotStore; split; rfl; split <;> simp
@[simp] theorem slotStore_flash : (slotStore s off bs).flash = s.flash := by unfold slotStore; split; rfl; split <;> simp
@[simp] theorem slotStore_tx : (slotStore s off bs).tx = s.tx := by unfold slotStore; split; rfl; split <;> simp
@[simp] theorem slotStore_crd : (slotStore s off bs).crd = s.crd := by unfold slotStore; split; rfl; split <;> simp
@[simp] theorem slotStore_emb : (slotStore s off bs).emb = s.emb := by unfold slotStore; split; rfl; split <;> simp
@[simp] theorem slotStore_chn : (slotStore s off bs).chn = s.chn := by unfold slotStore; split; rfl; split <;> simp
@[simp] theorem slotStore_mea : (slotStore s off bs).mea = s.mea := by unfold slotStore; split; rfl; split <;> simp
@[simp] theorem slotStore_trc : (slotStore s off bs).trc = s.trc := by unfold slotStore; split; rfl; split <;> simp
@[simp] theorem slotStore_est : (slotStore s off bs).est = s.est := by unfold slotStore; split; rfl; split <;> simp
@[simp] theorem slotStore_imp : (slotStore s off bs).imp = s.imp := by unfold slotStore; split; rfl; split <;> simp
@[simp] theorem slotStore_ctl : (slotStore s off bs).ctl = s.ctl := by unfold slotStore; split; rfl; split <;> simp
@[simp] theorem slotStore_hrp : (slotStore s off bs).hrp = s.hrp := by unfold slotStore; split; rfl; split <;> simp
@[simp] theorem slotStore_thm : (slotStore s off bs).thm = s.thm := by unfold slotStore; split; rfl; split <;> simp
@[simp] theorem slotStore_saf : (slotStore s off bs).saf = s.saf := by unfold slotStore; split; rfl; split <;> simp
@[simp] theorem slotStore_lgc : (slotStore s off bs).lgc = s.lgc := by unfold slotStore; split; rfl; split <;> simp
@[simp] theorem slotStore_fio : (slotStore s off bs).fio = s.fio := by unfold slotStore; split; rfl; split <;> simp
@[simp] theorem slotStore_can : (slotStore s off bs).can = s.can := by unfold slotStore; split; rfl; split <;> simp
@[simp] theorem slotStore_tim : (slotStore s off bs).tim = s.tim := by unfold slotStore; split; rfl; split <;> simp
@[simp] theorem slotStore_hst : (slotStore s off bs).hst = s.hst := by unfold slotStore; split; rfl; split <;> simp
@[simp] theorem slotStore_recd : (slotStore s off bs).recd = s.recd := by unfold slotStore; split; rfl; split <;> simp
@[simp] theorem slotStore_par : (slotStore s off bs).par = s.par := by unfold slotStore; split; rfl; split <;> simp
@[simp] theorem slotStore_upd : (slotStore s off bs).upd = s.upd := by unfold slotStore; split; rfl; split <;> simp
@[simp] theorem slotStore_pnl : (slotStore s off bs).pnl = s.pnl := by unfold slotStore; split; rfl; split <;> simp

end

section
variable (s : State) (w bit src : Nat)

@[simp] theorem winEvent_pending : (winEvent s w bit src).pending = s.pending := by unfold winEvent; split <;> simp
@[simp] theorem winEvent_variant : (winEvent s w bit src).variant = s.variant := by unfold winEvent; split <;> simp
@[simp] theorem winEvent_now : (winEvent s w bit src).now = s.now := by unfold winEvent; split <;> simp
@[simp] theorem winEvent_fresh : (winEvent s w bit src).fresh = s.fresh := by unfold winEvent; split <;> simp
@[simp] theorem winEvent_regs : (winEvent s w bit src).regs = s.regs := by unfold winEvent; split <;> simp
@[simp] theorem winEvent_shadow : (winEvent s w bit src).shadow = s.shadow := by unfold winEvent; split <;> simp
@[simp] theorem winEvent_frozen : (winEvent s w bit src).frozen = s.frozen := by unfold winEvent; split <;> simp
@[simp] theorem winEvent_kept : (winEvent s w bit src).kept = s.kept := by unfold winEvent; split <;> simp
@[simp] theorem winEvent_flash : (winEvent s w bit src).flash = s.flash := by unfold winEvent; split <;> simp
@[simp] theorem winEvent_tx : (winEvent s w bit src).tx = s.tx := by unfold winEvent; split <;> simp
@[simp] theorem winEvent_kln : (winEvent s w bit src).kln = s.kln := by unfold winEvent; split <;> simp
@[simp] theorem winEvent_crd : (winEvent s w bit src).crd = s.crd := by unfold winEvent; split <;> simp
@[simp] theorem winEvent_emb : (winEvent s w bit src).emb = s.emb := by unfold winEvent; split <;> simp
@[simp] theorem winEvent_chn : (winEvent s w bit src).chn = s.chn := by unfold winEvent; split <;> simp
@[simp] theorem winEvent_mea : (winEvent s w bit src).mea = s.mea := by unfold winEvent; split <;> simp
@[simp] theorem winEvent_trc : (winEvent s w bit src).trc = s.trc := by unfold winEvent; split <;> simp
@[simp] theorem winEvent_est : (winEvent s w bit src).est = s.est := by unfold winEvent; split <;> simp
@[simp] theorem winEvent_imp : (winEvent s w bit src).imp = s.imp := by unfold winEvent; split <;> simp
@[simp] theorem winEvent_ctl : (winEvent s w bit src).ctl = s.ctl := by unfold winEvent; split <;> simp
@[simp] theorem winEvent_hrp : (winEvent s w bit src).hrp = s.hrp := by unfold winEvent; split <;> simp
@[simp] theorem winEvent_thm : (winEvent s w bit src).thm = s.thm := by unfold winEvent; split <;> simp
@[simp] theorem winEvent_saf : (winEvent s w bit src).saf = s.saf := by unfold winEvent; split <;> simp
@[simp] theorem winEvent_lgc : (winEvent s w bit src).lgc = s.lgc := by unfold winEvent; split <;> simp
@[simp] theorem winEvent_fio : (winEvent s w bit src).fio = s.fio := by unfold winEvent; split <;> simp
@[simp] theorem winEvent_can : (winEvent s w bit src).can = s.can := by unfold winEvent; split <;> simp
@[simp] theorem winEvent_tim : (winEvent s w bit src).tim = s.tim := by unfold winEvent; split <;> simp
@[simp] theorem winEvent_recd : (winEvent s w bit src).recd = s.recd := by unfold winEvent; split <;> simp
@[simp] theorem winEvent_par : (winEvent s w bit src).par = s.par := by unfold winEvent; split <;> simp
@[simp] theorem winEvent_upd : (winEvent s w bit src).upd = s.upd := by unfold winEvent; split <;> simp
@[simp] theorem winEvent_pnl : (winEvent s w bit src).pnl = s.pnl := by unfold winEvent; split <;> simp

end

section
variable (s : State) (bit src : Nat)

@[simp] theorem allEvent_pending : (allEvent s bit src).pending = s.pending := by unfold allEvent; exact foldl_same (·.pending) _ (fun s w => by simp) _ _
@[simp] theorem allEvent_variant : (allEvent s bit src).variant = s.variant := by unfold allEvent; exact foldl_same (·.variant) _ (fun s w => by simp) _ _
@[simp] theorem allEvent_now : (allEvent s bit src).now = s.now := by unfold allEvent; exact foldl_same (·.now) _ (fun s w => by simp) _ _
@[simp] theorem allEvent_fresh : (allEvent s bit src).fresh = s.fresh := by unfold allEvent; exact foldl_same (·.fresh) _ (fun s w => by simp) _ _
@[simp] theorem allEvent_regs : (allEvent s bit src).regs = s.regs := by unfold allEvent; exact foldl_same (·.regs) _ (fun s w => by simp) _ _
@[simp] theorem allEvent_shadow : (allEvent s bit src).shadow = s.shadow := by unfold allEvent; exact foldl_same (·.shadow) _ (fun s w => by simp) _ _
@[simp] theorem allEvent_frozen : (allEvent s bit src).frozen = s.frozen := by unfold allEvent; exact foldl_same (·.frozen) _ (fun s w => by simp) _ _
@[simp] theorem allEvent_kept : (allEvent s bit src).kept = s.kept := by unfold allEvent; exact foldl_same (·.kept) _ (fun s w => by simp) _ _
@[simp] theorem allEvent_flash : (allEvent s bit src).flash = s.flash := by unfold allEvent; exact foldl_same (·.flash) _ (fun s w => by simp) _ _
@[simp] theorem allEvent_tx : (allEvent s bit src).tx = s.tx := by unfold allEvent; exact foldl_same (·.tx) _ (fun s w => by simp) _ _
@[simp] theorem allEvent_kln : (allEvent s bit src).kln = s.kln := by unfold allEvent; exact foldl_same (·.kln) _ (fun s w => by simp) _ _
@[simp] theorem allEvent_crd : (allEvent s bit src).crd = s.crd := by unfold allEvent; exact foldl_same (·.crd) _ (fun s w => by simp) _ _
@[simp] theorem allEvent_emb : (allEvent s bit src).emb = s.emb := by unfold allEvent; exact foldl_same (·.emb) _ (fun s w => by simp) _ _
@[simp] theorem allEvent_chn : (allEvent s bit src).chn = s.chn := by unfold allEvent; exact foldl_same (·.chn) _ (fun s w => by simp) _ _
@[simp] theorem allEvent_mea : (allEvent s bit src).mea = s.mea := by unfold allEvent; exact foldl_same (·.mea) _ (fun s w => by simp) _ _
@[simp] theorem allEvent_trc : (allEvent s bit src).trc = s.trc := by unfold allEvent; exact foldl_same (·.trc) _ (fun s w => by simp) _ _
@[simp] theorem allEvent_est : (allEvent s bit src).est = s.est := by unfold allEvent; exact foldl_same (·.est) _ (fun s w => by simp) _ _
@[simp] theorem allEvent_imp : (allEvent s bit src).imp = s.imp := by unfold allEvent; exact foldl_same (·.imp) _ (fun s w => by simp) _ _
@[simp] theorem allEvent_ctl : (allEvent s bit src).ctl = s.ctl := by unfold allEvent; exact foldl_same (·.ctl) _ (fun s w => by simp) _ _
@[simp] theorem allEvent_hrp : (allEvent s bit src).hrp = s.hrp := by unfold allEvent; exact foldl_same (·.hrp) _ (fun s w => by simp) _ _
@[simp] theorem allEvent_thm : (allEvent s bit src).thm = s.thm := by unfold allEvent; exact foldl_same (·.thm) _ (fun s w => by simp) _ _
@[simp] theorem allEvent_saf : (allEvent s bit src).saf = s.saf := by unfold allEvent; exact foldl_same (·.saf) _ (fun s w => by simp) _ _
@[simp] theorem allEvent_lgc : (allEvent s bit src).lgc = s.lgc := by unfold allEvent; exact foldl_same (·.lgc) _ (fun s w => by simp) _ _
@[simp] theorem allEvent_fio : (allEvent s bit src).fio = s.fio := by unfold allEvent; exact foldl_same (·.fio) _ (fun s w => by simp) _ _
@[simp] theorem allEvent_can : (allEvent s bit src).can = s.can := by unfold allEvent; exact foldl_same (·.can) _ (fun s w => by simp) _ _
@[simp] theorem allEvent_tim : (allEvent s bit src).tim = s.tim := by unfold allEvent; exact foldl_same (·.tim) _ (fun s w => by simp) _ _
@[simp] theorem allEvent_recd : (allEvent s bit src).recd = s.recd := by unfold allEvent; exact foldl_same (·.recd) _ (fun s w => by simp) _ _
@[simp] theorem allEvent_par : (allEvent s bit src).par = s.par := by unfold allEvent; exact foldl_same (·.par) _ (fun s w => by simp) _ _
@[simp] theorem allEvent_upd : (allEvent s bit src).upd = s.upd := by unfold allEvent; exact foldl_same (·.upd) _ (fun s w => by simp) _ _
@[simp] theorem allEvent_pnl : (allEvent s bit src).pnl = s.pnl := by unfold allEvent; exact foldl_same (·.pnl) _ (fun s w => by simp) _ _

end

section
variable (s : State) (r : Nat) (d : Desc)

@[simp] theorem ringPush_pending : (ringPush s r d).pending = s.pending := by
  unfold ringPush; cases h : ringPut s r d with
  | mk a t =>
    have ht : t = (ringPut s r d).2 := by rw [h]
    dsimp only; split <;> simp [ht]
@[simp] theorem ringPush_variant : (ringPush s r d).variant = s.variant := by
  unfold ringPush; cases h : ringPut s r d with
  | mk a t =>
    have ht : t = (ringPut s r d).2 := by rw [h]
    dsimp only; split <;> simp [ht]
@[simp] theorem ringPush_now : (ringPush s r d).now = s.now := by
  unfold ringPush; cases h : ringPut s r d with
  | mk a t =>
    have ht : t = (ringPut s r d).2 := by rw [h]
    dsimp only; split <;> simp [ht]
@[simp] theorem ringPush_fresh : (ringPush s r d).fresh = s.fresh := by
  unfold ringPush; cases h : ringPut s r d with
  | mk a t =>
    have ht : t = (ringPut s r d).2 := by rw [h]
    dsimp only; split <;> simp [ht]
@[simp] theorem ringPush_regs : (ringPush s r d).regs = s.regs := by
  unfold ringPush; cases h : ringPut s r d with
  | mk a t =>
    have ht : t = (ringPut s r d).2 := by rw [h]
    dsimp only; split <;> simp [ht]
@[simp] theorem ringPush_shadow : (ringPush s r d).shadow = s.shadow := by
  unfold ringPush; cases h : ringPut s r d with
  | mk a t =>
    have ht : t = (ringPut s r d).2 := by rw [h]
    dsimp only; split <;> simp [ht]
@[simp] theorem ringPush_frozen : (ringPush s r d).frozen = s.frozen := by
  unfold ringPush; cases h : ringPut s r d with
  | mk a t =>
    have ht : t = (ringPut s r d).2 := by rw [h]
    dsimp only; split <;> simp [ht]
@[simp] theorem ringPush_kept : (ringPush s r d).kept = s.kept := by
  unfold ringPush; cases h : ringPut s r d with
  | mk a t =>
    have ht : t = (ringPut s r d).2 := by rw [h]
    dsimp only; split <;> simp [ht]
@[simp] theorem ringPush_flash : (ringPush s r d).flash = s.flash := by
  unfold ringPush; cases h : ringPut s r d with
  | mk a t =>
    have ht : t = (ringPut s r d).2 := by rw [h]
    dsimp only; split <;> simp [ht]
@[simp] theorem ringPush_tx : (ringPush s r d).tx = s.tx := by
  unfold ringPush; cases h : ringPut s r d with
  | mk a t =>
    have ht : t = (ringPut s r d).2 := by rw [h]
    dsimp only; split <;> simp [ht]
@[simp] theorem ringPush_kln : (ringPush s r d).kln = s.kln := by
  unfold ringPush; cases h : ringPut s r d with
  | mk a t =>
    have ht : t = (ringPut s r d).2 := by rw [h]
    dsimp only; split <;> simp [ht]
@[simp] theorem ringPush_crd : (ringPush s r d).crd = s.crd := by
  unfold ringPush; cases h : ringPut s r d with
  | mk a t =>
    have ht : t = (ringPut s r d).2 := by rw [h]
    dsimp only; split <;> simp [ht]
@[simp] theorem ringPush_emb : (ringPush s r d).emb = s.emb := by
  unfold ringPush; cases h : ringPut s r d with
  | mk a t =>
    have ht : t = (ringPut s r d).2 := by rw [h]
    dsimp only; split <;> simp [ht]
@[simp] theorem ringPush_chn : (ringPush s r d).chn = s.chn := by
  unfold ringPush; cases h : ringPut s r d with
  | mk a t =>
    have ht : t = (ringPut s r d).2 := by rw [h]
    dsimp only; split <;> simp [ht]
@[simp] theorem ringPush_mea : (ringPush s r d).mea = s.mea := by
  unfold ringPush; cases h : ringPut s r d with
  | mk a t =>
    have ht : t = (ringPut s r d).2 := by rw [h]
    dsimp only; split <;> simp [ht]
@[simp] theorem ringPush_trc : (ringPush s r d).trc = s.trc := by
  unfold ringPush; cases h : ringPut s r d with
  | mk a t =>
    have ht : t = (ringPut s r d).2 := by rw [h]
    dsimp only; split <;> simp [ht]
@[simp] theorem ringPush_est : (ringPush s r d).est = s.est := by
  unfold ringPush; cases h : ringPut s r d with
  | mk a t =>
    have ht : t = (ringPut s r d).2 := by rw [h]
    dsimp only; split <;> simp [ht]
@[simp] theorem ringPush_imp : (ringPush s r d).imp = s.imp := by
  unfold ringPush; cases h : ringPut s r d with
  | mk a t =>
    have ht : t = (ringPut s r d).2 := by rw [h]
    dsimp only; split <;> simp [ht]
@[simp] theorem ringPush_ctl : (ringPush s r d).ctl = s.ctl := by
  unfold ringPush; cases h : ringPut s r d with
  | mk a t =>
    have ht : t = (ringPut s r d).2 := by rw [h]
    dsimp only; split <;> simp [ht]
@[simp] theorem ringPush_hrp : (ringPush s r d).hrp = s.hrp := by
  unfold ringPush; cases h : ringPut s r d with
  | mk a t =>
    have ht : t = (ringPut s r d).2 := by rw [h]
    dsimp only; split <;> simp [ht]
@[simp] theorem ringPush_thm : (ringPush s r d).thm = s.thm := by
  unfold ringPush; cases h : ringPut s r d with
  | mk a t =>
    have ht : t = (ringPut s r d).2 := by rw [h]
    dsimp only; split <;> simp [ht]
@[simp] theorem ringPush_saf : (ringPush s r d).saf = s.saf := by
  unfold ringPush; cases h : ringPut s r d with
  | mk a t =>
    have ht : t = (ringPut s r d).2 := by rw [h]
    dsimp only; split <;> simp [ht]
@[simp] theorem ringPush_lgc : (ringPush s r d).lgc = s.lgc := by
  unfold ringPush; cases h : ringPut s r d with
  | mk a t =>
    have ht : t = (ringPut s r d).2 := by rw [h]
    dsimp only; split <;> simp [ht]
@[simp] theorem ringPush_fio : (ringPush s r d).fio = s.fio := by
  unfold ringPush; cases h : ringPut s r d with
  | mk a t =>
    have ht : t = (ringPut s r d).2 := by rw [h]
    dsimp only; split <;> simp [ht]
@[simp] theorem ringPush_can : (ringPush s r d).can = s.can := by
  unfold ringPush; cases h : ringPut s r d with
  | mk a t =>
    have ht : t = (ringPut s r d).2 := by rw [h]
    dsimp only; split <;> simp [ht]
@[simp] theorem ringPush_tim : (ringPush s r d).tim = s.tim := by
  unfold ringPush; cases h : ringPut s r d with
  | mk a t =>
    have ht : t = (ringPut s r d).2 := by rw [h]
    dsimp only; split <;> simp [ht]
@[simp] theorem ringPush_recd : (ringPush s r d).recd = s.recd := by
  unfold ringPush; cases h : ringPut s r d with
  | mk a t =>
    have ht : t = (ringPut s r d).2 := by rw [h]
    dsimp only; split <;> simp [ht]
@[simp] theorem ringPush_par : (ringPush s r d).par = s.par := by
  unfold ringPush; cases h : ringPut s r d with
  | mk a t =>
    have ht : t = (ringPut s r d).2 := by rw [h]
    dsimp only; split <;> simp [ht]
@[simp] theorem ringPush_upd : (ringPush s r d).upd = s.upd := by
  unfold ringPush; cases h : ringPut s r d with
  | mk a t =>
    have ht : t = (ringPut s r d).2 := by rw [h]
    dsimp only; split <;> simp [ht]
@[simp] theorem ringPush_pnl : (ringPush s r d).pnl = s.pnl := by
  unfold ringPush; cases h : ringPut s r d with
  | mk a t =>
    have ht : t = (ringPut s r d).2 := by rw [h]
    dsimp only; split <;> simp [ht]

end

section
variable (s : State) (g : Upd → Upd)

@[simp] theorem modUpd_pending : (modUpd s g).pending = s.pending := by unfold modUpd; dsimp only; split <;> simp
@[simp] theorem modUpd_variant : (modUpd s g).variant = s.variant := by unfold modUpd; dsimp only; split <;> simp
@[simp] theorem modUpd_now : (modUpd s g).now = s.now := by unfold modUpd; dsimp only; split <;> simp
@[simp] theorem modUpd_fresh : (modUpd s g).fresh = s.fresh := by unfold modUpd; dsimp only; split <;> simp
@[simp] theorem modUpd_regs : (modUpd s g).regs = s.regs := by unfold modUpd; dsimp only; split <;> simp
@[simp] theorem modUpd_shadow : (modUpd s g).shadow = s.shadow := by unfold modUpd; dsimp only; split <;> simp
@[simp] theorem modUpd_frozen : (modUpd s g).frozen = s.frozen := by unfold modUpd; dsimp only; split <;> simp
@[simp] theorem modUpd_kept : (modUpd s g).kept = s.kept := by unfold modUpd; dsimp only; split <;> simp
@[simp] theorem modUpd_flash : (modUpd s g).flash = s.flash := by unfold modUpd; dsimp only; split <;> simp
@[simp] theorem modUpd_tx : (modUpd s g).tx = s.tx := by unfold modUpd; dsimp only; split <;> simp
@[simp] theorem modUpd_kln : (modUpd s g).kln = s.kln := by unfold modUpd; dsimp only; split <;> simp
@[simp] theorem modUpd_crd : (modUpd s g).crd = s.crd := by unfold modUpd; dsimp only; split <;> simp
@[simp] theorem modUpd_emb : (modUpd s g).emb = s.emb := by unfold modUpd; dsimp only; split <;> simp
@[simp] theorem modUpd_chn : (modUpd s g).chn = s.chn := by unfold modUpd; dsimp only; split <;> simp
@[simp] theorem modUpd_mea : (modUpd s g).mea = s.mea := by unfold modUpd; dsimp only; split <;> simp
@[simp] theorem modUpd_trc : (modUpd s g).trc = s.trc := by unfold modUpd; dsimp only; split <;> simp
@[simp] theorem modUpd_est : (modUpd s g).est = s.est := by unfold modUpd; dsimp only; split <;> simp
@[simp] theorem modUpd_imp : (modUpd s g).imp = s.imp := by unfold modUpd; dsimp only; split <;> simp
@[simp] theorem modUpd_ctl : (modUpd s g).ctl = s.ctl := by unfold modUpd; dsimp only; split <;> simp
@[simp] theorem modUpd_hrp : (modUpd s g).hrp = s.hrp := by unfold modUpd; dsimp only; split <;> simp
@[simp] theorem modUpd_thm : (modUpd s g).thm = s.thm := by unfold modUpd; dsimp only; split <;> simp
@[simp] theorem modUpd_saf : (modUpd s g).saf = s.saf := by unfold modUpd; dsimp only; split <;> simp
@[simp] theorem modUpd_lgc : (modUpd s g).lgc = s.lgc := by unfold modUpd; dsimp only; split <;> simp
@[simp] theorem modUpd_fio : (modUpd s g).fio = s.fio := by unfold modUpd; dsimp only; split <;> simp
@[simp] theorem modUpd_can : (modUpd s g).can = s.can := by unfold modUpd; dsimp only; split <;> simp
@[simp] theorem modUpd_tim : (modUpd s g).tim = s.tim := by unfold modUpd; dsimp only; split <;> simp
@[simp] theorem modUpd_recd : (modUpd s g).recd = s.recd := by unfold modUpd; dsimp only; split <;> simp
@[simp] theorem modUpd_par : (modUpd s g).par = s.par := by unfold modUpd; dsimp only; split <;> simp
@[simp] theorem modUpd_pnl : (modUpd s g).pnl = s.pnl := by unfold modUpd; dsimp only; split <;> simp

end

section
variable (s : State) (r : Rec)

@[simp] theorem placeStaged_pending : (placeStaged s r).pending = s.pending := by
  unfold placeStaged; dsimp only; split <;> simp
@[simp] theorem placeStaged_variant : (placeStaged s r).variant = s.variant := by
  unfold placeStaged; dsimp only; split <;> simp
@[simp] theorem placeStaged_now : (placeStaged s r).now = s.now := by
  unfold placeStaged; dsimp only; split <;> simp
@[simp] theorem placeStaged_fresh : (placeStaged s r).fresh = s.fresh := by
  unfold placeStaged; dsimp only; split <;> simp
@[simp] theorem placeStaged_regs : (placeStaged s r).regs = s.regs := by
  unfold placeStaged; dsimp only; split <;> simp
@[simp] theorem placeStaged_shadow : (placeStaged s r).shadow = s.shadow := by
  unfold placeStaged; dsimp only; split <;> simp
@[simp] theorem placeStaged_frozen : (placeStaged s r).frozen = s.frozen := by
  unfold placeStaged; dsimp only; split <;> simp
@[simp] theorem placeStaged_kept : (placeStaged s r).kept = s.kept := by
  unfold placeStaged; dsimp only; split <;> simp
@[simp] theorem placeStaged_flash : (placeStaged s r).flash = s.flash := by
  unfold placeStaged; dsimp only; split <;> simp
@[simp] theorem placeStaged_tx : (placeStaged s r).tx = s.tx := by
  unfold placeStaged; dsimp only; split <;> simp
@[simp] theorem placeStaged_crd : (placeStaged s r).crd = s.crd := by
  unfold placeStaged; dsimp only; split <;> simp
@[simp] theorem placeStaged_emb : (placeStaged s r).emb = s.emb := by
  unfold placeStaged; dsimp only; split <;> simp
@[simp] theorem placeStaged_chn : (placeStaged s r).chn = s.chn := by
  unfold placeStaged; dsimp only; split <;> simp
@[simp] theorem placeStaged_mea : (placeStaged s r).mea = s.mea := by
  unfold placeStaged; dsimp only; split <;> simp
@[simp] theorem placeStaged_trc : (placeStaged s r).trc = s.trc := by
  unfold placeStaged; dsimp only; split <;> simp
@[simp] theorem placeStaged_est : (placeStaged s r).est = s.est := by
  unfold placeStaged; dsimp only; split <;> simp
@[simp] theorem placeStaged_imp : (placeStaged s r).imp = s.imp := by
  unfold placeStaged; dsimp only; split <;> simp
@[simp] theorem placeStaged_ctl : (placeStaged s r).ctl = s.ctl := by
  unfold placeStaged; dsimp only; split <;> simp
@[simp] theorem placeStaged_hrp : (placeStaged s r).hrp = s.hrp := by
  unfold placeStaged; dsimp only; split <;> simp
@[simp] theorem placeStaged_thm : (placeStaged s r).thm = s.thm := by
  unfold placeStaged; dsimp only; split <;> simp
@[simp] theorem placeStaged_saf : (placeStaged s r).saf = s.saf := by
  unfold placeStaged; dsimp only; split <;> simp
@[simp] theorem placeStaged_lgc : (placeStaged s r).lgc = s.lgc := by
  unfold placeStaged; dsimp only; split <;> simp
@[simp] theorem placeStaged_fio : (placeStaged s r).fio = s.fio := by
  unfold placeStaged; dsimp only; split <;> simp
@[simp] theorem placeStaged_can : (placeStaged s r).can = s.can := by
  unfold placeStaged; dsimp only; split <;> simp
@[simp] theorem placeStaged_tim : (placeStaged s r).tim = s.tim := by
  unfold placeStaged; dsimp only; split <;> simp
@[simp] theorem placeStaged_par : (placeStaged s r).par = s.par := by
  unfold placeStaged; dsimp only; split <;> simp
@[simp] theorem placeStaged_upd : (placeStaged s r).upd = s.upd := by
  unfold placeStaged; dsimp only; split <;> simp
@[simp] theorem placeStaged_pnl : (placeStaged s r).pnl = s.pnl := by
  unfold placeStaged; dsimp only; split <;> simp

end

section
variable (s : State) (n : RecName) (src : Byte) (sev : Nat) (p : List Byte)

@[simp] theorem stage_pending : (stage s n src sev p).pending = s.pending := by
  unfold stage; split
  · rfl
  · dsimp only; split
    · rfl
    · split
      · rfl
      · split <;> simp
@[simp] theorem stage_variant : (stage s n src sev p).variant = s.variant := by
  unfold stage; split
  · rfl
  · dsimp only; split
    · rfl
    · split
      · rfl
      · split <;> simp
@[simp] theorem stage_now : (stage s n src sev p).now = s.now := by
  unfold stage; split
  · rfl
  · dsimp only; split
    · rfl
    · split
      · rfl
      · split <;> simp
@[simp] theorem stage_fresh : (stage s n src sev p).fresh = s.fresh := by
  unfold stage; split
  · rfl
  · dsimp only; split
    · rfl
    · split
      · rfl
      · split <;> simp
@[simp] theorem stage_regs : (stage s n src sev p).regs = s.regs := by
  unfold stage; split
  · rfl
  · dsimp only; split
    · rfl
    · split
      · rfl
      · split <;> simp
@[simp] theorem stage_shadow : (stage s n src sev p).shadow = s.shadow := by
  unfold stage; split
  · rfl
  · dsimp only; split
    · rfl
    · split
      · rfl
      · split <;> simp
@[simp] theorem stage_frozen : (stage s n src sev p).frozen = s.frozen := by
  unfold stage; split
  · rfl
  · dsimp only; split
    · rfl
    · split
      · rfl
      · split <;> simp
@[simp] theorem stage_kept : (stage s n src sev p).kept = s.kept := by
  unfold stage; split
  · rfl
  · dsimp only; split
    · rfl
    · split
      · rfl
      · split <;> simp
@[simp] theorem stage_flash : (stage s n src sev p).flash = s.flash := by
  unfold stage; split
  · rfl
  · dsimp only; split
    · rfl
    · split
      · rfl
      · split <;> simp
@[simp] theorem stage_tx : (stage s n src sev p).tx = s.tx := by
  unfold stage; split
  · rfl
  · dsimp only; split
    · rfl
    · split
      · rfl
      · split <;> simp
@[simp] theorem stage_crd : (stage s n src sev p).crd = s.crd := by
  unfold stage; split
  · rfl
  · dsimp only; split
    · rfl
    · split
      · rfl
      · split <;> simp
@[simp] theorem stage_emb : (stage s n src sev p).emb = s.emb := by
  unfold stage; split
  · rfl
  · dsimp only; split
    · rfl
    · split
      · rfl
      · split <;> simp
@[simp] theorem stage_chn : (stage s n src sev p).chn = s.chn := by
  unfold stage; split
  · rfl
  · dsimp only; split
    · rfl
    · split
      · rfl
      · split <;> simp
@[simp] theorem stage_mea : (stage s n src sev p).mea = s.mea := by
  unfold stage; split
  · rfl
  · dsimp only; split
    · rfl
    · split
      · rfl
      · split <;> simp
@[simp] theorem stage_trc : (stage s n src sev p).trc = s.trc := by
  unfold stage; split
  · rfl
  · dsimp only; split
    · rfl
    · split
      · rfl
      · split <;> simp
@[simp] theorem stage_est : (stage s n src sev p).est = s.est := by
  unfold stage; split
  · rfl
  · dsimp only; split
    · rfl
    · split
      · rfl
      · split <;> simp
@[simp] theorem stage_imp : (stage s n src sev p).imp = s.imp := by
  unfold stage; split
  · rfl
  · dsimp only; split
    · rfl
    · split
      · rfl
      · split <;> simp
@[simp] theorem stage_ctl : (stage s n src sev p).ctl = s.ctl := by
  unfold stage; split
  · rfl
  · dsimp only; split
    · rfl
    · split
      · rfl
      · split <;> simp
@[simp] theorem stage_hrp : (stage s n src sev p).hrp = s.hrp := by
  unfold stage; split
  · rfl
  · dsimp only; split
    · rfl
    · split
      · rfl
      · split <;> simp
@[simp] theorem stage_thm : (stage s n src sev p).thm = s.thm := by
  unfold stage; split
  · rfl
  · dsimp only; split
    · rfl
    · split
      · rfl
      · split <;> simp
@[simp] theorem stage_saf : (stage s n src sev p).saf = s.saf := by
  unfold stage; split
  · rfl
  · dsimp only; split
    · rfl
    · split
      · rfl
      · split <;> simp
@[simp] theorem stage_lgc : (stage s n src sev p).lgc = s.lgc := by
  unfold stage; split
  · rfl
  · dsimp only; split
    · rfl
    · split
      · rfl
      · split <;> simp
@[simp] theorem stage_fio : (stage s n src sev p).fio = s.fio := by
  unfold stage; split
  · rfl
  · dsimp only; split
    · rfl
    · split
      · rfl
      · split <;> simp
@[simp] theorem stage_can : (stage s n src sev p).can = s.can := by
  unfold stage; split
  · rfl
  · dsimp only; split
    · rfl
    · split
      · rfl
      · split <;> simp
@[simp] theorem stage_tim : (stage s n src sev p).tim = s.tim := by
  unfold stage; split
  · rfl
  · dsimp only; split
    · rfl
    · split
      · rfl
      · split <;> simp
@[simp] theorem stage_par : (stage s n src sev p).par = s.par := by
  unfold stage; split
  · rfl
  · dsimp only; split
    · rfl
    · split
      · rfl
      · split <;> simp
@[simp] theorem stage_upd : (stage s n src sev p).upd = s.upd := by
  unfold stage; split
  · rfl
  · dsimp only; split
    · rfl
    · split
      · rfl
      · split <;> simp
@[simp] theorem stage_pnl : (stage s n src sev p).pnl = s.pnl := by
  unfold stage; split
  · rfl
  · dsimp only; split
    · rfl
    · split
      · rfl
      · split <;> simp

end

section
variable (s : State) (n : RecName) (src : Byte) (p : List Byte)

@[simp] theorem auditAppend_pending : (auditAppend s n src p).pending = s.pending := rfl
@[simp] theorem auditAppend_variant : (auditAppend s n src p).variant = s.variant := rfl
@[simp] theorem auditAppend_now : (auditAppend s n src p).now = s.now := rfl
@[simp] theorem auditAppend_fresh : (auditAppend s n src p).fresh = s.fresh := rfl
@[simp] theorem auditAppend_regs : (auditAppend s n src p).regs = s.regs := rfl
@[simp] theorem auditAppend_shadow : (auditAppend s n src p).shadow = s.shadow := rfl
@[simp] theorem auditAppend_frozen : (auditAppend s n src p).frozen = s.frozen := rfl
@[simp] theorem auditAppend_kept : (auditAppend s n src p).kept = s.kept := rfl
@[simp] theorem auditAppend_mem : (auditAppend s n src p).mem = s.mem := rfl
@[simp] theorem auditAppend_arb : (auditAppend s n src p).arb = s.arb := rfl
@[simp] theorem auditAppend_flash : (auditAppend s n src p).flash = s.flash := rfl
@[simp] theorem auditAppend_tx : (auditAppend s n src p).tx = s.tx := rfl
@[simp] theorem auditAppend_kln : (auditAppend s n src p).kln = s.kln := rfl
@[simp] theorem auditAppend_crd : (auditAppend s n src p).crd = s.crd := rfl
@[simp] theorem auditAppend_emb : (auditAppend s n src p).emb = s.emb := rfl
@[simp] theorem auditAppend_chn : (auditAppend s n src p).chn = s.chn := rfl
@[simp] theorem auditAppend_mea : (auditAppend s n src p).mea = s.mea := rfl
@[simp] theorem auditAppend_trc : (auditAppend s n src p).trc = s.trc := rfl
@[simp] theorem auditAppend_est : (auditAppend s n src p).est = s.est := rfl
@[simp] theorem auditAppend_imp : (auditAppend s n src p).imp = s.imp := rfl
@[simp] theorem auditAppend_ctl : (auditAppend s n src p).ctl = s.ctl := rfl
@[simp] theorem auditAppend_hrp : (auditAppend s n src p).hrp = s.hrp := rfl
@[simp] theorem auditAppend_thm : (auditAppend s n src p).thm = s.thm := rfl
@[simp] theorem auditAppend_saf : (auditAppend s n src p).saf = s.saf := rfl
@[simp] theorem auditAppend_lgc : (auditAppend s n src p).lgc = s.lgc := rfl
@[simp] theorem auditAppend_fio : (auditAppend s n src p).fio = s.fio := rfl
@[simp] theorem auditAppend_can : (auditAppend s n src p).can = s.can := rfl
@[simp] theorem auditAppend_tim : (auditAppend s n src p).tim = s.tim := rfl
@[simp] theorem auditAppend_hst : (auditAppend s n src p).hst = s.hst := rfl
@[simp] theorem auditAppend_par : (auditAppend s n src p).par = s.par := rfl
@[simp] theorem auditAppend_upd : (auditAppend s n src p).upd = s.upd := rfl
@[simp] theorem auditAppend_pnl : (auditAppend s n src p).pnl = s.pnl := rfl

end

section
variable (s : State) 

@[simp] theorem noteAuditFull_pending : (noteAuditFull s).pending = s.pending := rfl
@[simp] theorem noteAuditFull_variant : (noteAuditFull s).variant = s.variant := rfl
@[simp] theorem noteAuditFull_now : (noteAuditFull s).now = s.now := rfl
@[simp] theorem noteAuditFull_fresh : (noteAuditFull s).fresh = s.fresh := rfl
@[simp] theorem noteAuditFull_regs : (noteAuditFull s).regs = s.regs := rfl
@[simp] theorem noteAuditFull_shadow : (noteAuditFull s).shadow = s.shadow := rfl
@[simp] theorem noteAuditFull_frozen : (noteAuditFull s).frozen = s.frozen := rfl
@[simp] theorem noteAuditFull_kept : (noteAuditFull s).kept = s.kept := rfl
@[simp] theorem noteAuditFull_mem : (noteAuditFull s).mem = s.mem := rfl
@[simp] theorem noteAuditFull_arb : (noteAuditFull s).arb = s.arb := rfl
@[simp] theorem noteAuditFull_flash : (noteAuditFull s).flash = s.flash := rfl
@[simp] theorem noteAuditFull_tx : (noteAuditFull s).tx = s.tx := rfl
@[simp] theorem noteAuditFull_kln : (noteAuditFull s).kln = s.kln := rfl
@[simp] theorem noteAuditFull_crd : (noteAuditFull s).crd = s.crd := rfl
@[simp] theorem noteAuditFull_emb : (noteAuditFull s).emb = s.emb := rfl
@[simp] theorem noteAuditFull_chn : (noteAuditFull s).chn = s.chn := rfl
@[simp] theorem noteAuditFull_mea : (noteAuditFull s).mea = s.mea := rfl
@[simp] theorem noteAuditFull_trc : (noteAuditFull s).trc = s.trc := rfl
@[simp] theorem noteAuditFull_est : (noteAuditFull s).est = s.est := rfl
@[simp] theorem noteAuditFull_imp : (noteAuditFull s).imp = s.imp := rfl
@[simp] theorem noteAuditFull_ctl : (noteAuditFull s).ctl = s.ctl := rfl
@[simp] theorem noteAuditFull_hrp : (noteAuditFull s).hrp = s.hrp := rfl
@[simp] theorem noteAuditFull_thm : (noteAuditFull s).thm = s.thm := rfl
@[simp] theorem noteAuditFull_saf : (noteAuditFull s).saf = s.saf := rfl
@[simp] theorem noteAuditFull_lgc : (noteAuditFull s).lgc = s.lgc := rfl
@[simp] theorem noteAuditFull_fio : (noteAuditFull s).fio = s.fio := rfl
@[simp] theorem noteAuditFull_can : (noteAuditFull s).can = s.can := rfl
@[simp] theorem noteAuditFull_tim : (noteAuditFull s).tim = s.tim := rfl
@[simp] theorem noteAuditFull_hst : (noteAuditFull s).hst = s.hst := rfl
@[simp] theorem noteAuditFull_par : (noteAuditFull s).par = s.par := rfl
@[simp] theorem noteAuditFull_upd : (noteAuditFull s).upd = s.upd := rfl
@[simp] theorem noteAuditFull_pnl : (noteAuditFull s).pnl = s.pnl := rfl

end

section
variable (s : State) (n : RecName) (src : Byte) (p : List Byte)

@[simp] theorem auditAuto_pending : (auditAuto s n src p).pending = s.pending := by unfold auditAuto; split <;> simp
@[simp] theorem auditAuto_variant : (auditAuto s n src p).variant = s.variant := by unfold auditAuto; split <;> simp
@[simp] theorem auditAuto_now : (auditAuto s n src p).now = s.now := by unfold auditAuto; split <;> simp
@[simp] theorem auditAuto_fresh : (auditAuto s n src p).fresh = s.fresh := by unfold auditAuto; split <;> simp
@[simp] theorem auditAuto_regs : (auditAuto s n src p).regs = s.regs := by unfold auditAuto; split <;> simp
@[simp] theorem auditAuto_shadow : (auditAuto s n src p).shadow = s.shadow := by unfold auditAuto; split <;> simp
@[simp] theorem auditAuto_frozen : (auditAuto s n src p).frozen = s.frozen := by unfold auditAuto; split <;> simp
@[simp] theorem auditAuto_kept : (auditAuto s n src p).kept = s.kept := by unfold auditAuto; split <;> simp
@[simp] theorem auditAuto_flash : (auditAuto s n src p).flash = s.flash := by unfold auditAuto; split <;> simp
@[simp] theorem auditAuto_tx : (auditAuto s n src p).tx = s.tx := by unfold auditAuto; split <;> simp
@[simp] theorem auditAuto_crd : (auditAuto s n src p).crd = s.crd := by unfold auditAuto; split <;> simp
@[simp] theorem auditAuto_emb : (auditAuto s n src p).emb = s.emb := by unfold auditAuto; split <;> simp
@[simp] theorem auditAuto_chn : (auditAuto s n src p).chn = s.chn := by unfold auditAuto; split <;> simp
@[simp] theorem auditAuto_mea : (auditAuto s n src p).mea = s.mea := by unfold auditAuto; split <;> simp
@[simp] theorem auditAuto_trc : (auditAuto s n src p).trc = s.trc := by unfold auditAuto; split <;> simp
@[simp] theorem auditAuto_est : (auditAuto s n src p).est = s.est := by unfold auditAuto; split <;> simp
@[simp] theorem auditAuto_imp : (auditAuto s n src p).imp = s.imp := by unfold auditAuto; split <;> simp
@[simp] theorem auditAuto_ctl : (auditAuto s n src p).ctl = s.ctl := by unfold auditAuto; split <;> simp
@[simp] theorem auditAuto_hrp : (auditAuto s n src p).hrp = s.hrp := by unfold auditAuto; split <;> simp
@[simp] theorem auditAuto_thm : (auditAuto s n src p).thm = s.thm := by unfold auditAuto; split <;> simp
@[simp] theorem auditAuto_saf : (auditAuto s n src p).saf = s.saf := by unfold auditAuto; split <;> simp
@[simp] theorem auditAuto_lgc : (auditAuto s n src p).lgc = s.lgc := by unfold auditAuto; split <;> simp
@[simp] theorem auditAuto_fio : (auditAuto s n src p).fio = s.fio := by unfold auditAuto; split <;> simp
@[simp] theorem auditAuto_can : (auditAuto s n src p).can = s.can := by unfold auditAuto; split <;> simp
@[simp] theorem auditAuto_tim : (auditAuto s n src p).tim = s.tim := by unfold auditAuto; split <;> simp
@[simp] theorem auditAuto_par : (auditAuto s n src p).par = s.par := by unfold auditAuto; split <;> simp
@[simp] theorem auditAuto_upd : (auditAuto s n src p).upd = s.upd := by unfold auditAuto; split <;> simp
@[simp] theorem auditAuto_pnl : (auditAuto s n src p).pnl = s.pnl := by unfold auditAuto; split <;> simp

end

section
variable (s : State) (e : EvSource)

@[simp] theorem raise_pending : (raise s e).pending = s.pending := rfl
@[simp] theorem raise_variant : (raise s e).variant = s.variant := rfl
@[simp] theorem raise_now : (raise s e).now = s.now := rfl
@[simp] theorem raise_fresh : (raise s e).fresh = s.fresh := rfl
@[simp] theorem raise_regs : (raise s e).regs = s.regs := rfl
@[simp] theorem raise_shadow : (raise s e).shadow = s.shadow := rfl
@[simp] theorem raise_frozen : (raise s e).frozen = s.frozen := rfl
@[simp] theorem raise_kept : (raise s e).kept = s.kept := rfl
@[simp] theorem raise_mem : (raise s e).mem = s.mem := rfl
@[simp] theorem raise_arb : (raise s e).arb = s.arb := rfl
@[simp] theorem raise_flash : (raise s e).flash = s.flash := rfl
@[simp] theorem raise_tx : (raise s e).tx = s.tx := rfl
@[simp] theorem raise_crd : (raise s e).crd = s.crd := rfl
@[simp] theorem raise_emb : (raise s e).emb = s.emb := rfl
@[simp] theorem raise_chn : (raise s e).chn = s.chn := rfl
@[simp] theorem raise_mea : (raise s e).mea = s.mea := rfl
@[simp] theorem raise_trc : (raise s e).trc = s.trc := rfl
@[simp] theorem raise_est : (raise s e).est = s.est := rfl
@[simp] theorem raise_imp : (raise s e).imp = s.imp := rfl
@[simp] theorem raise_ctl : (raise s e).ctl = s.ctl := rfl
@[simp] theorem raise_hrp : (raise s e).hrp = s.hrp := rfl
@[simp] theorem raise_thm : (raise s e).thm = s.thm := rfl
@[simp] theorem raise_saf : (raise s e).saf = s.saf := rfl
@[simp] theorem raise_lgc : (raise s e).lgc = s.lgc := rfl
@[simp] theorem raise_fio : (raise s e).fio = s.fio := rfl
@[simp] theorem raise_can : (raise s e).can = s.can := rfl
@[simp] theorem raise_tim : (raise s e).tim = s.tim := rfl
@[simp] theorem raise_hst : (raise s e).hst = s.hst := rfl
@[simp] theorem raise_recd : (raise s e).recd = s.recd := rfl
@[simp] theorem raise_par : (raise s e).par = s.par := rfl
@[simp] theorem raise_upd : (raise s e).upd = s.upd := rfl
@[simp] theorem raise_pnl : (raise s e).pnl = s.pnl := rfl

end

section
variable (s : State) (m : Mode) (r : ReqSrc)

@[simp] theorem reqMode_pending : (reqMode s m r).pending = s.pending := rfl
@[simp] theorem reqMode_variant : (reqMode s m r).variant = s.variant := rfl
@[simp] theorem reqMode_now : (reqMode s m r).now = s.now := rfl
@[simp] theorem reqMode_fresh : (reqMode s m r).fresh = s.fresh := rfl
@[simp] theorem reqMode_regs : (reqMode s m r).regs = s.regs := rfl
@[simp] theorem reqMode_shadow : (reqMode s m r).shadow = s.shadow := rfl
@[simp] theorem reqMode_frozen : (reqMode s m r).frozen = s.frozen := rfl
@[simp] theorem reqMode_kept : (reqMode s m r).kept = s.kept := rfl
@[simp] theorem reqMode_mem : (reqMode s m r).mem = s.mem := rfl
@[simp] theorem reqMode_arb : (reqMode s m r).arb = s.arb := rfl
@[simp] theorem reqMode_flash : (reqMode s m r).flash = s.flash := rfl
@[simp] theorem reqMode_tx : (reqMode s m r).tx = s.tx := rfl
@[simp] theorem reqMode_kln : (reqMode s m r).kln = s.kln := rfl
@[simp] theorem reqMode_crd : (reqMode s m r).crd = s.crd := rfl
@[simp] theorem reqMode_chn : (reqMode s m r).chn = s.chn := rfl
@[simp] theorem reqMode_mea : (reqMode s m r).mea = s.mea := rfl
@[simp] theorem reqMode_trc : (reqMode s m r).trc = s.trc := rfl
@[simp] theorem reqMode_est : (reqMode s m r).est = s.est := rfl
@[simp] theorem reqMode_imp : (reqMode s m r).imp = s.imp := rfl
@[simp] theorem reqMode_ctl : (reqMode s m r).ctl = s.ctl := rfl
@[simp] theorem reqMode_hrp : (reqMode s m r).hrp = s.hrp := rfl
@[simp] theorem reqMode_thm : (reqMode s m r).thm = s.thm := rfl
@[simp] theorem reqMode_saf : (reqMode s m r).saf = s.saf := rfl
@[simp] theorem reqMode_lgc : (reqMode s m r).lgc = s.lgc := rfl
@[simp] theorem reqMode_fio : (reqMode s m r).fio = s.fio := rfl
@[simp] theorem reqMode_can : (reqMode s m r).can = s.can := rfl
@[simp] theorem reqMode_tim : (reqMode s m r).tim = s.tim := rfl
@[simp] theorem reqMode_hst : (reqMode s m r).hst = s.hst := rfl
@[simp] theorem reqMode_recd : (reqMode s m r).recd = s.recd := rfl
@[simp] theorem reqMode_par : (reqMode s m r).par = s.par := rfl
@[simp] theorem reqMode_upd : (reqMode s m r).upd = s.upd := rfl
@[simp] theorem reqMode_pnl : (reqMode s m r).pnl = s.pnl := rfl

end

section
variable (s : State) (c : Nat)

@[simp] theorem latchFault_pending : (latchFault s c).pending = s.pending := rfl
@[simp] theorem latchFault_variant : (latchFault s c).variant = s.variant := rfl
@[simp] theorem latchFault_now : (latchFault s c).now = s.now := rfl
@[simp] theorem latchFault_fresh : (latchFault s c).fresh = s.fresh := rfl
@[simp] theorem latchFault_regs : (latchFault s c).regs = s.regs := rfl
@[simp] theorem latchFault_shadow : (latchFault s c).shadow = s.shadow := rfl
@[simp] theorem latchFault_frozen : (latchFault s c).frozen = s.frozen := rfl
@[simp] theorem latchFault_kept : (latchFault s c).kept = s.kept := rfl
@[simp] theorem latchFault_mem : (latchFault s c).mem = s.mem := rfl
@[simp] theorem latchFault_arb : (latchFault s c).arb = s.arb := rfl
@[simp] theorem latchFault_flash : (latchFault s c).flash = s.flash := rfl
@[simp] theorem latchFault_tx : (latchFault s c).tx = s.tx := rfl
@[simp] theorem latchFault_kln : (latchFault s c).kln = s.kln := rfl
@[simp] theorem latchFault_crd : (latchFault s c).crd = s.crd := rfl
@[simp] theorem latchFault_chn : (latchFault s c).chn = s.chn := rfl
@[simp] theorem latchFault_mea : (latchFault s c).mea = s.mea := rfl
@[simp] theorem latchFault_trc : (latchFault s c).trc = s.trc := rfl
@[simp] theorem latchFault_est : (latchFault s c).est = s.est := rfl
@[simp] theorem latchFault_imp : (latchFault s c).imp = s.imp := rfl
@[simp] theorem latchFault_ctl : (latchFault s c).ctl = s.ctl := rfl
@[simp] theorem latchFault_hrp : (latchFault s c).hrp = s.hrp := rfl
@[simp] theorem latchFault_thm : (latchFault s c).thm = s.thm := rfl
@[simp] theorem latchFault_saf : (latchFault s c).saf = s.saf := rfl
@[simp] theorem latchFault_lgc : (latchFault s c).lgc = s.lgc := rfl
@[simp] theorem latchFault_fio : (latchFault s c).fio = s.fio := rfl
@[simp] theorem latchFault_can : (latchFault s c).can = s.can := rfl
@[simp] theorem latchFault_tim : (latchFault s c).tim = s.tim := rfl
@[simp] theorem latchFault_hst : (latchFault s c).hst = s.hst := rfl
@[simp] theorem latchFault_recd : (latchFault s c).recd = s.recd := rfl
@[simp] theorem latchFault_par : (latchFault s c).par = s.par := rfl
@[simp] theorem latchFault_upd : (latchFault s c).upd = s.upd := rfl
@[simp] theorem latchFault_pnl : (latchFault s c).pnl = s.pnl := rfl

end

section
variable (s : State) (w a : Nat) (c : Code)

@[simp] theorem finish_pending : (finish s w a c).pending = s.pending := by unfold finish; split <;> simp
@[simp] theorem finish_variant : (finish s w a c).variant = s.variant := by unfold finish; split <;> simp
@[simp] theorem finish_now : (finish s w a c).now = s.now := by unfold finish; split <;> simp
@[simp] theorem finish_fresh : (finish s w a c).fresh = s.fresh := by unfold finish; split <;> simp
@[simp] theorem finish_regs : (finish s w a c).regs = s.regs := by unfold finish; split <;> simp
@[simp] theorem finish_shadow : (finish s w a c).shadow = s.shadow := by unfold finish; split <;> simp
@[simp] theorem finish_frozen : (finish s w a c).frozen = s.frozen := by unfold finish; split <;> simp
@[simp] theorem finish_kept : (finish s w a c).kept = s.kept := by unfold finish; split <;> simp
@[simp] theorem finish_flash : (finish s w a c).flash = s.flash := by unfold finish; split <;> simp
@[simp] theorem finish_tx : (finish s w a c).tx = s.tx := by unfold finish; split <;> simp
@[simp] theorem finish_kln : (finish s w a c).kln = s.kln := by unfold finish; split <;> simp
@[simp] theorem finish_crd : (finish s w a c).crd = s.crd := by unfold finish; split <;> simp
@[simp] theorem finish_emb : (finish s w a c).emb = s.emb := by unfold finish; split <;> simp
@[simp] theorem finish_chn : (finish s w a c).chn = s.chn := by unfold finish; split <;> simp
@[simp] theorem finish_mea : (finish s w a c).mea = s.mea := by unfold finish; split <;> simp
@[simp] theorem finish_trc : (finish s w a c).trc = s.trc := by unfold finish; split <;> simp
@[simp] theorem finish_est : (finish s w a c).est = s.est := by unfold finish; split <;> simp
@[simp] theorem finish_imp : (finish s w a c).imp = s.imp := by unfold finish; split <;> simp
@[simp] theorem finish_ctl : (finish s w a c).ctl = s.ctl := by unfold finish; split <;> simp
@[simp] theorem finish_hrp : (finish s w a c).hrp = s.hrp := by unfold finish; split <;> simp
@[simp] theorem finish_thm : (finish s w a c).thm = s.thm := by unfold finish; split <;> simp
@[simp] theorem finish_saf : (finish s w a c).saf = s.saf := by unfold finish; split <;> simp
@[simp] theorem finish_lgc : (finish s w a c).lgc = s.lgc := by unfold finish; split <;> simp
@[simp] theorem finish_fio : (finish s w a c).fio = s.fio := by unfold finish; split <;> simp
@[simp] theorem finish_can : (finish s w a c).can = s.can := by unfold finish; split <;> simp
@[simp] theorem finish_tim : (finish s w a c).tim = s.tim := by unfold finish; split <;> simp
@[simp] theorem finish_recd : (finish s w a c).recd = s.recd := by unfold finish; split <;> simp
@[simp] theorem finish_par : (finish s w a c).par = s.par := by unfold finish; split <;> simp
@[simp] theorem finish_upd : (finish s w a c).upd = s.upd := by unfold finish; split <;> simp
@[simp] theorem finish_pnl : (finish s w a c).pnl = s.pnl := by unfold finish; split <;> simp

end

section
variable (s : State) 

@[simp] theorem activity_pending : (activity s).pending = s.pending := by unfold activity; split <;> (try split) <;> simp
@[simp] theorem activity_variant : (activity s).variant = s.variant := by unfold activity; split <;> (try split) <;> simp
@[simp] theorem activity_now : (activity s).now = s.now := by unfold activity; split <;> (try split) <;> simp
@[simp] theorem activity_fresh : (activity s).fresh = s.fresh := by unfold activity; split <;> (try split) <;> simp
@[simp] theorem activity_regs : (activity s).regs = s.regs := by unfold activity; split <;> (try split) <;> simp
@[simp] theorem activity_shadow : (activity s).shadow = s.shadow := by unfold activity; split <;> (try split) <;> simp
@[simp] theorem activity_frozen : (activity s).frozen = s.frozen := by unfold activity; split <;> (try split) <;> simp
@[simp] theorem activity_kept : (activity s).kept = s.kept := by unfold activity; split <;> (try split) <;> simp
@[simp] theorem activity_mem : (activity s).mem = s.mem := by unfold activity; split <;> (try split) <;> simp
@[simp] theorem activity_arb : (activity s).arb = s.arb := by unfold activity; split <;> (try split) <;> simp
@[simp] theorem activity_flash : (activity s).flash = s.flash := by unfold activity; split <;> (try split) <;> simp
@[simp] theorem activity_tx : (activity s).tx = s.tx := by unfold activity; split <;> (try split) <;> simp
@[simp] theorem activity_kln : (activity s).kln = s.kln := by unfold activity; split <;> (try split) <;> simp
@[simp] theorem activity_crd : (activity s).crd = s.crd := by unfold activity; split <;> (try split) <;> simp
@[simp] theorem activity_chn : (activity s).chn = s.chn := by unfold activity; split <;> (try split) <;> simp
@[simp] theorem activity_mea : (activity s).mea = s.mea := by unfold activity; split <;> (try split) <;> simp
@[simp] theorem activity_trc : (activity s).trc = s.trc := by unfold activity; split <;> (try split) <;> simp
@[simp] theorem activity_est : (activity s).est = s.est := by unfold activity; split <;> (try split) <;> simp
@[simp] theorem activity_imp : (activity s).imp = s.imp := by unfold activity; split <;> (try split) <;> simp
@[simp] theorem activity_ctl : (activity s).ctl = s.ctl := by unfold activity; split <;> (try split) <;> simp
@[simp] theorem activity_hrp : (activity s).hrp = s.hrp := by unfold activity; split <;> (try split) <;> simp
@[simp] theorem activity_thm : (activity s).thm = s.thm := by unfold activity; split <;> (try split) <;> simp
@[simp] theorem activity_saf : (activity s).saf = s.saf := by unfold activity; split <;> (try split) <;> simp
@[simp] theorem activity_lgc : (activity s).lgc = s.lgc := by unfold activity; split <;> (try split) <;> simp
@[simp] theorem activity_fio : (activity s).fio = s.fio := by unfold activity; split <;> (try split) <;> simp
@[simp] theorem activity_can : (activity s).can = s.can := by unfold activity; split <;> (try split) <;> simp
@[simp] theorem activity_tim : (activity s).tim = s.tim := by unfold activity; split <;> (try split) <;> simp
@[simp] theorem activity_hst : (activity s).hst = s.hst := by unfold activity; split <;> (try split) <;> simp
@[simp] theorem activity_recd : (activity s).recd = s.recd := by unfold activity; split <;> (try split) <;> simp
@[simp] theorem activity_par : (activity s).par = s.par := by unfold activity; split <;> (try split) <;> simp
@[simp] theorem activity_upd : (activity s).upd = s.upd := by unfold activity; split <;> (try split) <;> simp
@[simp] theorem activity_pnl : (activity s).pnl = s.pnl := by unfold activity; split <;> (try split) <;> simp

end

section
variable (s : State) (n : Nat)

@[simp] theorem fireWake_pending : (fireWake s n).pending = s.pending := by unfold fireWake; split <;> rfl
@[simp] theorem fireWake_variant : (fireWake s n).variant = s.variant := by unfold fireWake; split <;> rfl
@[simp] theorem fireWake_now : (fireWake s n).now = s.now := by unfold fireWake; split <;> rfl
@[simp] theorem fireWake_fresh : (fireWake s n).fresh = s.fresh := by unfold fireWake; split <;> rfl
@[simp] theorem fireWake_regs : (fireWake s n).regs = s.regs := by unfold fireWake; split <;> rfl
@[simp] theorem fireWake_shadow : (fireWake s n).shadow = s.shadow := by unfold fireWake; split <;> rfl
@[simp] theorem fireWake_frozen : (fireWake s n).frozen = s.frozen := by unfold fireWake; split <;> rfl
@[simp] theorem fireWake_kept : (fireWake s n).kept = s.kept := by unfold fireWake; split <;> rfl
@[simp] theorem fireWake_mem : (fireWake s n).mem = s.mem := by unfold fireWake; split <;> rfl
@[simp] theorem fireWake_arb : (fireWake s n).arb = s.arb := by unfold fireWake; split <;> rfl
@[simp] theorem fireWake_flash : (fireWake s n).flash = s.flash := by unfold fireWake; split <;> rfl
@[simp] theorem fireWake_tx : (fireWake s n).tx = s.tx := by unfold fireWake; split <;> rfl
@[simp] theorem fireWake_kln : (fireWake s n).kln = s.kln := by unfold fireWake; split <;> rfl
@[simp] theorem fireWake_crd : (fireWake s n).crd = s.crd := by unfold fireWake; split <;> rfl
@[simp] theorem fireWake_chn : (fireWake s n).chn = s.chn := by unfold fireWake; split <;> rfl
@[simp] theorem fireWake_mea : (fireWake s n).mea = s.mea := by unfold fireWake; split <;> rfl
@[simp] theorem fireWake_trc : (fireWake s n).trc = s.trc := by unfold fireWake; split <;> rfl
@[simp] theorem fireWake_est : (fireWake s n).est = s.est := by unfold fireWake; split <;> rfl
@[simp] theorem fireWake_imp : (fireWake s n).imp = s.imp := by unfold fireWake; split <;> rfl
@[simp] theorem fireWake_ctl : (fireWake s n).ctl = s.ctl := by unfold fireWake; split <;> rfl
@[simp] theorem fireWake_hrp : (fireWake s n).hrp = s.hrp := by unfold fireWake; split <;> rfl
@[simp] theorem fireWake_thm : (fireWake s n).thm = s.thm := by unfold fireWake; split <;> rfl
@[simp] theorem fireWake_saf : (fireWake s n).saf = s.saf := by unfold fireWake; split <;> rfl
@[simp] theorem fireWake_lgc : (fireWake s n).lgc = s.lgc := by unfold fireWake; split <;> rfl
@[simp] theorem fireWake_fio : (fireWake s n).fio = s.fio := by unfold fireWake; split <;> rfl
@[simp] theorem fireWake_can : (fireWake s n).can = s.can := by unfold fireWake; split <;> rfl
@[simp] theorem fireWake_tim : (fireWake s n).tim = s.tim := by unfold fireWake; split <;> rfl
@[simp] theorem fireWake_hst : (fireWake s n).hst = s.hst := by unfold fireWake; split <;> rfl
@[simp] theorem fireWake_recd : (fireWake s n).recd = s.recd := by unfold fireWake; split <;> rfl
@[simp] theorem fireWake_par : (fireWake s n).par = s.par := by unfold fireWake; split <;> rfl
@[simp] theorem fireWake_upd : (fireWake s n).upd = s.upd := by unfold fireWake; split <;> rfl
@[simp] theorem fireWake_pnl : (fireWake s n).pnl = s.pnl := by unfold fireWake; split <;> rfl

end

section
variable (s : State) (key : Nat) (tag : Byte) (v : Word)

@[simp] theorem xbarHold_pending : (xbarHold key tag v s).pending = s.pending := rfl
@[simp] theorem xbarHold_variant : (xbarHold key tag v s).variant = s.variant := rfl
@[simp] theorem xbarHold_now : (xbarHold key tag v s).now = s.now := rfl
@[simp] theorem xbarHold_fresh : (xbarHold key tag v s).fresh = s.fresh := rfl
@[simp] theorem xbarHold_regs : (xbarHold key tag v s).regs = s.regs := rfl
@[simp] theorem xbarHold_shadow : (xbarHold key tag v s).shadow = s.shadow := rfl
@[simp] theorem xbarHold_frozen : (xbarHold key tag v s).frozen = s.frozen := rfl
@[simp] theorem xbarHold_kept : (xbarHold key tag v s).kept = s.kept := rfl
@[simp] theorem xbarHold_mem : (xbarHold key tag v s).mem = s.mem := rfl
@[simp] theorem xbarHold_arb : (xbarHold key tag v s).arb = s.arb := rfl
@[simp] theorem xbarHold_flash : (xbarHold key tag v s).flash = s.flash := rfl
@[simp] theorem xbarHold_tx : (xbarHold key tag v s).tx = s.tx := rfl
@[simp] theorem xbarHold_crd : (xbarHold key tag v s).crd = s.crd := rfl
@[simp] theorem xbarHold_emb : (xbarHold key tag v s).emb = s.emb := rfl
@[simp] theorem xbarHold_chn : (xbarHold key tag v s).chn = s.chn := rfl
@[simp] theorem xbarHold_mea : (xbarHold key tag v s).mea = s.mea := rfl
@[simp] theorem xbarHold_trc : (xbarHold key tag v s).trc = s.trc := rfl
@[simp] theorem xbarHold_est : (xbarHold key tag v s).est = s.est := rfl
@[simp] theorem xbarHold_imp : (xbarHold key tag v s).imp = s.imp := rfl
@[simp] theorem xbarHold_ctl : (xbarHold key tag v s).ctl = s.ctl := rfl
@[simp] theorem xbarHold_hrp : (xbarHold key tag v s).hrp = s.hrp := rfl
@[simp] theorem xbarHold_thm : (xbarHold key tag v s).thm = s.thm := rfl
@[simp] theorem xbarHold_saf : (xbarHold key tag v s).saf = s.saf := rfl
@[simp] theorem xbarHold_lgc : (xbarHold key tag v s).lgc = s.lgc := rfl
@[simp] theorem xbarHold_fio : (xbarHold key tag v s).fio = s.fio := rfl
@[simp] theorem xbarHold_can : (xbarHold key tag v s).can = s.can := rfl
@[simp] theorem xbarHold_tim : (xbarHold key tag v s).tim = s.tim := rfl
@[simp] theorem xbarHold_hst : (xbarHold key tag v s).hst = s.hst := rfl
@[simp] theorem xbarHold_recd : (xbarHold key tag v s).recd = s.recd := rfl
@[simp] theorem xbarHold_par : (xbarHold key tag v s).par = s.par := rfl
@[simp] theorem xbarHold_upd : (xbarHold key tag v s).upd = s.upd := rfl
@[simp] theorem xbarHold_pnl : (xbarHold key tag v s).pnl = s.pnl := rfl

end

section
variable (s : State) (tag : Byte) (v : Word) (key : Nat) (c : Consumer)

@[simp] theorem xbarTake_pending : (xbarTake tag v s key c).pending = s.pending := by unfold xbarTake; split <;> simp
@[simp] theorem xbarTake_variant : (xbarTake tag v s key c).variant = s.variant := by unfold xbarTake; split <;> simp
@[simp] theorem xbarTake_now : (xbarTake tag v s key c).now = s.now := by unfold xbarTake; split <;> simp
@[simp] theorem xbarTake_fresh : (xbarTake tag v s key c).fresh = s.fresh := by unfold xbarTake; split <;> simp
@[simp] theorem xbarTake_regs : (xbarTake tag v s key c).regs = s.regs := by unfold xbarTake; split <;> simp
@[simp] theorem xbarTake_shadow : (xbarTake tag v s key c).shadow = s.shadow := by unfold xbarTake; split <;> simp
@[simp] theorem xbarTake_frozen : (xbarTake tag v s key c).frozen = s.frozen := by unfold xbarTake; split <;> simp
@[simp] theorem xbarTake_kept : (xbarTake tag v s key c).kept = s.kept := by unfold xbarTake; split <;> simp
@[simp] theorem xbarTake_flash : (xbarTake tag v s key c).flash = s.flash := by unfold xbarTake; split <;> simp
@[simp] theorem xbarTake_tx : (xbarTake tag v s key c).tx = s.tx := by unfold xbarTake; split <;> simp
@[simp] theorem xbarTake_crd : (xbarTake tag v s key c).crd = s.crd := by unfold xbarTake; split <;> simp
@[simp] theorem xbarTake_emb : (xbarTake tag v s key c).emb = s.emb := by unfold xbarTake; split <;> simp
@[simp] theorem xbarTake_chn : (xbarTake tag v s key c).chn = s.chn := by unfold xbarTake; split <;> simp
@[simp] theorem xbarTake_mea : (xbarTake tag v s key c).mea = s.mea := by unfold xbarTake; split <;> simp
@[simp] theorem xbarTake_trc : (xbarTake tag v s key c).trc = s.trc := by unfold xbarTake; split <;> simp
@[simp] theorem xbarTake_est : (xbarTake tag v s key c).est = s.est := by unfold xbarTake; split <;> simp
@[simp] theorem xbarTake_imp : (xbarTake tag v s key c).imp = s.imp := by unfold xbarTake; split <;> simp
@[simp] theorem xbarTake_ctl : (xbarTake tag v s key c).ctl = s.ctl := by unfold xbarTake; split <;> simp
@[simp] theorem xbarTake_hrp : (xbarTake tag v s key c).hrp = s.hrp := by unfold xbarTake; split <;> simp
@[simp] theorem xbarTake_thm : (xbarTake tag v s key c).thm = s.thm := by unfold xbarTake; split <;> simp
@[simp] theorem xbarTake_saf : (xbarTake tag v s key c).saf = s.saf := by unfold xbarTake; split <;> simp
@[simp] theorem xbarTake_fio : (xbarTake tag v s key c).fio = s.fio := by unfold xbarTake; split <;> simp
@[simp] theorem xbarTake_can : (xbarTake tag v s key c).can = s.can := by unfold xbarTake; split <;> simp
@[simp] theorem xbarTake_tim : (xbarTake tag v s key c).tim = s.tim := by unfold xbarTake; split <;> simp
@[simp] theorem xbarTake_recd : (xbarTake tag v s key c).recd = s.recd := by unfold xbarTake; split <;> simp
@[simp] theorem xbarTake_par : (xbarTake tag v s key c).par = s.par := by unfold xbarTake; split <;> simp
@[simp] theorem xbarTake_upd : (xbarTake tag v s key c).upd = s.upd := by unfold xbarTake; split <;> simp
@[simp] theorem xbarTake_pnl : (xbarTake tag v s key c).pnl = s.pnl := by unfold xbarTake; split <;> simp

end

section
variable (s : State) (p : Producer) (v : Word)

@[simp] theorem xbar_pending : (xbar s p v).pending = s.pending := by
  unfold xbar; exact foldl_same (·.pending) _ (fun s r => foldl_same (·.pending) _ (fun s c => by simp) _ _) _ _
@[simp] theorem xbar_variant : (xbar s p v).variant = s.variant := by
  unfold xbar; exact foldl_same (·.variant) _ (fun s r => foldl_same (·.variant) _ (fun s c => by simp) _ _) _ _
@[simp] theorem xbar_now : (xbar s p v).now = s.now := by
  unfold xbar; exact foldl_same (·.now) _ (fun s r => foldl_same (·.now) _ (fun s c => by simp) _ _) _ _
@[simp] theorem xbar_fresh : (xbar s p v).fresh = s.fresh := by
  unfold xbar; exact foldl_same (·.fresh) _ (fun s r => foldl_same (·.fresh) _ (fun s c => by simp) _ _) _ _
@[simp] theorem xbar_regs : (xbar s p v).regs = s.regs := by
  unfold xbar; exact foldl_same (·.regs) _ (fun s r => foldl_same (·.regs) _ (fun s c => by simp) _ _) _ _
@[simp] theorem xbar_shadow : (xbar s p v).shadow = s.shadow := by
  unfold xbar; exact foldl_same (·.shadow) _ (fun s r => foldl_same (·.shadow) _ (fun s c => by simp) _ _) _ _
@[simp] theorem xbar_frozen : (xbar s p v).frozen = s.frozen := by
  unfold xbar; exact foldl_same (·.frozen) _ (fun s r => foldl_same (·.frozen) _ (fun s c => by simp) _ _) _ _
@[simp] theorem xbar_kept : (xbar s p v).kept = s.kept := by
  unfold xbar; exact foldl_same (·.kept) _ (fun s r => foldl_same (·.kept) _ (fun s c => by simp) _ _) _ _
@[simp] theorem xbar_flash : (xbar s p v).flash = s.flash := by
  unfold xbar; exact foldl_same (·.flash) _ (fun s r => foldl_same (·.flash) _ (fun s c => by simp) _ _) _ _
@[simp] theorem xbar_tx : (xbar s p v).tx = s.tx := by
  unfold xbar; exact foldl_same (·.tx) _ (fun s r => foldl_same (·.tx) _ (fun s c => by simp) _ _) _ _
@[simp] theorem xbar_crd : (xbar s p v).crd = s.crd := by
  unfold xbar; exact foldl_same (·.crd) _ (fun s r => foldl_same (·.crd) _ (fun s c => by simp) _ _) _ _
@[simp] theorem xbar_emb : (xbar s p v).emb = s.emb := by
  unfold xbar; exact foldl_same (·.emb) _ (fun s r => foldl_same (·.emb) _ (fun s c => by simp) _ _) _ _
@[simp] theorem xbar_chn : (xbar s p v).chn = s.chn := by
  unfold xbar; exact foldl_same (·.chn) _ (fun s r => foldl_same (·.chn) _ (fun s c => by simp) _ _) _ _
@[simp] theorem xbar_mea : (xbar s p v).mea = s.mea := by
  unfold xbar; exact foldl_same (·.mea) _ (fun s r => foldl_same (·.mea) _ (fun s c => by simp) _ _) _ _
@[simp] theorem xbar_trc : (xbar s p v).trc = s.trc := by
  unfold xbar; exact foldl_same (·.trc) _ (fun s r => foldl_same (·.trc) _ (fun s c => by simp) _ _) _ _
@[simp] theorem xbar_est : (xbar s p v).est = s.est := by
  unfold xbar; exact foldl_same (·.est) _ (fun s r => foldl_same (·.est) _ (fun s c => by simp) _ _) _ _
@[simp] theorem xbar_imp : (xbar s p v).imp = s.imp := by
  unfold xbar; exact foldl_same (·.imp) _ (fun s r => foldl_same (·.imp) _ (fun s c => by simp) _ _) _ _
@[simp] theorem xbar_ctl : (xbar s p v).ctl = s.ctl := by
  unfold xbar; exact foldl_same (·.ctl) _ (fun s r => foldl_same (·.ctl) _ (fun s c => by simp) _ _) _ _
@[simp] theorem xbar_hrp : (xbar s p v).hrp = s.hrp := by
  unfold xbar; exact foldl_same (·.hrp) _ (fun s r => foldl_same (·.hrp) _ (fun s c => by simp) _ _) _ _
@[simp] theorem xbar_thm : (xbar s p v).thm = s.thm := by
  unfold xbar; exact foldl_same (·.thm) _ (fun s r => foldl_same (·.thm) _ (fun s c => by simp) _ _) _ _
@[simp] theorem xbar_saf : (xbar s p v).saf = s.saf := by
  unfold xbar; exact foldl_same (·.saf) _ (fun s r => foldl_same (·.saf) _ (fun s c => by simp) _ _) _ _
@[simp] theorem xbar_fio : (xbar s p v).fio = s.fio := by
  unfold xbar; exact foldl_same (·.fio) _ (fun s r => foldl_same (·.fio) _ (fun s c => by simp) _ _) _ _
@[simp] theorem xbar_can : (xbar s p v).can = s.can := by
  unfold xbar; exact foldl_same (·.can) _ (fun s r => foldl_same (·.can) _ (fun s c => by simp) _ _) _ _
@[simp] theorem xbar_tim : (xbar s p v).tim = s.tim := by
  unfold xbar; exact foldl_same (·.tim) _ (fun s r => foldl_same (·.tim) _ (fun s c => by simp) _ _) _ _
@[simp] theorem xbar_recd : (xbar s p v).recd = s.recd := by
  unfold xbar; exact foldl_same (·.recd) _ (fun s r => foldl_same (·.recd) _ (fun s c => by simp) _ _) _ _
@[simp] theorem xbar_par : (xbar s p v).par = s.par := by
  unfold xbar; exact foldl_same (·.par) _ (fun s r => foldl_same (·.par) _ (fun s c => by simp) _ _) _ _
@[simp] theorem xbar_upd : (xbar s p v).upd = s.upd := by
  unfold xbar; exact foldl_same (·.upd) _ (fun s r => foldl_same (·.upd) _ (fun s c => by simp) _ _) _ _
@[simp] theorem xbar_pnl : (xbar s p v).pnl = s.pnl := by
  unfold xbar; exact foldl_same (·.pnl) _ (fun s r => foldl_same (·.pnl) _ (fun s c => by simp) _ _) _ _

end

end Sys2Proof.Machine
end

