-- ==== Sys2Proof/Laws/Host.lean ====
section
/-!
SUPPORT. What a request of a window comes to: granted, without the right, or turned away by the access map; and what
the window reads afterwards.
-/

namespace Sys2Proof.Machine

/-- The window reads its result after any end of a request. -/
theorem win_finish_ok (s : State) (w : Win) (a : Nat) : finish s w a .ok = answeredOk w s := by
  simp [finish, answeredOk]

/-- A granted command whose operation answers OK. -/
theorem hostCmd_granted {s t : State} {w : Win} {a r : Nat} (h : Granted s w a r) (res : Code → State → State)
    (op : State → Code × State) (hop : op s = (.ok, t)) :
    hostCmd w a (cmdReq (rightOne w r) res op) s = answeredOk w (res .ok t) := by
  obtain ⟨h1, h2, h3⟩ := h
  simp [hostCmd, h1, h2, cmdReq, rightOne, h3, hop, win_finish_ok]

/-- A granted command whose operation answers another code that is a failure. -/
theorem hostCmd_failed {s t : State} {w : Win} {a r : Nat} (h : Granted s w a r) (res : Code → State → State)
    (op : State → Code × State) (c : Code) (hop : op s = (c, t)) :
    hostCmd w a (cmdReq (rightOne w r) res op) s = finish (res c t) w a c := by
  obtain ⟨h1, h2, h3⟩ := h
  simp [hostCmd, h1, h2, cmdReq, rightOne, h3, hop]

/-- A command without its right: the block's RES and the window's result read REFUSED_RIGHTS, and nothing is done. -/
theorem hostCmd_unentitled {s : State} {w : Win} {a r : Nat} (h : Unentitled s w a r) (res : Code → State → State)
    (op : State → Code × State) :
    hostCmd w a (cmdReq (rightOne w r) res op) s = finish (res .refusedRights s) w a .refusedRights := by
  obtain ⟨h1, h2, h3⟩ := h
  simp [hostCmd, h1, h2, cmdReq, rightOne, h3]

/-- A window that has no access path, and a module in EMBER, change nothing (R438, R538). -/
theorem hostCmd_unreachable {s : State} {w : Win} (h : reachable s w = false) (a : Nat) (f : State → Code × State) :
    hostCmd w a f s = s := by simp [hostCmd, h]

@[simp] theorem win_answeredOk (s : State) (w : Win) : (win (answeredOk w s) w).lastRes = .ok := by simp [answeredOk]

/-- A ring's entry leaves every window as it was. -/
theorem win_ringPut (s : State) (r : Nat) (d : Desc) (v : Nat) : win (ringPut s r d).2 v = win s v := by
  have key : ∀ (t : State) (f : Ring → Ring), win (modRing t r f) v = win t v := fun _ _ => rfl
  have store : ∀ (p : Plane) (t : State) (o : Nat) (b : List Byte), win (storeBytes p t o b) v = win t v := fun _ _ _ _ => rfl
  simp only [ringPut, ringPutAt, ringPlace]
  split
  · rfl
  · split
    · exact key _ _
    · split
      · exact (key _ _).trans (store _ _ _ _)
      · split <;> exact key _ _

/-- A window event changes the event bits alone. -/
theorem win_winEvent_lastRes (s : State) (w bit src v : Nat) : (win (winEvent s w bit src) v).lastRes = (win s v).lastRes := by
  unfold winEvent
  split
  · rw [win_ringPut]
    by_cases h : v = w
    · subst h; simp
    · rw [win_modWin_of_ne _ _ _ _ h]
  · rfl

end Sys2Proof.Machine
end

