-- ==== Sys2Proof/Laws/Memory.lean ====
section
/-!
SUPPORT. Working SRAM: every operation on it keeps the canonical form, a write is read back, and it leaves every other
byte alone.
-/

namespace Sys2Proof.Machine

/-- A write of bytes keeps the canonical form. -/
theorem memWrite_wf (m : Tab Byte) (off : Nat) (bs : List Byte) (h : Memory.wf m) : Memory.wf (memWrite m off bs) := by
  induction bs generalizing m off with
  | nil => exact h
  | cons b t ih =>
    unfold memWrite
    split
    · exact ih _ _ (tabWf_tset 0 m off b h)
    · exact h

/-- A write leaves the bytes below it. -/
theorem tget_memWrite_lt (m : Tab Byte) (off a : Nat) (bs : List Byte) (h : a < off) :
    tget 0 (memWrite m off bs) a = tget 0 m a := by
  induction bs generalizing m off with
  | nil => rfl
  | cons b t ih =>
    unfold memWrite
    split
    · rw [ih _ _ (by omega), tget_tset_of_ne _ _ _ _ _ (by omega)]
    · rfl

/-- A write leaves every byte outside its length. -/
theorem tget_memWrite_outside (m : Tab Byte) (off a : Nat) (bs : List Byte) (h : a < off ∨ off + bs.length ≤ a) :
    tget 0 (memWrite m off bs) a = tget 0 m a := by
  rcases h with h | h
  · exact tget_memWrite_lt m off a bs h
  · induction bs generalizing m off with
    | nil => rfl
    | cons b t ih =>
      simp only [List.length_cons] at h
      unfold memWrite
      split
      · rw [ih _ _ (by omega), tget_tset_of_ne _ _ _ _ _ (by omega)]
      · rfl

/-- A byte written within the SRAM is read back. -/
theorem tget_memWrite_inside (m : Tab Byte) (off i : Nat) (bs : List Byte) (hi : i < bs.length) (h : off + bs.length ≤ sramSize) :
    tget 0 (memWrite m off bs) (off + i) = bs[i] := by
  induction bs generalizing m off i with
  | nil => simp at hi
  | cons b t ih =>
    simp only [List.length_cons] at h hi
    have ho : off < sramSize := by omega
    simp only [memWrite, ho, if_true]
    cases i with
    | zero => exact (tget_memWrite_lt _ _ _ _ (by omega)).trans (tget_tset_self 0 m off b)
    | succ i =>
      have := ih (tset 0 m off b) (off + 1) i (by omega) (by omega)
      rw [show off + (i + 1) = off + 1 + i by omega, this]
      rfl

/-- What has been written is read back whole. -/
theorem memRead_memWrite (m : Tab Byte) (off : Nat) (bs : List Byte) (h : off + bs.length ≤ sramSize) :
    memRead (memWrite m off bs) off bs.length = bs := by
  induction bs generalizing m off with
  | nil => rfl
  | cons b t ih =>
    simp only [List.length_cons] at h
    have ho : off < sramSize := by omega
    simp only [memWrite, ho, if_true, List.length_cons, memRead]
    rw [ih _ _ (by omega), tget_memWrite_lt _ _ _ _ (by omega), tget_tset_self]

/-! ### The operations over the SRAM -/

theorem storeBytes_inv (p : Plane) (s : State) (off : Nat) (bs : List Byte) (h : s.Inv) : (storeBytes p s off bs).Inv :=
  memWrite_wf s.mem off bs h

theorem modRing_inv (s : State) (r : Nat) (f : Ring → Ring) (h : s.Inv) : (modRing s r f).Inv := h

theorem modWin_inv (s : State) (w : Nat) (f : Wnd → Wnd) (h : s.Inv) : (modWin s w f).Inv := h

theorem ringPlace_inv (s : State) (r : Nat) (bs : List Byte) (h : s.Inv) : (ringPlace s r bs).Inv :=
  storeBytes_inv (ringUse s r).plane s _ bs h

theorem ringPutAt_inv (s : State) (r : Nat) (d : Desc) (t : Nat) (h : s.Inv) : (ringPutAt s r d t).2.Inv := by
  unfold ringPutAt
  dsimp only
  split
  · exact h
  · split
    · exact h
    · split
      · exact ringPlace_inv s r _ h
      · split <;> exact h

theorem ringPut_inv (s : State) (r : Nat) (d : Desc) (h : s.Inv) : (ringPut s r d).2.Inv := ringPutAt_inv s r d _ h

theorem winEvent_inv (s : State) (w bit src : Nat) (h : s.Inv) : (winEvent s w bit src).Inv := by
  unfold winEvent
  split
  · exact ringPut_inv _ _ _ (modWin_inv s w _ h)
  · exact h

/-- A fold of steps that each keep the invariant keeps it. -/
theorem foldl_inv {β : Type} (f : State → β → State) (hf : ∀ s b, State.Inv s → State.Inv (f s b)) (l : List β) (s : State)
    (h : s.Inv) : State.Inv (l.foldl f s) := by
  induction l generalizing s with
  | nil => exact h
  | cons b t ih => exact ih _ (hf s b h)

theorem allEvent_inv (s : State) (bit src : Nat) (h : s.Inv) : (allEvent s bit src).Inv :=
  foldl_inv _ (fun s w hs => winEvent_inv s w bit src hs) _ s h

theorem ringPush_inv (s : State) (r : Nat) (d : Desc) (h : s.Inv) : (ringPush s r d).Inv := by
  unfold ringPush
  have hp := ringPut_inv s r d h
  dsimp only
  split
  · exact allEvent_inv _ _ _ hp
  · exact hp

theorem slotStore_inv (s : State) (off : Nat) (bs : List Byte) (h : s.Inv) : (slotStore s off bs).Inv := by
  unfold slotStore
  split
  · exact h
  · split
    · exact storeBytes_inv _ s off bs h
    · exact h

theorem placeStaged_inv (s : State) (r : Rec) (h : s.Inv) : (placeStaged s r).Inv := by
  unfold placeStaged
  dsimp only
  split
  · exact ringPut_inv _ _ _ (slotStore_inv _ _ _ h)
  · exact slotStore_inv _ _ _ h

theorem stage_inv (s : State) (n : RecName) (src : Byte) (sev : Nat) (b : List Byte) (h : s.Inv) :
    (stage s n src sev b).Inv := by
  unfold stage
  split
  · exact h
  · dsimp only
    split
    · exact h
    · split
      · exact h
      · split
        · exact allEvent_inv _ _ _ (placeStaged_inv s _ h)
        · exact placeStaged_inv s _ h

end Sys2Proof.Machine
end

