-- ==== Sys2Proof/Tests/Slice0.lean ====
section
/-!
SUPPORT. The tests of the model and the witnesses of the statements. `test_hyps_<statement>` shows, for every clause of
the statement that has hypotheses, one concrete state and operands that meet all of them together.
-/

open Sys2Proof Sys2Proof.Machine

namespace Sys2Proof.Tests

set_option maxRecDepth 10000
set_option Elab.async false
set_option linter.unusedVariables false

/-! ### States the tests start from -/

/-- The state of an outcome. -/
def nxt (o : Out) : State := match o with | .next t => t | _ => State.reset
/-- The state after a command. -/
def after (i : Instr) (s : State) : State := nxt (exec i s)

def fullSafety : SafetyBillet :=
  { otTrip := 960, sumTmo := 100, ocTrip := 500000, ocN := 3, tpW := 500, tPre := 2000, kClose := 100, vWeld := 10000,
    tOpen := 200, laneDegMaxH := 72, funcs := [], inputs := [], outputs := [], loops := [], therms := [], conns := [],
    terms := [] }
def fullBind (t : Transport) : WinBind :=
  { transport := t, quad := false, rights := 255,
    access := (List.range 24).map (fun k => (k, Access.readWrite)) ++ [(0x1000, .readWrite), (0x2000, .readWrite), (0x3000, .readWrite)] }
def fullContent : CordContent :=
  { regs := [], windows := [fullBind .qspiA, fullBind .usb, fullBind .ethernet, fullBind .qspiB], owner := 0, parts := [],
    retained := [(0,0x1000),(0x1000,0x1000),(0x2000,0x1000),(0x3000,0x1000),(0x4000,0x1000),(0x5000,0x1000)], routes := [], events := [], safety := fullSafety,
    tasks := [], est := [], disabled := [] }
def live (m : Mode) : State :=
  { State.reset with emb := { State.reset.emb with power := .on, mode := m }, crd := { State.reset.crd with content := some fullContent } }

def ins (p : Nat × Word) : Tab Word → Tab Word
  | [] => [p]
  | q :: t => if p.1 ≤ q.1 then p :: q :: t else q :: ins p t
def srt (l : List (Nat × Word)) : Tab Word := l.foldr ins []
def wA0 : State := { live .standby with mem := memWrite [] 3 [1, 2] }
def wUsb : State := { live .standby with hst := { State.reset.hst with usbCfg := true, wins := [(1, { conn := true }), (2, { conn := true })] } }
def wNoRight : State := { live .standby with crd := { State.reset.crd with content := some { fullContent with windows := [{ fullBind .qspiA with rights := 0 }] } } }
def wPt (m : Mode) : State := { live m with crd := { State.reset.crd with content := some { fullContent with parts := [{ base := 0x1000, len := 0x1000, plane := .data, use := .other, wins := [(0, .readWrite), (1, .read)] }] } } }
def wNoPage : State := { live .standby with crd := { State.reset.crd with content := some { fullContent with windows := [{ fullBind .qspiA with access := [] }] } } }
def rgs : List (Nat × Word) := srt [(hstRcfg.addr [4], wd 3 + 0x08000000), (hstRcfg.addr [5], 3), (hstRcfg.addr [6], 1), (hstRcfg.addr [20], 1), (hstRcfg.addr [21], wd (place 1 29 28 + 1)), (hstRcfg.addr [22], wd (place 2 29 28 + 1)), (hstRcfg.addr [30], wd (2^26 + place 1 25 24 + 2^27 + 3)), (hstRcfg.addr [31], wd (2^26 + place 1 25 24 + 3)), (hstRbase.addr [4], 0x8000), (hstRbase.addr [5], 0x9000), (hstRbase.addr [20], 0xA000)]
def wRg (rs : List (Nat × Ring)) (m : Tab Byte) : State := { live .standby with regs := rgs, hst := { State.reset.hst with rings := rs }, mem := m }
def wRg1 (rs : List (Nat × Ring)) : State := { wRg rs [] with regs := srt [(hstRcfg.addr [20], wd (2^26 + place 1 25 24 + 1)), (hstRbase.addr [20], 0xA000)] }
def dsc : Desc := inlineDesc 5 6 [1, 2, 3, 4]
def rcm (t fl : Nat) (buf len a v : Nat) : List Byte := leB 4 77 ++ [0, BitVec.ofNat 8 t, 0, BitVec.ofNat 8 fl] ++ leB 8 0 ++ leB 4 buf ++ leB 4 len ++ leB 4 a ++ leB 4 v
def wRc1 (bs : List Byte) : State :=
  { wRg [(4, { head := 1 })] (memWrite [] 0x8000 bs) with crd := { State.reset.crd with content := some { fullContent with parts := [{ plane := .data, base := 0x2000, len := 0x1000, use := .buffers 1, wins := [(1, .readWrite)], engs := [(.host, 1, .readWrite)] }] } } }
def wr1 (bs : List Byte) : Code × State := writeReq 1 (getLe bs 24 4) 4 [getLe bs 28 4] (ringPop (wRc1 bs) 4)
def rr1 (bs : List Byte) : Code × List Nat × State := readReq 1 (getLe bs 24 4) 4 (ringPop (wRc1 bs) 4)
def wb1 (bs : List Byte) : Code × State := writeReq 1 (getLe bs 24 4) (getLe bs 20 2) (bytesWords (getLe bs 20 2 / 4) (engRead (ringPop (wRc1 bs) 4) .host 1 (getLe bs 16 4) (getLe bs 20 2)).1) (engRead (ringPop (wRc1 bs) 4) .host 1 (getLe bs 16 4) (getLe bs 20 2)).2
def rb1 (bs : List Byte) : Code × List Nat × State := readReq 1 (getLe bs 24 4) (getLe bs 20 2) (ringPop (wRc1 bs) 4)
def wDs (r : Option (Win × Nat)) : State := { live .standby with hst := { State.reset.hst with dspReq := r }, now := 60000000 }
def wShadow : State := { live .standby with shadow := [(timStepmax.addr [], some 777)] }
def wHeld : State := { live .standby with kln := { State.reset.kln with holds := [(18, 0)] } }
def wHolds8 : State := { live .standby with kln := { State.reset.kln with
  holds := [(4, 0), (4, 1), (4, 2), (4, 3), (5, 0), (5, 1), (5, 2), (5, 3)] } }
def wSweepOpen : State := { live .standby with chn := { State.reset.chn with loops := [(0, { sweepOpen := true })] } }
def wEvent : State := { live .standby with kln := { State.reset.kln with evPend := [.other 3] } }
def wIdle (d : Domain) (t0 : Nat) : State := { live .drowse with now := 5000, kln := { State.reset.kln with idleAt := [(d.ctorIdx, some t0)] } }
def wArb (since : Nat) (a : Tab Nat) : State := { live .standby with now := 5000, kln := { State.reset.kln with aged := a }, arb := { waiting := [(3, [{ plane := .control, beats := 1, since := 1 }, { plane := .data, beats := 4, since := since }])], busy := [(3, 2)] } }
def wGr : State := { live .standby with crd := { State.reset.crd with content := some { fullContent with parts := [{ base := 0, len := 0x1000, plane := .control, use := .other, wins := [], engs := [(.thermal, 1, .read), (.recorder, 0, .readWrite), (.chain, 2, .readWrite)] }] } } }
def wReqs (m : Mode) (l : List ModeReq) : State := { live m with emb := { (live m).emb with reqs := l } }
def wMaintKey : State := { wReqs .standby [{ target := .maintenance, src := .window 3 }] with
  emb := { (wReqs .standby [{ target := .maintenance, src := .window 3 }]).emb with loto := .maint, lotoSeen := true } }
def wNoRights (m : Mode) : State := { live m with crd := { State.reset.crd with
  content := some { fullContent with windows := fullContent.windows.map fun b => { b with rights := 0 } } } }
def wContactor (m : Mode) : State := { live m with saf := { State.reset.saf with sos := [(1, { req := true, laneOn := true })] }
                                                   now := 40000000 }
def wRamp : State := { wContactor .connected with emb := { (live .connected).emb with rampSince := some 10000000 } }
def wRecov : State := { live .safeStop with emb := { (live .safeStop).emb with recovAt := some 0 } }
def wDrowse : State := { live .connected with now := 60000000, emb := { (live .connected).emb with quietSince := some 0 } }
def wWake : State := { live .drowse with emb := { (live .drowse).emb with qdrw := [(3, { wakeRun := 10 })] } }
def wPre : State := { live .precharge with now := 2000000, saf := { State.reset.saf with cts := [(3, { pstate := 1, preSince := some 0 })] } }
def wBetween : State := { wContactor .connected with emb := { (live .connected).emb with lotoSeen := true, lotoBetween := some 39899999 } }
def wDem : State := { live .safeStop with saf := { State.reset.saf with dem := 2 } }
def wLatch : State := { live .safeStop with saf := { State.reset.saf with latch := 2 } }
def wBoot (v : Nat) : BootFacts :=
  { vsup10mv := v, present := true, leverOpen := false,
    facts := { content := [] }, content := fullContent }
def wEmber : State := { live .ember with emb := { (live .ember).emb with wakePend := true } }
def wTimer : State := { live .ember with regs := [(0x20018, 60)], emb := { (live .ember).emb with ticks := 32768 * 60 } }
def wCount : State := { live .drowse with emb := { (live .drowse).emb with drowseExit := some 0, qdrw := [(3, { counting := true, q := -5 })] } }
def wPower (p : Power) : State := { State.reset with emb := { State.reset.emb with power := p } }
def wEval (s : State) : State := { s with now := 40000005, emb := { s.emb with evalAt := some 39999995 } }
def wKcm : State := { wEmber with crd := { wEmber.crd with kcm := [[1, 2, 3]] } }
def wXfer : State := { live .configure with crd := { (live .configure).crd with xferOpen := true, incoming := { bytes := [1, 2] } } }
def wXferEnd : State := { live .configure with crd := { (live .configure).crd with xferOpen := true, shortBlock := true } }
def wPrev : State := { live .configure with crd := { (live .configure).crd with previous := { bytes := [1] } } }
def wVerifying (v : VerifyFor) : State := { live .standby with crd := { (live .standby).crd with verifying := some v } }
def wOlc : State := { live .standby with now := 1000000, crd := { (live .standby).crd with incValid := true, incoming := { bytes := [1] } },
                                         lgc := { State.reset.lgc with olc := some (0, 0) } }
def wOlcBusy : State := { wOlc with lgc := { wOlc.lgc with tasks := [(3, { state := 2 })] } }
def wLoop (m : Mode) (l : LoopS) : State :=
  { live m with regs := [(0x40100 + 0x40 * 3, wd (2 ^ 31 + 2 ^ 25 + 60))]
                now := 60000000, chn := { State.reset.chn with loops := [(3, l)] } }
def wTx (opc : Nat) (p : Nat) (r : Nat) (resps : List ChainResp) : ChainTx :=
  { cmd := { opc := opc, fromA := true, hop := if p = 0 then 63 else p, payload := [] }, rank := 20, pos := p, limit := 1,
    tag := 7, retries := r, arrived := true, resps := resps }
def wClosed (x : Option ChainTx) : LoopS := { state := .closed, n := 1, tx := x }
def wFrame : List Byte := frame 1 1 0x0D 7 [0]
def wResp : ChainResp := { rhop := 1, pos := 1, alm := false, payload := [] }
def wIds (l : LoopS) : LoopS := { l with listA := [(1, 5), (2, 6)], listB := [(1, 6), (2, 5)], arrA := true, arrB := true }
def wT (opc : Nat) (r : Nat) : ChainTx := { wTx opc 1 r [] with sentAt := 59999000 }
def wB (n : Nat) (resps : List ChainResp) : ChainTx := { wTx 0x05 0 0 resps with lastEnd := some 59999960, limit := n }
def wRing (r : Nat) (s : State) : State :=
  { s with regs := (s.regs ++ [(0x131000 + 0x20 * r, 0x1000), (0x131004 + 0x20 * r, 4)]) }
def wOpen (l : LoopS) : LoopS := { l with sweepOpen := true }
def wMea (m : Mode) (f : Mea → Mea) : State := { live m with now := 60000000, mea := f State.reset.mea }
def wUse : State := { wMea .standby id with regs := (List.range 24).map fun c => (meaChcfg.addr [c], wd (2 ^ 31)) }
def wRot (p : Nat) : State := { wUse with mea := { State.reset.mea with rotRun := true, rotPhase := p } }
def wRotOn (p : Nat) (r : Bool) : State :=
  { wRot p with regs := wUse.regs ++ [(meaRotcfg.addr [], wd (2 ^ 31 + 100))], mea := { (wRot p).mea with rotRun := r } }
def wIso (n : Nat) : State := { wMea .standby (fun m => { m with isoState := n }) with regs := [(meaIsocfg.addr [], wd (2 ^ 31))] }
def wIsoS (n : Nat) (p m : Int) : State := { wIso n with mea := { (wIso n).mea with isoGot := true, isoU := 9000, isoHist := List.replicate 5000 (p, m) } }
def wRef (w : Bool) (x : BitVec 3) (tm : Tab Nat) : State := { wMea .standby (fun m => { m with excl := x, refTimer := tm, refAt := 59000000, refNB := 10, refSB := 5000, refNC := 10, refSC := -50 }) with trc := { State.reset.trc with warming := w } }
def wTrc (f : Trc → Trc) : State := { live .maintenance with now := 700000000, trc := f { State.reset.trc with warming := false } }
def wCal (f : Trc → Trc) : State := { wTrc (fun t => f { t with owner := some 2 }) with regs := [(trcJ5s.addr [], 1000)] }
def wCal1 (f : Trc → Trc) : State := { wCal f with regs := [(trcJ5cfg.addr [], wd (2 ^ 31 + 10 * 2 ^ 16 + 100)), (trcJ5s.addr [], 1000)] }
def wVer (f : Trc → Trc) : State := wCal1 fun t => f { t with op := .verify 5 0, opN := 10, secs := List.replicate 10 (30000405, 300001200) }
def wGone : State → State := fun s => { s with recd := { State.reset.recd with auditSlots := 64 } }
def wVd (a : Nat) (d : Int) : Trc → Trc := fun t => { t with verifs := [(21, some { dev := d, u := 108, at_ := a })] }
def wEst (m : Mode) (n : Nat) (c : CellS) : State :=
  { live m with now := 100000000, est := { State.reset.est with cells := [(n, c)] }
                emb := { (live m).emb with holdupOk := true, oph := 86400 }, chn := { State.reset.chn with loops := [(3, { t0 := 90000000 })] } }
def wCell : CellS := { lr := { cl := 360000, dRef := 0 }, qCell := 5, fullSince := some 0, emptySince := some 0, evalT0 := 90000000 }
def wBillet : State :=
  { wEst .standby 2047 wCell with crd := { State.reset.crd with
      content := some { fullContent with est := [{ str := 3, seed := 1, soc0 := 0, cDef := 1000, imp := [], curve := [] }] } } }
def wImp (m : Mode) (i : ImpS) : State :=
  { live m with now := 3600000000 * 24, regs := srt [(impTim.addr [3], wd (100 * 2 ^ 16 + 24)), (impTz.addr [3], wd (60 * 2 ^ 20 + 100)), (impFpt.addr [3, 11], 1048576)]
                imp := { State.reset.imp with loops := [(3, i)] }, chn := { State.reset.chn with loops := [(3, { state := .closed, n := 1 })] }
                emb := { (live m).emb with holdupOk := true } }
def wCtl (m : Mode) (c : Ctl) (rs : List (Nat × Word) := []) : State :=
  { live m with ctl := c, regs := srt rs, now := 1000000 }
def enc (n : Nat) : Nat × Word := (ctlLcfg.addr [n], wd (2 ^ 31 + 2 ^ 27 + 1))
def cvOnReg (k : Nat) : Nat × Word := (ctlCvcfg.addr [k], wd (2 ^ 31 + place 10 29 24 + place 11 21 16 + place 12 13 8 + 13))
def wCtl5 : State := wCtl .connected {} [enc 63, (ctlLsrc.addr [63], wd (place 1 29 20 + place 1 19 10)), (ctlLsp.addr [63], 1000),
   (ctlBank.addr [63, 0, 0], 3), (ctlBank.addr [63, 0, 6], 0xFFFFFF00), (ctlBank.addr [63, 0, 7], 256), (ctlGcfg.addr [0], 2048),(ctlGcfg.addr [1], 2048),(ctlGcfg.addr [2], 2048),(ctlGcfg.addr [3], 2048)]
def wCtlInv : State := wCtl .connected {} [enc 0, (ctlLsrc.addr [0], wd (place 1 29 20)), (ctlLsp.addr [0], 0x80000000)]
def wCtlPk : State := wCtl .connected {} [enc 10, cvOnReg 0]
def due (s : State) (n : Nat) : Nat := (ctxDue s n).getD 0
def per (s : State) (j : Nat) : Nat := (periodStart s j (hrpTime s)).getD 0
def wPwm (m : Nat) (c : Ctx) (p : Pwm) : State :=
  { wCtl .connected { ctxs := [(3, c)] } [(hrpCfg.addr [15], wd (2 ^ 31 + place 3 13 8 + m)), enc 3] with hrp := [(14, { duty := 77 }), (15, p)] }
def cvS (c : Conv) (m : Mode) : State := wCtl m { convs := [(3, c)] } [cvOnReg 3]
def gnS (l : List (Nat × Gen)) (d : Nat) : State := wCtl .maintenance { gens := l } [(ctlGdur.addr [3], wd d)]
def cpS (c : Ctl) (rs : List (Nat × Word)) : State := wCtl .connected c rs
def wThm (m : Mode) (x : Thm) (rs : List (Nat × Word) := []) : State := { wCtl m {} rs with thm := x, now := 100000000 }
def cv (s : State) : State := { s with crd := { s.crd with content := some { fullContent with thCurve := [(0, -640), (4000, 1920)] } } }
def thIn : Nat × Word := (thmTh.addr [7], wd (2^30 + 2^27))
def wThR (l : List Int) : State := { wThm .connected { srcs := [(97, { hist := l, tripRun := 2, warnRun := 2 })], unitT := [(96, 1000)] }  with chn := { State.reset.chn with loops := [(3, { state := .closed, n := 1 })] } }
def lanesOn : Tab Lane := [(0, { state := 1, checked := 99999000 }), (1, { state := 1, checked := 99999000 }), (2, { state := 1, checked := 99999000 })]
def bil : List Byte := padTo 12 [5] ++ leB 4 (crc32c (padTo 12 [5]))
def sfb : SafetyBillet := { fullSafety with
  funcs := (List.range 16).map fun f => { enable := true, cls := if f = 14 ∨ f = 13 ∨ f = 8 then 3 else 1, strings := 15 }
  inputs := List.replicate 8 { tested := true, tDisc := 20, startup := false, strings := 15 }
  conns := [{ dir := 1, connId := 7, dlen := 2, wd := 100, pPer := 20, required := false, bits := [], demandBits := [] },
            { dir := 2, connId := 8, dlen := 2, wd := 100, pPer := 20, required := false, bits := [.lease], demandBits := [] }]
  loops := [{ snum := 63, lset := 1 }] }
def wSaf (m : Mode) (x : Saf) : State :=
  { wCtl m {} with saf := { x with lanes := if x.lanes = [] then lanesOn else x.lanes }, now := 100000000
                   crd := { State.reset.crd with content := some { fullContent with safety := sfb } } }
def li : LaneInputs := { siA := 255, siB := 255, ocTrip := 0, thTrip := 0, slPlus := 2400, loto := .run, readback := 0xF, flips := [], upsets := [], missed := 0 }
def soX (l : List (Nat × SafOut)) : State := wSaf .maintenance { sos := l, lotoSeen := true, loto := .run, selftest := true }
def ctX (c : Ctr) (m : MeaStr) : State := { soX [] with saf := { (soX []).saf with cts := [(3, c)] }, mea := { State.reset.mea with strs := [(3, m)] } }
def frm (q : Nat) : List Byte := let b := leB 2 q ++ [5, 6]; b ++ leB 4 (safeCrc (wSaf .standby {}) 0 b)
def wCon (st : Nat) : State := wSaf .connected { conns := [(0, { state := st, seq := 65535, data := [255, 255], last := 99900000 })] }
def w0 (op ty form w x : Nat) : Word := wd (place op 31 24 + place ty 23 20 + place form 19 16 + place w 15 12 + place x 11 0)
def imgW (code : List Word) : TaskImage :=
  { cycle := 0, offset := 0, twd := 1000, prio := 3, errorTask := false, stnMask := 0, dataLen := 256, code := code, vars := [], iou := [0x10000000] }
def wLg (code : List Word) (x : Task) : State :=
  { wCtl .connected {} with now := 100000000, crd := { State.reset.crd with content := some { fullContent with tasks := [(15, imgW code)] } }
                            lgc := { State.reset.lgc with time := 5000, tasks := [(15, { x with state := 2 })] } }
def tsk (a b : Nat) : Task := { w := [(1, BitVec.ofNat 64 a), (2, BitVec.ofNat 64 b)] |>.filter fun p => p.2 != 0 }
def rr (op ty a b : Nat) : State := wLg [w0 op ty 0 1 2, 0, 0] (tsk a b)
def ii (op ty form w x e1 e2 len : Nat) : Ins := { opc := op, ty := ty, form := form, w := w, x := x, e1 := e1, e2 := e2, len := len }
def i0 (op ty : Nat) : Ins := ii op ty 0 1 2 0 0 1
def tD : Task := { tsk 0x1234 4 with data := [(4, 0x85), (5, 6)] }
def stk (n : Nat) : Task := { stack := List.replicate n 1 }
def tcfg (k : Nat) (prio cyc : Nat) : Nat × Word := (lgcTcfg.addr [k], wd (2^31 + place prio 27 24 + cyc))
def wTk (l : List (Nat × Task)) (rs : List (Nat × Word)) : State :=
  { wLg [] {} with regs := srt rs, lgc := { State.reset.lgc with time := 5000, tasks := l, holdUntil := 0 } 
                   crd := { State.reset.crd with content := some { fullContent with tasks := (List.range 16).map fun k => (k, imgW [w0 0x3F 0 0 0 0, 0]) } } }
def frc : Force := { kind := 1, orphan := false, overlap := false, task := 0, addr := 0x1000000F, sym := 0, val := 1, size := 1 }
def wFr (m : Mode) (l : List (Nat × Option Force)) : State :=
  { wTk [] [(lgcFaddr.addr [], 0x1000000F), (lgcFval.addr [], 1)] with emb := (live m).emb, lgc := { (wTk [(1, { state := 1, ovr := 5 })] []).lgc with forces := l, stns := [(15, { disc := 4 })] } }
def bigT : List (Nat × Option Force) := (List.range 256).map fun k => (k, some { frc with addr := wd k })
def wSt (y : Stn) : State := { wTk [] [(lgcStncfg.addr [15], wd (2^31 + place 2 30 24 + place 3 23 17 + place 2 16 13 + 10)), (lgcStnid.addr [15], 77)] with lgc := { (wTk [] []).lgc with stns := [(15, y)], sq := [(960, 8)] } }
def sFrm (q : Nat) : List Byte := let b : List Byte := [15, 2] ++ leB 2 q ++ [2, 0, 0, 0, 9, 8]; b ++ leB 4 (stnCrc (wSt {}) 15 b)
def wFio (x : Fio) (rs : List (Nat × Word) := []) : State := { wTk [] rs with fio := x, lgc := { (wTk [] []).lgc with fq := 0xFFFF, fqNamed := 0xFFFF } }
def fFr : FioFrame := { seq := 0, crcOk := true, lenOk := true, raw := 0, samples := [], readback := 0, vfl := 0 }
def cEn (c cfg : Nat) : Nat × Word := (canCfg.addr [c], wd (2^31 + cfg))
def wCan (c : Nat) (x : Can) (rs : List (Nat × Word)) : State := { wTk [] rs with can := [(c, x)] }
def cfr : CanFrame := { id := 0x123, ctrl := wd (place 8 19 16), data := [1,2,3,4,5,6,7,8] }
def flt (c i d : Nat) : Nat × Word := (canFltId.addr [c, i], wd (place d 31 29 + 0x123))
def memOf (off : Nat) (bs : List Byte) : Tab Byte := memWrite [] off bs
def wQl (len : Nat) (x : Can) : State :=
  { wCan 0 x [cEn 0 0] with crd := { State.reset.crd with content := some { fullContent with parts := [{ plane := .data, base := 0x100000, len := 0x1000, use := .other, wins := [], engs := [(.can, 0, .read)] }] } }
                            hst := { State.reset.hst with rings := [(27, { head := 1 })] }
                            mem := memWrite (memOf (rdf (wCan 0 x [cEn 0 0]) hstRbase [27] 23 0) (List.replicate 16 0 ++ leB 4 0x100000 ++ leB 2 len)) 0x100000 [7, 0, 0, 0, 9] }
def wTm (x : Tim) (rs : List (Nat × Word)) : State := { wTk [] rs with tim := x }
def up2 : Tab NetPort := [(0, { link := true, rx := 65535 }), (1, { link := true })]
def netEn : Nat × Word := (netCfg.addr [], 3)
def sq (w : Win) (e : Nat) (ty tgt : Nat) (t : Nat) (v : Word) : Nat × Option Sched := (e, some { win := w, type := ty, tgt := tgt, time := BitVec.ofNat 64 t, val := v })
def stg (w : Nat) (ty tgt t v : Nat) : List (Nat × Word) := [(regKey timSact w [], wd (place ty 31 28 + tgt)), (regKey timStime w [0], wd t), (regKey timStime w [1], wd (t / 2^32)), (regKey timSval w [], wd v)]
def ann (c : Nat) (id : Nat) : Announce := { domain := 0, prio1 := 128, clockClass := BitVec.ofNat 8 c, accuracy := 32, variance := 5, prio2 := 128, identity := BitVec.ofNat 64 id, steps := 0, timeSource := 32 }
def mst (p c id seen : Nat) : Master := { port := p, ann := ann c id, seen := seen, qual := true }
def mOwn : Master := mst 0 6 77 0
def slv : Nat × Word := (timCfg.addr [], 0x80000000)
def enet (dst src ty : Nat) : List Byte := beB 6 dst ++ beB 6 src ++ beB 2 ty ++ List.replicate 46 9
def sync0 : List Byte := beB 6 9 ++ beB 6 7 ++ beB 2 0x88F7 ++ List.replicate 46 0
def rc (q : Word) (sev : Nat) : Rec :=
  { seq := q, oph := 0, pwc := 1, epc := 0, coalesced := false, timeUnset := true, holdover := false, pf := false, gapBefore := false, sev := sev, cnt := 1, src := 2, ntime := 0, name := .timeStep, payload := [], staged := 0 }
def wRc (x : RecS) (rs : List (Nat × Word)) : State := { wTk [] rs with recd := x, now := 2000000 }
def full4 : Tab (Option Rec) := [(0, some (rc 1 4)), (1, some (rc 2 2)), (2, some (rc 3 1)), (3, some (rc 4 5))]
def pf (type flags q term id echo : Nat) : List Byte :=
  let b := [BitVec.ofNat 8 type, BitVec.ofNat 8 flags] ++ leB 2 q ++ leB 4 term ++ leB 4 id ++ leB 2 echo ++ List.replicate 14 0
  b ++ leB 4 (crc32c b)
def wPr (x : Par) : State := { wTk [] [(parCfg.addr [], wd (2^31)), (parId.addr [], 77)] with par := x, now := 2000000, emb := { (live .connected).emb with holdupOk := true } }
def wPw (x : Par) : State :=
  { wSaf .connected { selftest := true, conns := [(0, { state := 3 })] } with regs := srt [(parCfg.addr [], wd (2^31 + 2^30)), (parId.addr [], 77)], par := x, now := 2000000, emb := { (live .connected).emb with holdupOk := true } }
def ctrOnS (s : State) : State := { s with saf := { s.saf with sos := [(0, { req := true })] } }
def rf (type flags sess block arg : Nat) (pl : List Byte) : List Byte := relayFrame type flags sess block arg pl
def wUp (u : Upd) (c : Crd) (x : Tab NetPort) : State :=
  { wTm { ports := x } [netEn, (updCfg.addr [], wd (2^31 + 2^30 + 4))] with
    upd := u, crd := { c with content := some { fullContent with windows := [fullBind .qspiA, fullBind .usb] } }, now := 9000000 }
def ps2 : Tab NetPort := [(0, { link := true }), (1, { link := true })]
def bytesN (n : Nat) : List Byte := (List.range n).map fun i => BitVec.ofNat 8 (i * 7)
def off : List Byte := leB 4 7 ++ [1, 0, 2, 0]
def rx2 : RxSess := { state := 2, port := 1, session := 9, total := 4100, next := 1, lastData := 100, lastAck := 8990001 }
def tx1 : TxSess := { session := 9, fromRunning := true, total := 4100, keySlot := 2, seq := 7, accepted := true, acked := 0, limit := 2, sent := 2, offers := 1, offeredAt := 8000000, resends := 49, lastAckAt := 8900000, forwarded := false }
def run41 : Crd := { running := { bytes := bytesN 4100 } }
def ecTrailer (slot r s : Nat) : List Byte := [96, 0, BitVec.ofNat 8 slot, 0, 0, 0, 0, 0] ++ leB 48 r ++ leB 48 s
def ecPub : List Byte := 4 :: ((leB 48 30710565566155905783783853234068182101290437088917624612199557425109742834765228023819115060591283585406928175683253).reverse ++ (leB 48 30905572947359265744066602718738017863863869980404046997496323719857929855738230221985593845359770665596804222949222).reverse)
def ecR : Nat := 24045984347896523234557719702692820225879932558313434790917318061925408407733467378573233873360728119939612067406653
def kst (op slot sg : Nat) : List Byte :=
  let h := leB 4 0x59454B55 ++ [BitVec.ofNat 8 op, BitVec.ofNat 8 slot, 0, 0] ++ leB 8 0
  h ++ (if op = 1 then (List.range 97).map (BitVec.ofNat 8 ·) ++ [0, 0, 0] else []) ++ ecTrailer 0 ecR sg ++ List.replicate 200 0
def kRegs (b : List Byte) : List (Nat × Word) := srt ((List.range 64).map fun i => (updStmt.addr [i], wd (getLe b (4 * i) 4)))
def wKy (op slot sg : Nat) (keys : Tab Nat) : State := { wUp {} { keys := keys, keyData := [(0, ecPub)] } ps2 with regs := kRegs (kst op slot sg), emb := (live .configure).emb }
def sgProg : Nat := 19021910883860796110598384514565895784374004159721583085071045506326267853550430236296113831949186288328070287067092
def sgRev : Nat := 29362194045754389165700939380353226291030261639760782074351907690875882850128530111179210449877375461577813571020014
def wMo (m : Mode) (u : Upd) (c : Crd) : State := { wUp u c ps2 with emb := (live m).emb }
def wPn (m : Mode) (x : Pnl) (rs : List (Nat × Word)) : State :=
  { wSaf m {} with regs := srt ([(pnlCfg.addr [], wd (2^31 + 2^30 + 60)), (embWakeEn.addr [], 16)] ++ rs), pnl := x
                   emb := { (live m).emb with loto := .maint, lotoSeen := true, present := true } }
def fc0 : Force := { kind := 0, orphan := false, overlap := false, task := 0, addr := 0, sym := 0, val := 0, size := 1 }
def wAck (m : Mode) (t0 : Nat) : State := { wPn m { touched := [(3, some t0)] } [] with saf := { State.reset.saf with latch := 7, dem := 0 } }
def wEj (m : Mode) (e : Bool) (x : Pnl) : State := { wPn m x [] with emb := { (live m).emb with present := true, eject := e, reqs := [{ target := .connected, src := .window 0 }, { target := .safeStop, src := .fault 5 }] } }

/-- A staging area that holds k records (R466). -/
def fullRec (k : Nat) : RecS := { staging := List.replicate k (rc 1 2) }

theorem fullRec_fill (k : Nat) : k ≤ stagingFill (wRc (fullRec k) []).recd := by
  simp [stagingFill, wRc, fullRec]

theorem coalesce_replicate (now : Nat) (src : Byte) (n : RecName) (k : Nat) (r : Rec) (h : r.src ≠ src) :
    coalesce now src n (List.replicate k r) = none := by
  induction k with
  | zero => rfl
  | succ k ih => simp [List.replicate_succ, coalesce, ih, h]

theorem foldl_same (f : Int → Int → Int) (a : Int) (h : f a a = a) (n : Nat) : (List.replicate n a).foldl f a = a := by
  induction n with
  | zero => rfl
  | succ n ih => simp [List.replicate_succ, h, ih]

/-- 500 ms of one pair of words have settled (R194). -/
theorem settled_of (s : State) (p m : Int) (k : Nat) (e : s.mea.isoHist = List.replicate (k + 1) (p, m))
    (g : s.mea.isoGot = true) (l : k + 1 = 5000) : isoSettled s = true := by
  have h : s.mea.isoHist.map (·.1) = p :: List.replicate k p := by simp [e, List.replicate_succ]
  have hl : s.mea.isoHist.length = 5000 := by rw [e, List.length_replicate]; exact l
  unfold isoSettled
  rw [h]
  simp only [foldl_same max p (by simp), foldl_same min p (by simp), g, hl]
  simp

theorem iso_settled (n : Nat) (p m : Int) : isoSettled (wIsoS n p m) = true := settled_of _ p m 4999 rfl rfl rfl

/-- The destination of a frame built from its addresses. -/
theorem frDst_enet (d x ty : Nat) (h : d < 2 ^ 48) : frDst (enet d x ty) = d := by
  simp [frDst, getBe, enet, beB, leB, byteAt, List.range, List.range.loop]
  omega

/-- Its EtherType. -/
theorem enet_type (d : Nat) : frType (enet d 7 0x88B5) = 0x88B5 := by rfl

/-- A frame of no service: port 2 does not answer it, and it is neither the relay's nor a link-delay message. -/
theorem enet_plain : (∀ (s : State) (d : Nat), portAnswer s (enet d 7 0x88B5) = none) ∧
    (∀ d, isRelayFrame (enet d 7 0x88B5) = false) ∧ (∀ d, ptpLocal (enet d 7 0x88B5) = false) ∧
    (∀ d, isService (enet d 7 0x88B5) = false) := by
  simp [portAnswer, arpReply, echo4, reply6, isRelayFrame, onPort, frPorts, ptpLocal, isPtp, isService, enet_type]

/-! ### Numbers that the spec's worked examples and rules state -/

/-- The nine bytes of the check values of R108 and R350. -/
def digits : List Byte := [0x31, 0x32, 0x33, 0x34, 0x35, 0x36, 0x37, 0x38, 0x39]

/-- R108: the CRC-16 over `123456789` is 0x6F91. -/
theorem test_crc16_check_value : crc16 digits = 0x6F91 := by decide +kernel

/-- R350: the CRC-32C over `123456789` is 0xE306_9283. -/
theorem test_crc32c_check_value : crc32c digits = 0xE3069283 := by decide +kernel

/-- FIPS 180-4: the SHA-384 digest of `abc` (R81). -/
theorem test_sha384 : sha384 [0x61, 0x62, 0x63] =
    0xcb00753f45a35e8bb5a03d699ac65007272c32ab0eded1631a8b605a43ff5bed8086072ba1e7cc2358baeca134c825a7 := by decide +kernel

/-- The example of chapter 1: string 2, position 17, cell 5 is cell 1285. -/
theorem test_cell_index : cellIdx 2 17 5 = 1285 := by decide

/-- The example of chapter 6: I2B is the median, and without I2C the mean rounds to −312,534 mA. -/
theorem test_vote : vote [-312412, -312655, -314020] = some (-312655) ∧ vote [-312412, -312655] = some (-312534) := by
  decide

/-- The example of R48 to R52: head 0x412 and tail 0x318 leave a fill of 0xFA. -/
theorem test_ring_fill : ringFill { head := 0x412, tail := 0x318 } = 0xFA := by decide

/-! ### One step each -/

/-- R71: a cold start without a Cord comes up in CONFIGURE and counts the power cycle. -/
theorem test_cold_start : (after (.coldStart (wBoot 2400)) State.reset).emb.mode = .configure ∧
    (after (.coldStart (wBoot 2400)) State.reset).emb.pwc = 1 := by decide +kernel

/-- R71: below 17.0 V nothing starts. -/
theorem test_cold_start_low_supply : (after (.coldStart (wBoot 1699)) State.reset).emb.power = .dark := by decide +kernel

/-- R361: 127 + 1 wraps to −128 in SINT and sets OVF. -/
theorem test_add_wraps : wreg (task (after (.lgcAdd 15) (rr 8 1 127 1)) 15) 1 = 2 ^ 64 - 128 ∧
    (task (after (.lgcAdd 15) (rr 8 1 127 1)) 15).ovf = true := by decide +kernel

/-- R361: a division by 0 gives 0 and sets DIV0. -/
theorem test_div_by_zero : wreg (task (after (.lgcDiv 15) (rr 11 2 7 0)) 15) 1 = 0 ∧
    (task (after (.lgcDiv 15) (rr 11 2 7 0)) 15).div0 = true := by decide +kernel

/-- R360: REAL 1.0 + 1.0 is 2.0. -/
theorem test_real_add : wreg (task (after (.lgcAdd 15) (rr 8 9 0x3F800000 0x3F800000)) 15) 1 = 0x40000000 := by decide +kernel

/-- R441: a write to an address of no register is answered NOT_PRESENT and changes nothing. -/
theorem test_write_nowhere : (win (after (.registerWrite 0 0x50000000 5 4) (live .standby)) 0).lastRes ≠ .ok ∧
    (after (.registerWrite 0 0x50000000 5 4) (live .standby)).regs = [] := by decide +kernel

/-! ### The checks of well-formed commands refuse -/

/-- A start whose Cord content is c. -/
def bootWith (c : CordContent) : BootFacts := { wBoot 2400 with content := c }
/-- A start whose Cord content names no window. -/
def badBoot : BootFacts := bootWith { fullContent with windows := [] }

theorem test_wf_accepts_start : Instr.wf (.coldStart (wBoot 2400)) = true := by decide +kernel
theorem test_wf_starts : Instr.wf (.coldStart badBoot) = false ∧ Instr.wf (.kindling [] badBoot) = false ∧
    Instr.wf (.verificationComplete badBoot) = false := by decide +kernel
theorem test_wf_content : BootFacts.wf (bootWith { fullContent with retained := [] }) = false ∧
    BootFacts.wf (bootWith { fullContent with
      parts := [{ base := 0xFFFFFF, len := 2, plane := .data, use := .rings, wins := [] }] }) = false ∧
    BootFacts.wf (bootWith { fullContent with
      routes := [{ producer := .current 0, tag := 0, consumers := List.replicate 5 (.window 0) }] }) = false := by decide +kernel
theorem test_wf_sizes : Instr.wf (.registerWrite 0 0 0 3) = false ∧ Instr.wf (.emberCounterSample [0]) = false ∧
    Instr.wf (.precisionSample [0] []) = false ∧ Instr.wf (.thermalSample [] [1]) = false ∧
    Instr.wf (.thermalSample (List.replicate 8 none) []) = false ∧ Instr.wf (.abdMeasureComplete [1]) = false := by
  decide +kernel
theorem test_wf_short_frames : Instr.wf (.chainResponse 0 (List.replicate 65 0) false false 0) = false ∧
    Instr.wf (.safeFrameReceive 0 (List.replicate 65 0)) = false ∧
    Instr.wf (.canFrameReceive 0 { id := 0, ctrl := 0, data := List.replicate 65 0 }) = false := by decide +kernel
theorem test_wf_switch_lengths : Instr.wf (.switchForward 0 (List.replicate 59 0)) = false ∧
    Instr.wf (.switchForward 0 (List.replicate 1519 0)) = false := by simp [Instr.wf]
theorem test_wf_host_lengths : Instr.wf (.qspiWrite false 0 0 65536 [] true) = false ∧
    Instr.wf (.qspiWrite false 0 0 4 [1, 2] true) = false ∧ Instr.wf (.qspiRead false 0 0 65536) = false ∧
    Instr.wf (.hpWrite 0 0 0 65536 []) = false ∧ Instr.wf (.hpWrite 0 0 0 4 []) = false ∧
    Instr.wf (.hpRead 0 0 0 65536) = false := by decide +kernel
/-- An Ethernet payload above 1500 bytes. -/
def tooLong : List Byte := List.replicate 1501 0
theorem test_wf_payload_frames : Instr.wf (.stationInputFrame 0 tooLong) = false ∧
    Instr.wf (.pairFrameReceive tooLong) = false ∧ Instr.wf (.relayOffer 0 tooLong) = false ∧
    Instr.wf (.relayAccept 0 tooLong) = false ∧ Instr.wf (.relayData 0 tooLong) = false := by
  simp [Instr.wf, tooLong]
theorem test_wf_relay_frames : Instr.wf (.relayAck 0 tooLong) = false ∧ Instr.wf (.relayNak 0 tooLong) = false ∧
    Instr.wf (.relayResult 0 tooLong) = false ∧ Instr.wf (.relayAbort 0 tooLong) = false := by
  simp [Instr.wf, tooLong]

/-! ### Every statement has states and operands that meet its hypotheses -/

theorem test_hyps_IdleStepLetsOneMicrosecondPass :
  ∃ (s : State), s.pending = [] :=
  ⟨live .standby, by decide +kernel⟩

theorem test_hyps_StepKeepsSramCanonical :
  ∃ (s : State) (t : State), s.Inv ∧
    step s = .next t :=
  ⟨wA0, nxt (step wA0), by unfold State.Inv; decide +kernel, rfl⟩

theorem test_hyps_RegisterAccessOfAWindow :
  (∃ (w : Win) (a : Word) (v : Word) (s : State) (f : RegFam) (ix : List Nat), WriteMeets s w a.toNat v.toNat f ix ∧
    ((f.base ≠ ctlCvmode.base → hasRight s w f.right = true)) ∧
    ((f.base = ctlCvmode.base → hasRight s w rCfg = true ∧ fld v.toNat 31 30 = fld (rdPending s f 0 ix) 31 30)) ∧
    present s (f.part ix).1 (f.part ix).2 = true ∧
    f.check s ix (v.toNat &&& f.rw) = .ok ∧
    (s.emb.mode = .configure ∨ v.toNat &&& f.frozen = rdFrozen s f w ix &&& f.frozen)) ∧
  (∃ (w : Win) (a : Word) (v : Word) (s : State) (f : RegFam) (ix : List Nat), WriteMeets s w a.toNat v.toNat f ix ∧
    f.base ≠ ctlCvmode.base ∧
    hasRight s w f.right = false) ∧
  (∃ (w : Win) (a : Word) (v : Word) (s : State) (f : RegFam) (ix : List Nat), WriteMeets s w a.toNat v.toNat f ix ∧
    f.base ≠ ctlCvmode.base ∧
    hasRight s w f.right = true ∧
    present s (f.part ix).1 (f.part ix).2 = false) ∧
  (∃ (w : Win) (a : Word) (v : Word) (s : State) (f : RegFam) (ix : List Nat), WriteMeets s w a.toNat v.toNat f ix ∧
    f.base ≠ ctlCvmode.base ∧
    hasRight s w f.right = true ∧
    present s (f.part ix).1 (f.part ix).2 = true ∧
    s.emb.mode ≠ .configure ∧
    v.toNat &&& f.frozen ≠ rdFrozen s f w ix &&& f.frozen) ∧
  (∃ (w : Win) (a : Word) (v : Word) (s : State) (f : RegFam) (ix : List Nat), WriteMeets s w a.toNat v.toNat f ix ∧
    f.base ≠ ctlCvmode.base ∧
    hasRight s w f.right = true ∧
    present s (f.part ix).1 (f.part ix).2 = true ∧
    (s.emb.mode = .configure ∨ v.toNat &&& f.frozen = rdFrozen s f w ix &&& f.frozen) ∧
    f.check s ix (v.toNat &&& f.rw) = .range) ∧
  (∃ (w : Win) (a : Word) (v : Word) (s : State), reachable s w = true ∧
    accessCode s w a.toNat true = .ok ∧
    a.toNat < 0x10000000 ∧
    cmdAt w a.toNat v.toNat = none ∧
    famIn (famPage (a.toNat / 0x10000)) a.toNat = none) ∧
  (∃ (w : Win) (a : Word) (v : Word) (s : State) (op : Req), reachable s w = true ∧
    accessCode s w a.toNat true = .ok ∧
    a.toNat < 0x10000000 ∧
    cmdAt w a.toNat v.toNat = some op) ∧
  (∃ (w : Win) (a : Word) (s : State), reachable s w = true ∧
    accessCode s w a.toNat true = .ok ∧
    a.toNat / 0x10000000 = 1 ∧
    sramGrant s w (a.toNat - 0x10000000) = .readWrite) ∧
  (∃ (w : Win) (a : Word) (s : State), reachable s w = true ∧
    accessCode s w a.toNat true = .ok ∧
    2 ≤ a.toNat / 0x10000000) ∧
  (∃ (w : Win) (a : Word) (s : State), reachable s w = true ∧
    accessCode s w a.toNat true ≠ .ok) ∧
  (∃ (w : Win) (a : Word) (n : Nat) (s : State), reachable s w = true ∧
    accessCode s w a.toNat true = .ok ∧
    n ≠ 4) ∧
  (∃ (w : Win) (s : State), reachable s w = false) ∧
  (∃ (w : Win) (a : Word) (s : State), reachable s w = true ∧
    accessCode s w a.toNat false = .ok ∧
    isLo a.toNat = true) ∧
  (∃ (w : Win) (s : State), reachable s w = true ∧
    accessCode s w 0x120008 false = .ok) :=
  ⟨⟨0, 0x20018, 3600, live .standby, embTimer, [], by and_intros <;> first | decide +kernel | rfl⟩,
   ⟨0, 0x20018, 3600, wNoRight, embTimer, [], by and_intros <;> first | decide +kernel | rfl⟩,
   ⟨0, 0x801B0, 0x20200000, { live .standby with variant := .s2 }, estLrn, [2], by and_intros <;> first | decide +kernel | rfl⟩,
   ⟨0, 0x160010, wd (3 * 2^30 + 17), live .standby, updCfg, [], by and_intros <;> first | decide +kernel | rfl⟩,
   ⟨0, 0x20018, 59, live .standby, embTimer, [], by and_intros <;> first | decide +kernel | rfl⟩,
   ⟨0, 0x16000C, 5, live .standby, by and_intros <;> first | decide +kernel | rfl⟩,
   ⟨0, 0x160000, 2, live .standby, ((cmdAt 0 0x160000 2).getD fun s => (.ok, s)), by and_intros <;> first | decide +kernel | rfl⟩,
   ⟨0, 0x10001FFC, wPt .standby, by decide +kernel⟩,
   ⟨0, 0x20000000, live .standby, by decide +kernel⟩,
   ⟨0, 0x1C, wNoPage, by decide +kernel⟩,
   ⟨0, 0x20018, 2, live .standby, by decide +kernel⟩,
   ⟨0, live .ember, by decide +kernel⟩,
   ⟨0, 0x120008, live .standby, by decide +kernel⟩,
   ⟨0, { live .standby with tim := { State.reset.tim with now := 0x700000005 } }, by decide +kernel⟩⟩

theorem test_hyps_QspiTransactionsAreServed :
  (∃ (b : Bool) (us : Nat) (a : Word) (len : Nat) (ws : List Word) (s : State) (w : Win) (c : Code) (u : State), qspiWin s b = some w ∧
    hrdyAt s b + us ≤ s.now ∧
    lenOk a.toNat len = true ∧
    4 * ws.length = len ∧
    writeReq w a.toNat len (ws.map (·.toNat)) (portUsed s b) = (c, u)) ∧
  (∃ (b : Bool) (us : Nat) (a : Word) (len : Nat) (s : State) (w : Win), qspiWin s b = some w ∧
    hrdyAt s b + us ≤ s.now ∧
    lenOk a.toNat len = true) ∧
  (∃ (b : Bool) (us : Nat) (a : Word) (len : Nat) (s : State) (w : Win), qspiWin s b = some w ∧
    hrdyAt s b + us ≤ s.now ∧
    lenOk a.toNat len = true) ∧
  (∃ (b : Bool) (us : Nat) (s : State) (w : Win), qspiWin s b = some w ∧
    hrdyAt s b + us ≤ s.now) ∧
  (∃ (b : Bool) (us : Nat) (opc : Byte) (s : State) (w : Win), qspiWin s b = some w ∧
    hrdyAt s b + us ≤ s.now ∧
    opc ≠ 0x02 ∧
    opc ≠ 0x0B ∧
    opc ≠ 0x05) ∧
  (∃ (b : Bool) (us : Nat) (s : State) (w : Win), qspiWin s b = some w ∧
    s.now < hrdyAt s b + us) :=
  ⟨⟨false, 5, 0x20018, 4, [3600], { live .standby with now := 50 }, 0, (writeReq 0 0x20018 4 [3600] (portUsed { live .standby with now := 50 } false)).1, (writeReq 0 0x20018 4 [3600] (portUsed { live .standby with now := 50 } false)).2, by decide +kernel⟩,
   ⟨true, 5, 0x1C, 4, { live .standby with now := 50 }, 3, by decide +kernel⟩,
   ⟨false, 5, 0x20018, 4, { live .standby with now := 50 }, 0, by decide +kernel⟩,
   ⟨true, 5, { live .standby with now := 50 }, 3, by decide +kernel⟩,
   ⟨true, 5, 9, { live .standby with now := 50 }, 3, by decide +kernel⟩,
   ⟨true, 5, { live .standby with now := 4 }, 3, by decide +kernel⟩⟩

theorem test_hyps_HostMessagesAreServed :
  (∃ (w : Win) (s : State), awake s = true ∧
    (winBind s w).transport = .ethernet ∧
    (win s w).conn = false) ∧
  (∃ (w : Win) (s : State), (win s w).conn = true ∧
    (win s w).lastMsg + 1000000 * rdf s hstHpcfg [] 31 16 ≤ s.now) ∧
  (∃ (w : Win) (a : Word) (len : Nat) (ws : List Word) (s : State) (c : Code) (u : State), carries s w = true ∧
    writeReq w a.toNat len (ws.map (·.toNat)) (msgIn w s) = (c, u)) ∧
  (∃ (w : Win) (a : Word) (len : Nat) (s : State) (c : Code) (vs : List Nat) (u : State), carries s w = true ∧
    readReq w a.toNat len (msgIn w s) = (c, vs, u)) ∧
  (∃ (w : Win) (s : State), carries s w = true) ∧
  (∃ (w : Win) (s : State), carries s w = true) ∧
  (∃ (w : Win) (s : State), carries s w = true ∧
    wd (winAttn s w) &&& ~~~ (win s w).evSent ≠ 0 ∧
    ((∀ t0, (win s w).evSentAt = some t0 → t0 + 1000 ≤ s.now))) ∧
  (∃ (w : Win) (s : State), carries s w = true ∧
    onUsb s w = true) ∧
  (∃ (w : Win) (s : State), (win s w).conn = true) :=
  ⟨⟨2, live .standby, by decide +kernel⟩,
   ⟨2, { wUsb with now := 700000000 }, by decide +kernel⟩,
   ⟨2, 0x1C, 4, [7], wUsb, (writeReq 2 0x1C 4 [7] (msgIn 2 wUsb)).1, (writeReq 2 0x1C 4 [7] (msgIn 2 wUsb)).2, by decide +kernel⟩,
   ⟨2, 0x1C, 4, wUsb, (readReq 2 0x1C 4 (msgIn 2 wUsb)).1, (readReq 2 0x1C 4 (msgIn 2 wUsb)).2.1, (readReq 2 0x1C 4 (msgIn 2 wUsb)).2.2, by decide +kernel⟩,
   ⟨1, wUsb, by decide +kernel⟩,
   ⟨1, wUsb, by decide +kernel⟩,
   ⟨1, { wUsb with hst := { wUsb.hst with wins := [(1, { conn := true, ev := 16 })] }, regs := [(regKey winEvmask 1 [], 16)] }, by decide +kernel⟩,
   ⟨1, wUsb, by decide +kernel⟩,
   ⟨1, wUsb, by decide +kernel⟩⟩

theorem test_hyps_RingEntryFollowsPolicy :
  (∃ (s : State) (r : Nat), ringLive s r = true) ∧
  (∃ (r : Fin 64) (bs : List Byte) (rest : List (List Byte)) (s : State), (ring s r).waiting = bs :: rest ∧
    ringLive s r = true ∧
    ringFill (ring s r) < ringDepth s r) :=
  ⟨⟨(wRg [(20, { head := 5, tail := 4, gap := true })] []), 20, by decide +kernel⟩,
   ⟨20, dsc.bytes 0 77 false, [[1]], (wRg [(20, { head := 5, tail := 4, waiting := [dsc.bytes 0 77 false, [1]] })] []), by decide +kernel⟩⟩

theorem test_hyps_RingsAreIndexedByHeadAndTail :
  (∃ (s : State) (r : Nat), ringLive s r = true ∧
    (ring s r).overflow = false ∧
    ringFill (ring s r) < ringDepth s r ∧
    (ring s r).waiting = []) ∧
  (∃ (s : State) (r : Nat), ringDepth s r = ((ring s r).head - (ring s r).tail).toNat) ∧
  (∃ (s : State) (r : Nat), 0 < ringDepth s r ∧
    (ring s r).head ≠ (ring s r).tail) ∧
  (∃ (s : State) (r : Nat), (ring s r).head = (ring s r).tail) ∧
  (∃ (w : Win) (r : Fin 64) (v : Word) (s : State), reachable s w = true ∧
    accessCode s w (0x131008 + 0x20 * r.val) true = .ok ∧
    ringWin s r = some w.val ∧
    ringHost s r = true ∧
    (v - (ring s r).tail).toNat ≤ ringDepth s r) ∧
  (∃ (w : Win) (r : Fin 64) (v : Word) (s : State), reachable s w = true ∧
    accessCode s w (0x13100C + 0x20 * r.val) true = .ok ∧
    ringWin s r = some w.val ∧
    ringHost s r = false ∧
    (v - (ring s r).tail).toNat ≤ ((ring s r).head - (ring s r).tail).toNat ∧
    ((ring s r).overflow = false ∨ v ≠ (ring s r).head ∨ r.val < 20 ∨ 23 < r.val)) ∧
  (∃ (w : Win) (k : Fin 4) (r : Fin 64) (s : State), r.val = 20 + k.val ∧
    reachable s w = true ∧
    accessCode s w (0x13100C + 0x20 * r.val) true = .ok ∧
    ringWin s r = some w.val ∧
    ringHost s r = false ∧
    (ring s r).overflow = true ∧
    (ring s r).waiting = [] ∧
    ringLive s r = true) ∧
  (∃ (w : Win) (r : Fin 64) (isTail : Bool) (v : Word) (s : State), reachable s w = true ∧
    accessCode s w ((if isTail then 0x13100C else 0x131008) + 0x20 * r.val) true = .ok ∧
    ringWin s r = some w.val ∧
    ringHost s r = !isTail ∧
    (if isTail then ((ring s r).head - (ring s r).tail).toNat else ringDepth s r) < (v - (ring s r).tail).toNat) ∧
  (∃ (w : Win) (r : Fin 64) (isTail : Bool) (s : State), reachable s w = true ∧
    accessCode s w ((if isTail then 0x13100C else 0x131008) + 0x20 * r.val) true = .ok ∧
    (ringWin s r ≠ some w.val ∨ ringHost s r = isTail)) :=
  ⟨⟨(wRg [(20, { head := 5, tail := 4, gap := true })] []), 20, by decide +kernel⟩,
   ⟨(wRg [(21, { head := 5, tail := 3 })] []), 21, by decide +kernel⟩,
   ⟨(wRg [(30, { head := 0, tail := 0xFFFFFFFF })] []), 30, by decide +kernel⟩,
   ⟨(wRg [(30, { head := 7, tail := 7 })] []), 30, by decide +kernel⟩,
   ⟨1, 30, 5, (wRg [(30, { head := 0xFFFFFFFE, tail := 0xFFFFFFFD })] []), by decide +kernel⟩,
   ⟨1, 31, 5, (wRg [(31, { head := 5, tail := 3 })] []), by decide +kernel⟩,
   ⟨1, 0, 20, (wRg1 [(20, { head := 5, tail := 3, overflow := true })]), by decide +kernel⟩,
   ⟨1, 31, true, 6, (wRg [(31, { head := 5, tail := 3 })] []), by decide +kernel⟩,
   ⟨1, 30, true, (wRg [(30, { head := 5, tail := 3 })] []), by decide +kernel⟩⟩

theorem test_hyps_RingCommandsAreAnswered :
  (∃ (w : Win) (s : State) (bs : List Byte) (c : Code) (u : State), ringCmd s w = some bs ∧
    cmdIs bs 1 = true ∧
    writeReq w (getLe bs 24 4) 4 [getLe bs 28 4] (ringPop s (4 * w)) = (c, u)) ∧
  (∃ (w : Win) (s : State) (bs : List Byte) (c : Code) (v : Nat) (u : State), ringCmd s w = some bs ∧
    cmdIs bs 2 = true ∧
    readReq w (getLe bs 24 4) 4 (ringPop s (4 * w)) = (c, [v], u)) ∧
  (∃ (w : Win) (s : State) (bs : List Byte) (c : Code) (u : State), ringCmd s w = some bs ∧
    cmdIs bs 3 = true ∧
    lenOk (getLe bs 24 4) (getLe bs 20 2) = true ∧
    cmdBuf (ringPop s (4 * w)) w bs = true ∧
    writeReq w (getLe bs 24 4) (getLe bs 20 2) (bytesWords (getLe bs 20 2 / 4) (engRead (ringPop s (4 * w)) .host w (getLe bs 16 4) (getLe bs 20 2)).1) (engRead (ringPop s (4 * w)) .host w (getLe bs 16 4) (getLe bs 20 2)).2 = (c, u)) ∧
  (∃ (w : Win) (s : State) (bs : List Byte) (c : Code) (vs : List Nat) (u : State), ringCmd s w = some bs ∧
    cmdIs bs 4 = true ∧
    lenOk (getLe bs 24 4) (getLe bs 20 2) = true ∧
    cmdBuf (ringPop s (4 * w)) w bs = true ∧
    readReq w (getLe bs 24 4) (getLe bs 20 2) (ringPop s (4 * w)) = (c, vs, u)) ∧
  (∃ (w : Win) (s : State) (bs : List Byte), ringCmd s w = some bs ∧
    cmdIs bs 3 = true ∧
    lenOk (getLe bs 24 4) (getLe bs 20 2) = true ∧
    cmdBuf (ringPop s (4 * w)) w bs = false) ∧
  (∃ (w : Win) (s : State) (bs : List Byte), ringCmd s w = some bs ∧
    cmdIs bs 4 = true ∧
    lenOk (getLe bs 24 4) (getLe bs 20 2) = true ∧
    cmdBuf (ringPop s (4 * w)) w bs = false) ∧
  (∃ (w : Win) (s : State) (bs : List Byte), ringCmd s w = some bs ∧
    cmdIs bs 5 = true) ∧
  (∃ (w : Win) (s : State) (bs : List Byte), ringCmd s w = some bs ∧
    cmdBad bs = true ∧
    byteAt bs 5 = 1) :=
  ⟨⟨1, wRc1 (rcm 1 0x80 0 8 0x1C 7), rcm 1 0x80 0 8 0x1C 7, (wr1 (rcm 1 0x80 0 8 0x1C 7)).1, (wr1 (rcm 1 0x80 0 8 0x1C 7)).2, by decide +kernel⟩,
   ⟨1, wRc1 (rcm 2 0x80 0 8 0x1C 7), rcm 2 0x80 0 8 0x1C 7, (rr1 (rcm 2 0x80 0 8 0x1C 7)).1, (rr1 (rcm 2 0x80 0 8 0x1C 7)).2.1.getD 0 0, (rr1 (rcm 2 0x80 0 8 0x1C 7)).2.2, by decide +kernel⟩,
   ⟨1, wRc1 (rcm 3 0 0x2000 4 0x1C 7), rcm 3 0 0x2000 4 0x1C 7, (wb1 (rcm 3 0 0x2000 4 0x1C 7)).1, (wb1 (rcm 3 0 0x2000 4 0x1C 7)).2, by decide +kernel⟩,
   ⟨1, wRc1 (rcm 4 0 0x2000 8 0x1C 7), rcm 4 0 0x2000 8 0x1C 7, (rb1 (rcm 4 0 0x2000 8 0x1C 7)).1, (rb1 (rcm 4 0 0x2000 8 0x1C 7)).2.1, (rb1 (rcm 4 0 0x2000 8 0x1C 7)).2.2, by decide +kernel⟩,
   ⟨1, wRc1 (rcm 3 0 0x2FFD 4 0x1C 7), rcm 3 0 0x2FFD 4 0x1C 7, by decide +kernel⟩,
   ⟨1, wRc1 (rcm 4 0 0x3000 8 0x1C 7), rcm 4 0 0x3000 8 0x1C 7, by decide +kernel⟩,
   ⟨1, wRc1 (rcm 5 0 0 0 0 0), rcm 5 0 0 0 0 0, by decide +kernel⟩,
   ⟨1, wRc1 (rcm 1 0 0 8 0x1C 7), rcm 1 0 0 8 0x1C 7, by decide +kernel⟩⟩

theorem test_hyps_DispatchOwnershipMovesByAccept :
  (∃ (w : Win) (s : State), Granted s w 0x34 rDsp ∧
    isOwner s w = false ∧
    s.hst.dspReq = none) ∧
  (∃ (w : Win) (r : Win) (t0 : Nat) (s : State), Granted s w 0x34 rRead ∧
    isOwner s w = true ∧
    s.hst.dspReq = some (r, t0) ∧
    s.now < t0 + 1000000 * rdf s hstHpcfg [] 15 0) ∧
  (∃ (w : Win) (r : Win) (t0 : Nat) (s : State), Granted s w 0x34 rRead ∧
    isOwner s w = true ∧
    s.hst.dspReq = some (r, t0) ∧
    r ≠ w ∧
    s.now < t0 + 1000000 * rdf s hstHpcfg [] 15 0) ∧
  (∃ (r : Win) (t0 : Nat) (s : State), s.hst.dspReq = some (r, t0) ∧
    t0 + 1000000 * rdf s hstHpcfg [] 15 0 ≤ s.now) :=
  ⟨⟨2, wDs none, by decide +kernel⟩,
   ⟨0, 2, 59999999, (wDs (some (2, 59999999))), by decide +kernel⟩,
   ⟨0, 2, 59999999, (wDs (some (2, 59999999))), by decide +kernel⟩,
   ⟨2, 0, (wDs (some (2, 0))), by decide +kernel⟩⟩

theorem test_hyps_ShadowedFieldsCommitByGroup :
  (∃ (v : Word) (s : State), awake s = true ∧
    held s 18 0 = false ∧
    s.shadow = [(timStepmax.addr [], some v)]) ∧
  (∃ (b : Byte) (n : Byte) (s : State), held s b.toNat n.toNat = true) ∧
  (∃ (w : Win) (b : Byte) (n : Byte) (s : State), Granted s w 0x10010 rCfg ∧
    groupCode s b.toNat n.toNat = .ok ∧
    (s.kln.holds.length < 8 ∨ held s b.toNat n.toNat = true)) ∧
  (∃ (w : Win) (v : Word) (s : State), Granted s w 0x10010 rCfg ∧
    s.shadow = [(timStepmax.addr [], some v)]) ∧
  (∃ (w : Win) (b : Byte) (n : Byte) (s : State), Granted s w 0x10010 rCfg ∧
    groupCode s b.toNat n.toNat = .ok ∧
    midUnit s b.toNat n.toNat = true) ∧
  (∃ (w : Win) (b : Byte) (n : Byte) (s : State), Granted s w 0x10010 rCfg ∧
    groupCode s b.toNat n.toNat = .ok) ∧
  (∃ (w : Win) (b : Byte) (n : Byte) (s : State), Granted s w 0x10010 rCfg ∧
    groupCode s b.toNat n.toNat = .ok ∧
    8 ≤ s.kln.holds.length ∧
    held s b.toNat n.toNat = false) ∧
  (∃ (w : Win) (s : State), Granted s w 0x10030 rCfg) :=
  ⟨⟨777, wShadow, by decide +kernel⟩,
   ⟨18, 0, wHeld, by decide +kernel⟩,
   ⟨0, 18, 0, live .standby, by decide +kernel⟩,
   ⟨0, 777, wShadow, by decide +kernel⟩,
   ⟨0, 4, 0, wSweepOpen, by decide +kernel⟩,
   ⟨0, 18, 0, wHeld, by decide +kernel⟩,
   ⟨0, 18, 0, wHolds8, by decide +kernel⟩,
   ⟨0, live .standby, by decide +kernel⟩⟩

theorem test_hyps_KilnCoreEventsAndViolations :
  (∃ (d : Domain) (t0 : Nat) (s : State), awake s = true ∧
    fastDom d = true ∧
    domWanted s d = false ∧
    gated s d = false ∧
    tget none s.kln.idleAt d.ctorIdx = some t0 ∧
    t0 + 1000 ≤ s.now) ∧
  (∃ (d : Domain) (t0 : Nat) (s : State), tget none s.kln.idleAt d.ctorIdx = some t0 ∧
    s.now < t0 + 1000) ∧
  (∃ (d : Domain) (ppm : Nat) (us : Nat) (s : State), checkedDom d = true ∧
    domRuns s d = true ∧
    20000 < ppm ∧
    10 < us) ∧
  (∃ (d : Domain) (ppm : Nat) (us : Nat) (s : State), ppm ≤ 20000 ∨ us ≤ 10 ∨ domRuns s d = false) ∧
  (∃ (b : Fin 8) (p : Plane) (r : SramReq) (s : State), awake s = true ∧
    p ≠ .control ∧
    (tget 0 s.kln.aged (4 * b.val + p.ctorIdx) = 0 ∨ tget 0 s.kln.aged (4 * b.val + p.ctorIdx) + 10 ≤ s.now + 1) ∧
    ((tget [] s.arb.waiting b).find? fun q => q.plane == p && decide (s.now ≥ q.since + 10)) = some r) ∧
  (∃ (b : Fin 8) (p : Plane) (s : State), ((tget [] s.arb.waiting b).find? fun q => q.plane == p && decide (s.now ≥ q.since + 10)) = none) ∧
  (∃ (k : EvSink) (s : State), awake s = true ∧
    k ∈ s.kln.evPend) ∧
  (∃ (n : Nat) (s : State), awake s = true ∧
    .other n ∈ s.kln.evPend ∧
    gated s .sys = false) ∧
  (∃ (e : Engine) (n : Byte) (a : Word) (s : State), awake s = true ∧
    engGrant s e n.toNat (a.toNat - 0x10000000) 4 = .none) ∧
  (∃ (e : Engine) (n : Byte) (a : Word) (s : State), engGrant s e n.toNat (a.toNat - 0x10000000) 4 = .readWrite) ∧
  (∃ (n : Byte) (a : Word) (s : State), awake s = true ∧
    Engine.thermal ∉ s.kln.stopped ∧
    engGrant s .thermal n.toNat (a.toNat - 0x10000000) 4 ≠ .readWrite) ∧
  (∃ (e : Engine) (s : State), awake s = true ∧
    faultEngine e = true ∧
    e ∉ s.kln.stopped) ∧
  (∃ (e : Engine) (s : State), awake s = true ∧
    (e = .control ∨ e = .pwm)) :=
  ⟨⟨.can, 4000, wIdle .can 4000, by decide +kernel⟩,
   ⟨.can, 4001, wIdle .can 4001, by decide +kernel⟩,
   ⟨.tcx, 20001, 11, live .standby, by decide +kernel⟩,
   ⟨.tcx, 20000, 11, live .standby, by decide +kernel⟩,
   ⟨3, .data, { plane := .data, beats := 4, since := 4990 }, (wArb 4990 [(12 + Plane.data.ctorIdx, 4991)]), by decide +kernel⟩,
   ⟨3, .data, wArb 4991 [], by decide +kernel⟩,
   ⟨.other 3, wEvent, by decide +kernel⟩,
   ⟨3, wEvent, by decide +kernel⟩,
   ⟨.host, 0x13, 0x10000100, live .standby, by decide +kernel⟩,
   ⟨.chain, 2, 0x10000FFC, wGr, by decide +kernel⟩,
   ⟨1, 0x10000100, wGr, by decide +kernel⟩,
   ⟨.chain, live .standby, by decide +kernel⟩,
   ⟨.control, live .standby, by decide +kernel⟩⟩

theorem test_hyps_ModeRequestsAreEvaluatedByTheTable :
  (∃ (w : Win) (s : State), reachable s w = true ∧
    accessCode s w 0x20004 true = .ok ∧
    s.emb.pfail = false ∧
    s.emb.eject = false) ∧
  (∃ (w : Win) (m : BitVec 3) (s : State), reachable s w = true ∧
    accessCode s w 0x20004 true = .ok ∧
    (s.emb.pfail = true ∨ s.emb.eject = true) ∧
    modeOf m.toNat ≠ .safeStop) ∧
  (∃ (s : State), evalDue s = false) ∧
  (∃ (c : Nat) (l : List ModeReq) (s : State), awake s = true ∧
    evalDue s = true ∧
    hasCord s = true ∧
    s.emb.mode ≠ .safeStop ∧
    s.upd.fbGo = false ∧
    s.emb.reqs = { target := .safeStop, src := .fault c } :: l) ∧
  (∃ (w : Win) (s : State), awake s = true ∧
    evalDue s = true ∧
    s.emb.mode = .standby ∧
    s.emb.eject = false ∧
    s.emb.emberAt = none ∧
    s.emb.rampSince = none ∧
    lotoPos s = .maint ∧
    hasRight s w rMaint = true ∧
    s.upd.fbGo = false ∧
    s.emb.reqs = [{ target := .maintenance, src := .window w }]) ∧
  (∃ (w : Win) (s : State), awake s = true ∧
    evalDue s = true ∧
    s.emb.mode = .standby ∧
    s.emb.eject = false ∧
    s.emb.emberAt = none ∧
    s.emb.rampSince = none ∧
    hasRight s w rMaint = false ∧
    s.emb.reqs = [{ target := .maintenance, src := .window w }]) ∧
  (∃ (t0 : Nat) (c : Nat) (s : State), awake s = true ∧
    evalDue s = true ∧
    s.emb.reqs = [] ∧
    s.emb.emberAt = some (t0, c) ∧
    s.emb.eject = false ∧
    emberReady s = true) ∧
  (∃ (s : State), awake s = true ∧
    evalDue s = true ∧
    s.emb.reqs = [] ∧
    s.emb.emberAt = none ∧
    s.emb.rampSince = none ∧
    leavesMaint s = false) :=
  ⟨⟨3, (wReqs .drowse [{ target := .maintenance, src := .window 3 }, { target := .standby, src := .window 2 }]), by decide +kernel⟩,
   ⟨0, 1, { live .connected with emb := { (live .connected).emb with pfail := true } }, by decide +kernel⟩,
   ⟨{ wEval (live .connected) with now := 40000004 }, by decide +kernel⟩,
   ⟨5, [], (wEval { wContactor .connected with emb := { (live .connected).emb with reqs := [{ target := .safeStop, src := .fault 5 }] } }), by decide +kernel⟩,
   ⟨3, wEval wMaintKey, by decide +kernel⟩,
   ⟨0, (wEval { wNoRights .standby with emb := { (live .standby).emb with reqs := [{ target := .maintenance, src := .window 0 }] } }), by decide +kernel⟩,
   ⟨39000000, 10, (wEval { live .standby with emb := { (live .standby).emb with emberAt := some (39000000, 10) } }), by decide +kernel⟩,
   ⟨wEval (live .connected), by decide +kernel⟩⟩

theorem test_hyps_TimersKeyAndAcknowledgeMoveTheMode :
  (∃ (t0 : Nat) (s : State), awake s = true ∧
    s.emb.rampSince = some t0 ∧
    t0 + 30000000 ≤ s.now ∧
    (∃ k ∈ strs s, ctrOpen s k = false ∧ ((mstr s k).invalid = true ∨ 1000 ≤ (mstr s k).voted.natAbs)) ∧
    s.emb.rampTimeout = false) ∧
  (∃ (s : State), (∀ k ∈ strs s, (mstr s k).invalid = false ∧ (mstr s k).voted.natAbs < 1000)) ∧
  (∃ (s : State), awake s = true ∧
    s.emb.mode = .safeStop ∧
    recovered s = true) ∧
  (∃ (s : State), recovered s = false) ∧
  (∃ (s : State), awake s = true ∧
    s.emb.mode = .connected ∧
    drowseReady s = true) ∧
  (∃ (s : State), awake s = true ∧
    s.emb.mode = .drowse ∧
    (∃ k ∈ strs s, 10 ≤ (tget {} s.emb.qdrw k).wakeRun)) ∧
  (∃ (k : Str) (t0 : Nat) (s : State), (ctr s k).pstate = 1 ∧
    (ctr s k).preFail = false ∧
    (ctr s k).preSince = some t0 ∧
    t0 + 1000 * (safB s).tPre ≤ s.now) ∧
  (∃ (s : State), s.emb.power ≠ .dark) ∧
  (∃ (p : Loto) (s : State), s.emb.power ≠ .dark ∧
    p ≠ .between) ∧
  (∃ (t0 : Nat) (s : State), s.emb.lotoBetween = some t0 ∧
    t0 + 100000 < s.now ∧
    awake s = true ∧
    allOpen s = false ∧
    s.emb.eject = false) ∧
  (∃ (w : Win) (s : State), Granted s w 0x20008 rSafe ∧
    s.emb.mode = .safeStop ∧
    s.saf.dem = 0 ∧
    s.emb.eject = false ∧
    s.emb.pfail = false) ∧
  (∃ (w : Win) (s : State), Granted s w 0xD0000 rSafe ∧
    s.emb.mode = .safeStop ∧
    s.saf.dem = 0 ∧
    s.emb.eject = false ∧
    s.emb.pfail = false) ∧
  (∃ (w : Win) (s : State), Granted s w 0x20008 rSafe ∧
    (s.emb.mode ≠ .safeStop ∨ s.saf.dem ≠ 0)) ∧
  (∃ (w : Win) (s : State), Granted s w 0xD0000 rSafe ∧
    (s.emb.mode ≠ .safeStop ∨ s.saf.dem ≠ 0)) ∧
  (∃ (w : Win) (s : State), Granted s w 0x20008 rMaint) :=
  ⟨⟨10000000, { wRamp with mea := { State.reset.mea with strs := [(0, { voted := -1000 })] } }, by decide +kernel⟩,
   ⟨{ wRamp with mea := { State.reset.mea with strs := [(0, { voted := -999, invalid := false }), (1, { invalid := false }), (2, { invalid := false }), (3, { invalid := false })] } }, by decide +kernel⟩,
   ⟨wRecov, by decide +kernel⟩,
   ⟨live .safeStop, by decide +kernel⟩,
   ⟨wDrowse, by decide +kernel⟩,
   ⟨wWake, by decide +kernel⟩,
   ⟨3, 0, wPre, by decide +kernel⟩,
   ⟨wContactor .connected, by decide +kernel⟩,
   ⟨.lock, wContactor .connected, by decide +kernel⟩,
   ⟨39899999, wBetween, by decide +kernel⟩,
   ⟨3, wLatch, by decide +kernel⟩,
   ⟨3, wLatch, by decide +kernel⟩,
   ⟨3, wDem, by decide +kernel⟩,
   ⟨3, live .standby, by decide +kernel⟩,
   ⟨3, live .standby, by decide +kernel⟩⟩

theorem test_hyps_StartsEmberCountingAndSupplyFailure :
  (∃ (n : Fin 8) (s : State), s.emb.power = .on ∧
    s.emb.mode = .ember ∧
    (5 ≤ n.val ∨ bitN (rd s embWakeEn []) n.val = true) ∧
    (n ≠ 0 ∨ (rdf s embTimer [] 23 0 ≠ 0 ∧ s.emb.emberEntry + 32768 * rdf s embTimer [] 23 0 ≤ s.emb.ticks))) ∧
  (∃ (ups : List (Nat × Nat × Byte)) (i : Nat) (s : State), s.emb.power = .on ∧
    s.emb.mode = .ember ∧
    s.emb.wakePend = true ∧
    s.emb.eject = false ∧
    kcmBad (kcmUpset ups s) = some i) ∧
  (∃ (ups : List (Nat × Nat × Byte)) (s : State), s.emb.power = .on ∧
    s.emb.mode = .ember ∧
    s.emb.wakePend = true ∧
    s.emb.eject = false ∧
    kcmBad (kcmUpset ups s) = none) ∧
  (∃ (b : BootFacts) (s : State), (s.emb.power = .dark ∨ s.emb.power = .waiting) ∧
    s.crd.running.bytes = [] ∧
    1700 ≤ b.vsup10mv ∧
    b.present = true ∧
    b.leverOpen = false) ∧
  (∃ (b : BootFacts), b.vsup10mv < 1700) ∧
  (∃ (s : State), s.now < s.emb.counterAt + 1000) ∧
  (∃ (s : State), awake s = true ∧
    s.emb.counterAt + 1000 ≤ s.now) ∧
  (∃ (k : Str) (t0 : Nat) (s : State), s.emb.drowseExit = some t0 ∧
    (tget {} s.emb.qdrw k).counting = true ∧
    (mstr s k).invalid = false) ∧
  (∃ (s : State), s.emb.power ≠ .dark) ∧
  (∃ (us : Nat) (s : State), s.emb.power ≠ .dark ∧
    us < 100) ∧
  (∃ (v : Nat) (s : State), v < 1600 ∧
    awake s = true) ∧
  (∃ (v : Nat) (s : State), v < 1600 ∧
    s.emb.power = .on ∧
    s.emb.mode = .ember) ∧
  (∃ (s : State), s.emb.power = .flushing ∧
    s.emb.mode ≠ .ember ∧
    s.emb.pfailAt + 2000 ≤ s.now) ∧
  (∃ (s : State), s.emb.power = .flushing ∧
    s.emb.mode = .ember) ∧
  (∃ (s : State), s.emb.power = .waiting ∧
    s.emb.vsup < 1600) :=
  ⟨⟨0, wTimer, by decide +kernel⟩,
   ⟨[(0, 1, 9)], ((kcmBad (kcmUpset [(0, 1, 9)] wKcm)).getD 0), wKcm, by decide +kernel⟩,
   ⟨[], wEmber, by decide +kernel⟩,
   ⟨wBoot 1700, State.reset, by decide +kernel⟩,
   ⟨wBoot 1699, by decide +kernel⟩,
   ⟨{ wCount with now := 1999, emb := { wCount.emb with counterAt := 1000 } }, by decide +kernel⟩,
   ⟨{ wCount with now := 2000, emb := { wCount.emb with counterAt := 1000 } }, by decide +kernel⟩,
   ⟨3, 0, { wCount with mea := { State.reset.mea with strs := [(3, { invalid := false })] } }, by decide +kernel⟩,
   ⟨wPower .waiting, by decide +kernel⟩,
   ⟨99, wPower .waiting, by decide +kernel⟩,
   ⟨1599, wContactor .connected, by decide +kernel⟩,
   ⟨1599, live .ember, by decide +kernel⟩,
   ⟨{ wPower .flushing with now := 3000, emb := { State.reset.emb with power := .flushing, mode := .standby, pfailAt := 1000 } }, by decide +kernel⟩,
   ⟨wPower .flushing, by decide +kernel⟩,
   ⟨wPower .waiting, by decide +kernel⟩⟩

theorem test_hyps_LoaderCommandsWorkOnTheIncomingSlot :
  (∃ (w : Win) (s : State), Granted s w 0x30004 rCfg ∧
    s.crd.verifying = none ∧
    slotBusy s = false) ∧
  (∃ (w : Win) (s : State), Granted s w 0x30004 rCfg ∧
    s.crd.verifying = none ∧
    slotBusy s = false ∧
    s.crd.xferOpen = true ∧
    s.crd.shortBlock = false ∧
    rdf s crdXferOff [] 31 12 = s.crd.nextBlock) ∧
  (∃ (w : Win) (s : State), Granted s w 0x30004 rCfg ∧
    s.crd.verifying = none ∧
    (s.crd.xferOpen = false ∨ s.crd.shortBlock = true ∨ rdf s crdXferOff [] 31 12 ≠ s.crd.nextBlock)) ∧
  (∃ (w : Win) (s : State), Granted s w 0x30004 rCfg ∧
    s.crd.verifying = none) ∧
  (∃ (w : Win) (s : State), Granted s w 0x30004 rCfg ∧
    s.crd.verifying = none) ∧
  (∃ (w : Win) (s : State), Granted s w 0x30004 rCfg ∧
    s.crd.verifying = none ∧
    s.emb.mode = .configure ∧
    s.upd.confRun = false ∧
    s.upd.fbDue = false) ∧
  (∃ (w : Win) (s : State), Granted s w 0x30004 rCfg ∧
    s.crd.verifying = none ∧
    s.emb.mode = .configure ∧
    s.crd.previous.bytes ≠ []) ∧
  (∃ (w : Win) (s : State), Granted s w 0x30004 rCfg ∧
    s.crd.verifying = none ∧
    s.emb.mode ≠ .configure) ∧
  (∃ (w : Win) (v : VerifyFor) (s : State), Granted s w 0x30004 rCfg ∧
    s.crd.verifying = some v) :=
  ⟨⟨0, live .configure, by decide +kernel⟩,
   ⟨1, wXfer, by decide +kernel⟩,
   ⟨1, wXferEnd, by decide +kernel⟩,
   ⟨2, wXfer, by decide +kernel⟩,
   ⟨3, wXfer, by decide +kernel⟩,
   ⟨0, wXfer, by decide +kernel⟩,
   ⟨0, wPrev, by decide +kernel⟩,
   ⟨0, live .standby, by decide +kernel⟩,
   ⟨0, .verifyRunning, wVerifying .verifyRunning, by decide +kernel⟩⟩

theorem test_hyps_VerificationsAndOnlineChangesEnd :
  (∃ (s : State), awake s = true ∧
    s.crd.verifying = some .verifyIncoming ∧
    s.upd.rx.state ≠ 3 ∧
    s.upd.fbDue = false) ∧
  (∃ (s : State), awake s = true ∧
    s.crd.verifying = some .verifyRunning ∧
    s.upd.rx.state ≠ 3 ∧
    s.upd.fbDue = false) ∧
  (∃ (s : State), s.crd.verifying = none) ∧
  (∃ (w : Win) (s : State), Granted s w 0xE0000 rCfg ∧
    (s.emb.mode = .standby ∨ s.emb.mode = .connected ∨ s.emb.mode = .maintenance ∨ s.emb.mode = .safeStop) ∧
    s.lgc.olc = none ∧
    s.crd.verifying = none ∧
    s.upd.confRun = false ∧
    s.upd.fbDue = false) ∧
  (∃ (w : Win) (s : State), Granted s w 0xE0000 rCfg ∧
    (s.emb.mode = .drowse ∨ s.emb.mode = .precharge ∨ s.emb.mode = .configure)) ∧
  (∃ (w : Win) (t0 : Nat) (c : CordContent) (s : State), s.lgc.olc = some (w, t0) ∧
    s.crd.content = some c ∧
    awake s = true ∧
    quietInstant s = true ∧
    s.crd.incValid = true) ∧
  (∃ (s : State), quietInstant s = false) ∧
  (∃ (w : Win) (t0 : Nat) (s : State), s.lgc.olc = some (w, t0) ∧
    awake s = true ∧
    t0 + 1000000 ≤ s.now) :=
  ⟨⟨wVerifying .verifyIncoming, by decide +kernel⟩,
   ⟨wVerifying .verifyRunning, by decide +kernel⟩,
   ⟨live .standby, by decide +kernel⟩,
   ⟨0, live .safeStop, by decide +kernel⟩,
   ⟨0, live .precharge, by decide +kernel⟩,
   ⟨0, 0, fullContent, wOlc, by decide +kernel⟩,
   ⟨wOlcBusy, by decide +kernel⟩,
   ⟨0, 0, wOlc, by decide +kernel⟩⟩

theorem test_hyps_ChainPortsAndTransactions :
  (∃ (j : Fin 8) (s : State), awake s = true ∧
    loopOn s (j.val / 2) = true ∧
    (∀ x ∈ (lp s (j.val / 2)).tx, x.pos = 0 ∨ x.cmd.fromA ≠ (j.val % 2 == 0))) ∧
  (∃ (j : Fin 8) (bs : List Byte) (s : State), awake s = true ∧
    loopOn s (j.val / 2) = true ∧
    rxFrame bs = none ∧
    (∀ x ∈ (lp s (j.val / 2)).tx, x.pos = 0 ∨ x.cmd.fromA ≠ (j.val % 2 == 0))) ∧
  (∃ (j : Fin 8) (bs : List Byte) (x : ChainTx) (s : State), awake s = true ∧
    loopOn s (j.val / 2) = true ∧
    rxFrame bs = none ∧
    (lp s (j.val / 2)).tx = some x ∧
    x.pos ≠ 0 ∧
    x.cmd.fromA = (j.val % 2 == 0) ∧
    x.retries < rdf s chnLcfg [j.val / 2] 27 24) ∧
  (∃ (j : Fin 8) (bs : List Byte) (f : RxFrame) (x : ChainTx) (s : State), awake s = true ∧
    loopOn s (j.val / 2) = true ∧
    rxFrame bs = some f ∧
    f.typ = 1 ∧
    f.alm = false ∧
    f.opc = 0x0D ∧
    (lp s (j.val / 2)).tx = some x ∧
    x.pos ≠ 0 ∧
    x.cmd.opc = 0x0D ∧
    x.tag.toNat = f.tag ∧
    x.cmd.hop = f.hop ∧
    x.cmd.fromA = (j.val % 2 == 0)) ∧
  (∃ (j : Fin 8) (bs : List Byte) (f : RxFrame) (s : State), awake s = true ∧
    loopOn s (j.val / 2) = true ∧
    rxFrame bs = some f ∧
    f.typ = 1 ∧
    (lp s (j.val / 2)).tx = none) ∧
  (∃ (k : Str) (s : State), awake s = true ∧
    loopOn s k = true ∧
    (lp s k).tx = none ∧
    (lp s k).state = .enum ∧
    (lp s k).op = .enumA) ∧
  (∃ (k : Str) (s : State), awake s = true ∧
    loopOn s k = true ∧
    (lp s k).tx = none ∧
    (lp s k).state = .closed ∧
    (lp s k).op = .idle ∧
    (lp s k).sweepOpen = true ∧
    (lp s k).readDue = true ∧
    (lp s k).readDone = false) ∧
  (∃ (k : Str) (x : ChainTx) (s : State), (lp s k).tx = some x) ∧
  (∃ (k : Str) (x : ChainTx) (s : State), (lp s k).tx = some x ∧
    1000 * s.now < 1000 * x.sentAt + timeoutNs (lp s k) x) ∧
  (∃ (k : Str) (x : ChainTx) (s : State), awake s = true ∧
    (lp s k).tx = some x ∧
    x.pos ≠ 0 ∧
    1000 * x.sentAt + timeoutNs (lp s k) x ≤ 1000 * s.now ∧
    x.retries < rdf s chnLcfg [k] 27 24) ∧
  (∃ (k : Str) (x : ChainTx) (s : State), awake s = true ∧
    (lp s k).tx = some x ∧
    x.pos ≠ 0 ∧
    x.cmd.opc ≠ 0x0A ∧
    1000 * x.sentAt + timeoutNs (lp s k) x ≤ 1000 * s.now ∧
    rdf s chnLcfg [k] 27 24 ≤ x.retries) ∧
  (∃ (k : Str) (x : ChainTx) (e : Nat) (s : State), (lp s k).tx = some x ∧
    x.lastEnd = some e ∧
    s.now < e + 40) ∧
  (∃ (k : Str) (x : ChainTx) (e : Nat) (s : State), awake s = true ∧
    (lp s k).tx = some x ∧
    x.pos = 0 ∧
    x.lastEnd = some e ∧
    e + 40 ≤ s.now ∧
    x.cmd.opc = 0x05 ∧
    x.cmd.fromA = true ∧
    (lp s k).sweepOpen = true ∧
    (lp s k).state = .closed ∧
    x.resps.length = (lp s k).n ∧
    x.arrived = true) ∧
  (∃ (k : Str) (x : ChainTx) (e : Nat) (s : State), awake s = true ∧
    (lp s k).tx = some x ∧
    x.pos = 0 ∧
    x.lastEnd = some e ∧
    e + 40 ≤ s.now ∧
    x.cmd.opc = 0x05 ∧
    x.cmd.fromA = true ∧
    (lp s k).sweepOpen = true ∧
    (lp s k).state = .closed ∧
    x.resps.length < (lp s k).n) :=
  ⟨⟨7, wLoop .standby {}, by decide +kernel⟩,
   ⟨7, [], wLoop .standby {}, by decide +kernel⟩,
   ⟨6, [1, 2], wTx 0x0D 1 1 [], wLoop .standby (wClosed (some (wTx 0x0D 1 1 []))), by decide +kernel⟩,
   ⟨6, wFrame, { typ := 1, hop := 1, alm := false, opc := 0x0D, tag := 7, payload := [0] }, wTx 0x0D 1 0 [], wLoop .standby (wClosed (some (wTx 0x0D 1 0 []))), by decide +kernel⟩,
   ⟨6, wFrame, { typ := 1, hop := 1, alm := false, opc := 0x0D, tag := 7, payload := [0] }, wLoop .standby (wClosed none), by decide +kernel⟩,
   ⟨3, (wLoop .standby { state := .enum, op := .enumA }), by decide +kernel⟩,
   ⟨3, (wLoop .standby { wClosed none with sweepOpen := true, readDue := true }), by decide +kernel⟩,
   ⟨3, wTx 0x0D 1 0 [], wLoop .standby (wClosed (some (wTx 0x0D 1 0 []))), by decide +kernel⟩,
   ⟨3, { wT 0x0D 0 with sentAt := 59999999 }, (wLoop .standby (wClosed (some { wT 0x0D 0 with sentAt := 59999999 }))), by decide +kernel⟩,
   ⟨3, wT 0x0D 1, wLoop .standby (wClosed (some (wT 0x0D 1))), by decide +kernel⟩,
   ⟨3, wT 0x0D 2, wLoop .standby (wClosed (some (wT 0x0D 2))), by decide +kernel⟩,
   ⟨3, { wB 1 [wResp] with lastEnd := some 59999961 }, 59999961, (wLoop .standby { wClosed (some { wB 1 [wResp] with lastEnd := some 59999961 }) with sweepOpen := true }), by decide +kernel⟩,
   ⟨3, wB 1 [wResp], 59999960, (wLoop .standby { wClosed (some (wB 1 [wResp])) with sweepOpen := true }), by decide +kernel⟩,
   ⟨3, wB 2 [wResp], 59999960, (wLoop .standby { wClosed (some (wB 2 [wResp])) with sweepOpen := true, n := 2 }), by decide +kernel⟩⟩

theorem test_hyps_EnumerationAndDelayMeasurement :
  (∃ (ids : List Word64) (l : LoopS), ids.Nodup ∧
    0 < ids.length ∧
    ids.length ≤ 32 ∧
    l.listA = ids.mapIdx (fun i u => (i + 1, u)) ∧
    l.listB = ids.reverse.mapIdx (fun i u => (i + 1, u)) ∧
    l.arrA = true ∧
    l.arrB = true) ∧
  (∃ (l : LoopS), (∃ x ∈ l.listA, 32 < x.1)) ∧
  (∃ (l : LoopS), l.listA = [] ∧
    l.listB = [] ∧
    l.arrA = false ∧
    l.arrB = false) ∧
  (∃ (k : Str) (s : State), (lp s k).state = .enum ∧
    (lp s k).readBoth = true ∧
    (lp s k).tx = none ∧
    (lp s k).queue.any (fun i => i.rank == 10) = false) ∧
  (∃ (sum : Nat), 64000 ≤ sum) ∧
  (∃ (k : Str) (s : State), awake s = true ∧
    (lp s k).tx = none ∧
    (lp s k).op ≠ .enumDelay ∧
    (lp s k).refresh = true ∧
    sweeps (lp s k) = true ∧
    (lp s k).echoTodo = [] ∧
    (lp s k).echoCmds = []) ∧
  (∃ (k : Str) (s : State), awake s = true ∧
    (lp s k).tx = none ∧
    (lp s k).op = .enumDelay ∧
    (lp s k).readBoth = false ∧
    (lp s k).queue.any (fun i => i.rank == 10) = false) :=
  ⟨⟨[5, 6], wIds {}, by decide +kernel⟩,
   ⟨{ listA := [(33, 5)] }, by decide +kernel⟩,
   ⟨{}, by decide +kernel⟩,
   ⟨3, (wLoop .standby { wIds {} with state := .enum, readBoth := true }), by decide +kernel⟩,
   ⟨64000, by decide +kernel⟩,
   ⟨3, (wLoop .standby { wClosed none with n := 2, refresh := true, echo := [(2, (16, 96000)), (3, (16, 64000))] }), by decide +kernel⟩,
   ⟨3, (wLoop .standby { state := .enum, op := .enumDelay }), by decide +kernel⟩⟩

theorem test_hyps_ChainCommandsAndLocation :
  (∃ (w : Win) (k : Str) (s : State), (Granted s w 0x40000 rMaint ∨ Granted s w 0x40000 rCfg) ∧
    loopOn s k = true ∧
    s.emb.mode ≠ .precharge ∧
    s.emb.mode ≠ .connected ∧
    s.emb.mode ≠ .drowse ∧
    (lp s k).state ≠ .enum) ∧
  (∃ (w : Win) (k : Str) (s : State), Granted s w 0x40000 rCfg ∧
    loopOn s k = true ∧
    (s.emb.mode = .precharge ∨ s.emb.mode = .connected ∨ s.emb.mode = .drowse)) ∧
  (∃ (w : Win) (k : Str) (s : State), (Granted s w 0x40000 rMaint ∨ Granted s w 0x40000 rCfg) ∧
    loopOn s k = true ∧
    (lp s k).state ≠ .enum ∧
    (lp s k).op ≠ .locateA ∧
    (lp s k).op ≠ .locateB ∧
    queued (lp s k) < 16) ∧
  (∃ (w : Win) (k : Str) (s : State), Granted s w 0x40000 rMaint ∧
    loopOn s k = true ∧
    sweeps (lp s k) = true ∧
    (lp s k).refresh = false ∧
    queued (lp s k) < 16) ∧
  (∃ (w : Win) (k : Str) (s : State), Granted s w 0x40000 rMaint ∧
    loopOn s k = true) ∧
  (∃ (k : Str) (s : State), (lp s k).op = .locateB ∧
    (lp s k).readBoth = true ∧
    (lp s k).tx = none) ∧
  (∃ (k : Str) (s : State), 3 ≤ (lp s k).rejoin ∧
    ((lp s k).state = .rerouted ∨ (lp s k).state = .lost)) ∧
  (∃ (k : Str) (s : State), awake s = true ∧
    loopOn s k = true ∧
    rdf s chnLcfg [k] 15 0 ≠ 0 ∧
    (lp s k).lastEcho + 1000000 * rdf s chnLcfg [k] 15 0 ≤ s.now) :=
  ⟨⟨0, 3, wLoop .standby (wClosed none), by decide +kernel⟩,
   ⟨0, 3, wLoop .connected (wClosed none), by decide +kernel⟩,
   ⟨0, 3, wLoop .connected (wClosed none), by decide +kernel⟩,
   ⟨0, 3, wLoop .connected (wClosed none), by decide +kernel⟩,
   ⟨0, 3, wLoop .connected (wClosed none), by decide +kernel⟩,
   ⟨3, (wLoop .standby { wIds {} with n := 2, state := .rerouted, op := .locateB, readBoth := true }), by decide +kernel⟩,
   ⟨3, (wLoop .standby { n := 2, state := .rerouted, rejoin := 3 }), by decide +kernel⟩,
   ⟨3, wLoop .connected (wClosed none), by decide +kernel⟩⟩

theorem test_hyps_SweepsAndOpenWireTests :
  (∃ (k : Str) (s : State), awake s = true ∧
    loopOn s k = true ∧
    sweeps (lp s k) = true ∧
    sweepInstant s k = true ∧
    (lp s k).sweepOpen = false ∧
    (lp s k).tx = none ∧
    (imps s k).armed = false ∧
    owApplied s k = false) ∧
  (∃ (k : Str) (s : State), awake s = true ∧
    loopOn s k = true ∧
    sweeps (lp s k) = true ∧
    sweepInstant s k = true ∧
    (lp s k).sweepOpen = true) ∧
  (∃ (k : Str) (s : State), sweepInstant s k = false) ∧
  (∃ (k : Str) (s : State), awake s = true ∧
    (lp s k).sweepOpen = true ∧
    (lp s k).readDue = false ∧
    (lp s k).t0 + rdf s chnLtim [k] 31 16 ≤ s.now) ∧
  (∃ (k : Str) (s : State), (lp s k).sweepOpen = true ∧
    (lp s k).readDone = true ∧
    (lp s k).tx = none) ∧
  (∃ (w : Win) (k : Str) (p : BitVec 6) (s : State), (Granted s w 0x50000 rMaint ∨ Granted s w 0x50000 rCfg) ∧
    loopOn s k = true ∧
    p.toNat ≤ (lp s k).n) ∧
  (∃ (w : Win) (k : Str) (p : BitVec 6) (s : State), Granted s w 0x50000 rMaint ∧
    (lp s k).n < p.toNat) ∧
  (∃ (k : Str) (s : State), awake s = true ∧
    loopOn s k = true ∧
    rdf s swpOw [k] 11 0 ≠ 0 ∧
    (lp s k).lastOwAll + 60000000 * rdf s swpOw [k] 11 0 ≤ s.now) ∧
  (∃ (k : Str) (p : BitVec 6) (s : State), awake s = true ∧
    p ≠ 0 ∧
    p.toNat ≤ (lp s k).n ∧
    (unitAt (lp s k) p.toNat).susp ≠ 0 ∧
    (unitAt (lp s k) p.toNat).lastTest + 60000000 ≤ s.now ∧
    (lp s k).owState = 0) :=
  ⟨⟨3, wLoop .standby (wClosed none), by decide +kernel⟩,
   ⟨3, wLoop .standby (wOpen (wClosed none)), by decide +kernel⟩,
   ⟨3, { wLoop .standby (wClosed none) with now := 60000001 }, by decide +kernel⟩,
   ⟨3, wLoop .standby (wOpen (wClosed none)), by decide +kernel⟩,
   ⟨3, (wRing 19 (wLoop .standby { wOpen (wClosed none) with readDone := true })), by decide +kernel⟩,
   ⟨0, 3, 1, wLoop .standby (wClosed none), by decide +kernel⟩,
   ⟨0, 3, 2, wLoop .standby (wClosed none), by decide +kernel⟩,
   ⟨3, { wLoop .standby (wClosed none) with now := 3600000000 }, by decide +kernel⟩,
   ⟨3, 1, (wLoop .standby { wClosed none with units := [(1, { susp := 1 })] }), by decide +kernel⟩⟩

theorem test_hyps_BalancingRunsByPeriod :
  (∃ (w : Win) (k : Str) (s : State), (Granted s w 0x50000 rMaint ∨ Granted s w 0x50000 rCfg) ∧
    loopOn s k = true) ∧
  (∃ (w : Win) (k : Str) (s : State), (Granted s w 0x50000 rMaint ∨ Granted s w 0x50000 rCfg) ∧
    loopOn s k = true) ∧
  (∃ (k : Str) (s : State), awake s = true ∧
    loopOn s k = true ∧
    (lp s k).lastBal + 1000000 * rdf s swpBcfg [k] 11 0 ≤ s.now ∧
    balMode s.emb.mode = true ∧
    s.emb.emberAt = none ∧
    balStopped s k = false ∧
    sweeps (lp s k) = true ∧
    queued (lp s k) < 15) ∧
  (∃ (k : Str) (s : State), awake s = true ∧
    loopOn s k = true ∧
    (lp s k).lastBal + 1000000 * rdf s swpBcfg [k] 11 0 ≤ s.now ∧
    s.emb.mode = .drowse ∧
    sweeps (lp s k) = true ∧
    queued (lp s k) < 16) ∧
  (∃ (k : Str) (s : State), awake s = true ∧
    balStopped s k = true ∧
    s.emb.mode ≠ .drowse) :=
  ⟨⟨0, 3, wLoop .standby (wClosed none), by decide +kernel⟩,
   ⟨0, 3, (wLoop .standby { wClosed none with balHalted := true }), by decide +kernel⟩,
   ⟨3, wLoop .standby (wClosed none), by decide +kernel⟩,
   ⟨3, wLoop .drowse (wClosed none), by decide +kernel⟩,
   ⟨3, (wLoop .standby { wClosed none with balHalted := true }), by decide +kernel⟩⟩

theorem test_hyps_CurrentSamplesAndChannelFlags :
  (∃ (s : State), awake s = true ∧
    Engine.bank ∉ s.kln.stopped ∧
    sampleDue s = true) ∧
  (∃ (s : State), sampleDue s = false) ∧
  (∃ (c : Nat) (v : Int × Int), (chanLimit c * 1000 * v.2).natAbs < v.1.natAbs ∧
    0 ≤ v.1) ∧
  (∃ (c : Nat) (v : Int × Int), (chanLimit c * 1000 * v.2).natAbs < v.1.natAbs ∧
    v.1 < 0) ∧
  (∃ (a : Int) (b : Int) (c : Int), a ≤ b ∧
    b ≤ c) ∧
  (∃ (k : Str) (j : Fin 3) (t0 : Nat) (s : State), tget none (mstr s k).devSince j.val = some t0 ∧
    (mstr s k).flag.getLsbD j.val = false ∧
    inUse s (3 * k.val + j.val) = true ∧
    converts s (3 * k.val + j.val) = true ∧
    t0 + 1000 * rdf s meaIvcfg [k] 31 22 ≤ s.now) ∧
  (∃ (k : Str) (j : Fin 3) (t0 : Nat) (s : State), tget none (mstr s k).devSince j.val = some t0 ∧
    s.now < t0 + 1000 * rdf s meaIvcfg [k] 31 22) ∧
  (∃ (k : Str) (j : Fin 3) (t0 : Nat) (s : State), tget none (mstr s k).okSince j.val = some t0 ∧
    (mstr s k).flag.getLsbD j.val = true ∧
    (mstr s k).latch.getLsbD j.val = false ∧
    converts s (3 * k.val + j.val) = true ∧
    t0 + 10000000 ≤ s.now) ∧
  (∃ (k : Str) (j : Fin 3) (s : State), (mstr s k).latch.getLsbD j.val = true) :=
  ⟨⟨wUse, by decide +kernel⟩,
   ⟨{ wUse with mea := { State.reset.mea with sampled := true, sampleAt := 60000000 } }, by decide +kernel⟩,
   ⟨0, (800000001, 1), by decide +kernel⟩,
   ⟨23, (-90000001, 3), by decide +kernel⟩,
   ⟨1, 2, 3, by decide +kernel⟩,
   ⟨3, 2, 0, { wUse with mea := { State.reset.mea with strs := [(3, { devSince := [(2, some 0)] })] } }, by decide +kernel⟩,
   ⟨3, 2, 60000000, { wUse with mea := { State.reset.mea with strs := [(3, { devSince := [(2, some 60000000)] })] } }, by decide +kernel⟩,
   ⟨3, 2, 50000000, { wUse with mea := { State.reset.mea with strs := [(3, { okSince := [(2, some 50000000)], flag := 4 })] } }, by decide +kernel⟩,
   ⟨3, 2, { wUse with mea := { State.reset.mea with strs := [(3, { latch := 4, flag := 4, okSince := [(2, some 0)] })] } }, by decide +kernel⟩⟩

theorem test_hyps_RotationAndInjectedConversions :
  (∃ (s : State), rotPaused s = false ∧
    s.mea.rotRun = false ∧
    s.mea.rotPhase = 0 ∧
    usedChans s ≠ []) ∧
  (∃ (s : State), rotPaused s = false ∧
    s.mea.rotRun = true ∧
    s.mea.rotPhase = 0 ∧
    s.mea.rotAt + 48000 ≤ s.now ∧
    (sliceOf s 24).calibrated = false ∧
    injPending s s.mea.rotCh = false) ∧
  (∃ (s : State), rotPaused s = false ∧
    s.mea.rotRun = true ∧
    s.mea.rotPhase = 0 ∧
    s.mea.rotAt + 48000 ≤ s.now ∧
    (sliceOf s 24).calibrated = false ∧
    injPending s s.mea.rotCh = true) ∧
  (∃ (s : State), rotPaused s = false ∧
    overlapDone s 1 = true) ∧
  (∃ (s : State), rotPaused s = true ∧
    s.mea.rotPhase ≤ 1) ∧
  (∃ (s : State), s.mea.rotRun = true ∧
    s.mea.rotPhase = 2 ∧
    s.mea.rotAt + 200000 ≤ s.now ∧
    (sliceOf s s.mea.rotCh).calibrated = false) ∧
  (∃ (s : State), overlapDone s 3 = true ∧
    rotPaused s = false) ∧
  (∃ (w : Win) (s : State), Granted s w 0x60000 rMaint) ∧
  (∃ (w : Win) (s : State), Granted s w 0x60000 rMaint) ∧
  (∃ (w : Win) (k : Str) (p : BitVec 2) (s : State), Granted s w 0x60000 rMaint ∧
    strOk s k = true ∧
    Engine.bank ∉ s.kln.stopped ∧
    p ≠ 3 ∧
    (mstr s k).waiting.length < 4) ∧
  (∃ (w : Win) (k : Str) (p : BitVec 2) (s : State), Granted s w 0x60000 rMaint ∧
    strOk s k = true ∧
    Engine.bank ∉ s.kln.stopped ∧
    p ≠ 3 ∧
    4 ≤ (mstr s k).waiting.length) ∧
  (∃ (w : Win) (k : Str) (s : State), Granted s w 0x60000 rMaint ∧
    strOk s k = true ∧
    Engine.bank ∉ s.kln.stopped) ∧
  (∃ (k : Str) (r : InjReq) (p : Nat) (q : List (InjReq × Nat)) (s : State), awake s = true ∧
    Engine.bank ∉ s.kln.stopped ∧
    (mstr s k).running = none ∧
    (mstr s k).waiting = (r, p) :: q) ∧
  (∃ (k : Str) (w : Win) (p : Nat) (t0 : Nat) (s : State), awake s = true ∧
    (mstr s k).running = some (.host w, p, t0) ∧
    t0 + 11 ≤ s.now) ∧
  (∃ (k : Str) (s : State), (mstr s k).running = none) :=
  ⟨⟨wRotOn 0 false, by decide +kernel⟩,
   ⟨wRotOn 0 true, by decide +kernel⟩,
   ⟨{ wRotOn 0 true with mea := { (wRotOn 0 true).mea with rotCh := 16, strs := [(0, { waiting := [(.iso, 0)] })] } }, by decide +kernel⟩,
   ⟨{ wRotOn 1 true with mea := { (wRotOn 1 true).mea with ovN := 10, ovSlice := 50, ovSpare := 29, rotCh := 2 } }, by decide +kernel⟩,
   ⟨{ wRotOn 1 true with mea := { (wRotOn 1 true).mea with halted := true } }, by decide +kernel⟩,
   ⟨wRotOn 2 true, by decide +kernel⟩,
   ⟨{ wRotOn 3 true with mea := { (wRotOn 3 true).mea with ovN := 10, ovSlice := 50, ovSpare := 29, rotCh := 2 } }, by decide +kernel⟩,
   ⟨0, wRot 0, by decide +kernel⟩,
   ⟨0, wRot 0, by decide +kernel⟩,
   ⟨2, 3, 2, (wMea .standby fun m => { m with strs := [(3, { waiting := [(.iso, 0), (.logic, 1), (.lanes, 0)] })] }), by decide +kernel⟩,
   ⟨2, 3, 2, (wMea .standby fun m => { m with strs := [(3, { waiting := [(.iso, 0), (.logic, 1), (.lanes, 0), (.lanes, 1)] })] }), by decide +kernel⟩,
   ⟨2, 3, wMea .standby id, by decide +kernel⟩,
   ⟨3, .lanes, 1, [(.host 1, 2)], (wMea .standby fun m => { m with injSaf := 65535, strs := [(3, { waiting := [(.lanes, 1), (.host 1, 2)] })] }), by decide +kernel⟩,
   ⟨3, 2, 0, 59999989, (wMea .standby fun m => { m with strs := [(3, { running := some (.host 2, 0, 59999989) })] }), by decide +kernel⟩,
   ⟨3, wMea .standby id, by decide +kernel⟩⟩

theorem test_hyps_InsulationAndReferences :
  (∃ (w : Win) (k : Str) (s : State), Granted s w 0x60000 rMaint ∧
    strOk s k = true ∧
    Engine.bank ∉ s.kln.stopped ∧
    isoMay s = true) ∧
  (∃ (s : State), s.mea.isoState = 1 ∧
    s.mea.isoSince + 1000000 ≤ s.now ∧
    isoMay s = true ∧
    isoSettled s = true ∧
    (mstr s s.mea.isoStr).running = none) ∧
  (∃ (det : Int) (g : Option (Int × Int)) (s : State), s.mea.isoState = 2 ∧
    s.mea.isoSince + 1000000 ≤ s.now ∧
    isoMay s = true ∧
    isoSettled s = true ∧
    (mstr s s.mea.isoStr).running = none ∧
    det = isoDet s.mea.isoVp1 s.mea.isoVn1 (isoMean (s.mea.isoHist.map (·.1))) (isoMean (s.mea.isoHist.map (·.2))) ∧
    g = isoG s s.mea.isoStr s.mea.isoVp1 s.mea.isoVn1 s.mea.isoU1 (isoMean (s.mea.isoHist.map (·.1))) (isoMean (s.mea.isoHist.map (·.2))) s.mea.isoU) ∧
  (∃ (s : State), (s.mea.isoState = 1 ∨ s.mea.isoState = 2) ∧
    s.mea.isoSince + 10000000 ≤ s.now ∧
    isoSettled s = false ∧
    isoMay s = true ∧
    (mstr s s.mea.isoStr).running = none) ∧
  (∃ (s : State), isoSettled s = false ∧
    s.now < s.mea.isoSince + 10000000) ∧
  (∃ (d : Int) (gp : Int) (gn : Int), d ≤ 0 ∨ gp + gn ≤ 20000) ∧
  (∃ (d : Int) (gp : Int) (gn : Int), 0 < d ∧
    20000 < gp + gn) ∧
  (∃ (s : State), s.now < s.mea.refAt + 1000000) ∧
  (∃ (s : State), awake s = true ∧
    s.mea.refAt + 1000000 ≤ s.now ∧
    s.trc.warming = true) ∧
  (∃ (s : State), awake s = true ∧
    s.mea.refAt + 1000000 ≤ s.now ∧
    s.trc.warming = false) ∧
  (∃ (s : State), awake s = true ∧
    s.mea.refAt + 1000000 ≤ s.now ∧
    s.trc.warming = false) ∧
  (∃ (x : Fin 3) (s : State), s.trc.warming = false ∧
    s.mea.excl = 0 ∧
    600 ≤ refTimer s x) ∧
  (∃ (x : Fin 3) (s : State), s.mea.excl = BitVec.ofNat 3 (2 ^ x.val) ∧
    s.mea.refFail = false ∧
    ((∀ y < 3, y ≠ x.val → 600 ≤ refTimer s y))) :=
  ⟨⟨0, 3, wIso 0, by decide +kernel⟩,
   ⟨wIsoS 1 5 (-5), rfl, by decide +kernel, by decide +kernel, iso_settled _ _ _, by decide +kernel⟩,
   ⟨isoDet 0 0 5 (-5), isoG (wIsoS 2 5 (-5)) 0 0 0 0 5 (-5) 9000, wIsoS 2 5 (-5), rfl, by decide +kernel,
    by decide +kernel, iso_settled _ _ _, by decide +kernel⟩,
   ⟨wIso 2, by decide +kernel⟩,
   ⟨{ wIso 2 with now := 9999999 }, by decide +kernel⟩,
   ⟨5, 20000, 0, by decide +kernel⟩,
   ⟨5, 20000, 1, by decide +kernel⟩,
   ⟨{ wRef false 0 [] with now := 59999999 }, by decide +kernel⟩,
   ⟨(wRef true 0 [(1, 7)]), by decide +kernel⟩,
   ⟨(wRef false 0 [(1, 65535), (2, 3)]), by decide +kernel⟩,
   ⟨wRef false 0 [], by decide +kernel⟩,
   ⟨2, (wRef false 0 [(2, 600)]), by decide +kernel⟩,
   ⟨2, (wRef false 4 [(0, 600), (1, 600)]), by decide +kernel⟩⟩

theorem test_hyps_CalibrationRunsUnderOneOwner :
  (∃ (w : Win) (s : State), Granted s w 0x70000 rCal ∧
    s.emb.mode = .maintenance ∧
    s.trc.warming = false ∧
    s.trc.owner = none) ∧
  (∃ (w : Win) (s : State), Granted s w 0x70000 rCal ∧
    s.trc.owner = none ∧
    (s.emb.mode ≠ .maintenance ∨ s.trc.warming = true)) ∧
  (∃ (w : Win) (o : Win) (s : State), Granted s w 0x70000 rCal ∧
    s.trc.owner = some o ∧
    o ≠ w) ∧
  (∃ (w : Win) (s : State), Granted s w 0x70000 rCal ∧
    s.trc.owner = some w) ∧
  (∃ (t0 : Nat) (s : State), s.trc.warmAt = some t0 ∧
    s.trc.warming = true ∧
    t0 + 1800 * 32768 ≤ s.emb.ticks) ∧
  (∃ (s : State), s.mea.rotDegr = true ∧
    s.trc.calAged = false ∧
    s.mea.rotDegrOph + 720 * 3600 ≤ s.emb.oph.toNat) ∧
  (∃ (w : Win) (e : BitVec 6) (s : State), Granted s w 0x70000 rCal ∧
    s.trc.owner = some w ∧
    s.trc.op = .idle ∧
    e.toNat < 22 ∧
    present s 6 e.toNat = true ∧
    rd s trcJ5s [] ≠ 0 ∧
    j5Range s = (if e.toNat < 12 then 1 else 0)) ∧
  (∃ (w : Win) (e : Nat) (t0 : Nat) (s : State), s.trc.op = .verify e t0 ∧
    s.trc.owner = some w ∧
    awake s = true ∧
    t0 + 1000000 * tInt s ≤ s.now ∧
    tInt s ≤ s.trc.secs.length ∧
    auditFullNow s = false ∧
    j5Full s * s.trc.opN ≤ (sumI (s.trc.secs.map (·.2))).natAbs * 10) ∧
  (∃ (w : Win) (e : Nat) (t0 : Nat) (s : State), s.trc.op = .verify e t0 ∧
    s.trc.owner = some w ∧
    awake s = true ∧
    t0 + 1000000 * tInt s ≤ s.now ∧
    tInt s ≤ s.trc.secs.length ∧
    (sumI (s.trc.secs.map (·.2))).natAbs * 10 < j5Full s * s.trc.opN) ∧
  (∃ (w : Win) (e : Nat) (t0 : Nat) (s : State), s.trc.op = .verify e t0 ∧
    s.trc.owner = some w ∧
    awake s = true ∧
    t0 + 1000000 * tInt s ≤ s.now ∧
    tInt s ≤ s.trc.secs.length ∧
    auditFullNow s = true ∧
    j5Full s * s.trc.opN ≤ (sumI (s.trc.secs.map (·.2))).natAbs * 10) ∧
  (∃ (w : Win) (e : BitVec 6) (x : Verified) (s : State), Granted s w 0x70000 rCal ∧
    s.trc.owner = some w ∧
    s.trc.op = .idle ∧
    e.toNat < 22 ∧
    present s 6 e.toNat = true ∧
    tget none s.trc.verifs e.toNat = some x ∧
    s.trc.second = none ∧
    s.now ≤ x.at_ + 600000000 ∧
    (gcorrNew (calRec s e.toNat).gcorr x.dev).natAbs ≤ 5000000 ∧
    auditFullNow s = false) ∧
  (∃ (w : Win) (e : BitVec 6) (s : State), Granted s w 0x70000 rCal ∧
    s.trc.owner = some w ∧
    s.trc.op = .idle ∧
    e.toNat < 22 ∧
    present s 6 e.toNat = true ∧
    auditFullNow s = false ∧
    ((∀ x, tget none s.trc.verifs e.toNat = some x →
      x.at_ + 600000000 < s.now ∧ (gcorrNew (calRec s e.toNat).gcorr x.dev).natAbs ≤ 5000000))) ∧
  (∃ (w : Win) (e : BitVec 6) (x : Verified) (s : State), Granted s w 0x70000 rCal ∧
    s.trc.owner = some w ∧
    s.trc.op = .idle ∧
    e.toNat < 22 ∧
    present s 6 e.toNat = true ∧
    tget none s.trc.verifs e.toNat = some x ∧
    5000000 < (gcorrNew (calRec s e.toNat).gcorr x.dev).natAbs) ∧
  (∃ (w : Win) (e : BitVec 6) (s : State), Granted s w 0x70000 rCal ∧
    s.trc.owner = some w ∧
    s.trc.op = .idle ∧
    e.toNat < 22 ∧
    present s 6 e.toNat = true ∧
    auditFullNow s = true ∧
    ((∀ x, tget none s.trc.verifs e.toNat = some x → (gcorrNew (calRec s e.toNat).gcorr x.dev).natAbs ≤ 5000000))) ∧
  (∃ (w : Win) (e : BitVec 6) (s : State), Granted s w 0x70000 rCal ∧
    s.trc.owner = some w ∧
    s.trc.op = .idle ∧
    e.toNat < 22 ∧
    present s 6 e.toNat = true ∧
    zeroOpen s e.toNat = true) ∧
  (∃ (w : Win) (e : BitVec 6) (s : State), Granted s w 0x70000 rCal ∧
    s.trc.owner = some w ∧
    e.toNat < 22 ∧
    present s 6 e.toNat = true ∧
    zeroOpen s e.toNat = false) ∧
  (∃ (w : Win) (e : Nat) (t0 : Nat) (s : State), s.trc.op = .zero e t0 ∧
    s.trc.owner = some w ∧
    awake s = true ∧
    t0 + 1000000 * tInt s ≤ s.now ∧
    tInt s ≤ s.trc.secs.length ∧
    auditFullNow s = false ∧
    s.trc.second = none) ∧
  (∃ (w : Win) (e : BitVec 6) (x : Int) (v : Int) (q : Int) (s : State), Granted s w 0x70000 rCal ∧
    s.trc.owner = some w ∧
    s.trc.op = .idle ∧
    24 ≤ e.toNat ∧
    e.toNat ≤ 26 ∧
    j5Range s = 0 ∧
    auditFullNow s = false ∧
    s.trc.second = none ∧
    q = rdiv (((calRec s e.toNat).value : Int) * v) x) ∧
  (∃ (w : Win) (e : BitVec 6) (s : State), Granted s w 0x70000 rCal ∧
    s.trc.owner = some w ∧
    s.trc.op = .idle ∧
    24 ≤ e.toNat ∧
    e.toNat ≤ 26 ∧
    auditFullNow s = false) :=
  ⟨⟨2, wTrc id, by decide +kernel⟩,
   ⟨2, live .maintenance, by decide +kernel⟩,
   ⟨2, 1, (wTrc fun t => { t with owner := some 1 }), by decide +kernel⟩,
   ⟨2, (wCal fun t => { t with op := .zero 3 0 }), by decide +kernel⟩,
   ⟨0, { wTrc (fun t => { t with warming := true, warmAt := some 0 }) with emb := { (live .maintenance).emb with ticks := 1800 * 32768 } }, by decide +kernel⟩,
   ⟨{ wMea .standby (fun m => { m with rotDegr := true }) with emb := { (live .standby).emb with oph := 2592000 } }, by decide +kernel⟩,
   ⟨2, 21, wCal id, by decide +kernel⟩,
   ⟨2, 5, 0, wVer id, by decide +kernel⟩,
   ⟨2, 5, 0, (wVer fun t => { t with secs := List.replicate 10 (30000405, 119999999) }), by decide +kernel⟩,
   ⟨2, 5, 0, wGone (wVer id), by decide +kernel⟩,
   ⟨2, 21, { dev := 950, u := 108, at_ := 100000000 }, wCal (wVd 100000000 950), by decide +kernel⟩,
   ⟨2, 21, wCal id, by decide +kernel⟩,
   ⟨2, 21, { dev := -600000, u := 108, at_ := 100000000 }, wCal (wVd 100000000 (-600000)), by decide +kernel⟩,
   ⟨2, 21, wGone (wCal (wVd 100000000 950)), by decide +kernel⟩,
   ⟨2, 21, wCal id, by decide +kernel⟩,
   ⟨2, 3, { wCal id with saf := { State.reset.saf with sos := [(5, { laneOn := true })] } }, by decide +kernel⟩,
   ⟨2, 21, 0, { wCal (fun t => { t with op := .zero 21 0, opN := 60, secs := List.replicate 60 (-7, 0) }) with now := 60000000 }, by decide +kernel⟩,
   ⟨2, 26, 1000, 1001, (rdiv (((calRec (wCal id) 26).value : Int) * 1001) 1000), wCal id, by decide +kernel⟩,
   ⟨2, 26, { wCal id with mea := { State.reset.mea with excl := 5, refTimer := [(2, 4)] } }, by decide +kernel⟩⟩

theorem test_hyps_ChargeAnchorsAndDisplay :
  (∃ (n : Fin 2048) (full : Bool) (s : State), anchorDue s (n.val / 512) full (cell s n) = true) ∧
  (∃ (n : Fin 2048) (full : Bool) (s : State), anchorDue s (n.val / 512) full (cell s n) = false) ∧
  (∃ (n : Fin 2048) (c : CellS) (s : State), awake s = true ∧
    s.est.lastDisp + 1000000 ≤ s.now ∧
    s.est.cells = [(n.val, c)]) ∧
  (∃ (n : Fin 2048) (s : State), (cell s n).lastCyc + 86400 ≤ s.emb.oph.toNat ∧
    (cell s n).lr.cl ≠ 0) :=
  ⟨⟨2047, true, wEst .standby 2047 wCell, by decide +kernel⟩,
   ⟨2047, false, wEst .standby 2047 {}, by decide +kernel⟩,
   ⟨2047, { wCell with disp := 0, soc := 65536 }, (wEst .standby 2047 { wCell with disp := 0, soc := 65536 }), by decide +kernel⟩,
   ⟨2047, wEst .standby 2047 wCell, by decide +kernel⟩⟩

theorem test_hyps_EstimatorRecordsAndCellCommands :
  (∃ (k : Str) (s : State), awake s = true ∧
    (estr s k).lastWrite + 1000000 ≤ s.now ∧
    nvOpen s = true) ∧
  (∃ (n : Fin 2048) (t0 : Nat) (s : State), (cell s n).dirty = some t0 ∧
    awake s = true ∧
    t0 ≤ s.now + 1000000 ∧
    nvOpen s = true) ∧
  (∃ (k : Str) (s : State), awake s = true ∧
    (estr s k).lastWrite + 1000000 ≤ s.now ∧
    s.emb.holdupOk = false ∧
    boardOk s = true) ∧
  (∃ (s : State), s.est.nvDefer = true ∧
    -368 ≤ s.thm.board ∧
    s.thm.board ≤ 1328) ∧
  (∃ (s : State), s.thm.board < -368 ∨ 1328 < s.thm.board) ∧
  (∃ (w : Win) (n : Fin 2048) (c : CellS) (s : State), (Granted s w 0x80000 rMaint ∨ Granted s w 0x80000 rCfg) ∧
    nvOpen s = true ∧
    s.est.cells = [(n.val, c)] ∧
    c.dirty ≠ none) ∧
  (∃ (w : Win) (a : BitVec 11) (c : BitVec 12) (s : State), Granted s w 0x80000 rMaint ∧
    cellsCheck a.toNat c.toNat s = .ok) ∧
  (∃ (w : Win) (a : BitVec 11) (c : BitVec 12) (s : State), Granted s w 0x80000 rMaint ∧
    cellsCheck a.toNat c.toNat s = .ok) ∧
  (∃ (w : Win) (s : State), Granted s w 0x80000 rMaint ∧
    (∀ k < 4, strOk s k = true) ∧
    (s.emb.mode = .precharge ∨ s.emb.mode = .connected ∨ s.emb.mode = .drowse)) :=
  ⟨⟨3, wEst .standby 2047 wCell, by decide +kernel⟩,
   ⟨2047, 101000000, (wEst .standby 2047 { wCell with dirty := some 101000000 }), by decide +kernel⟩,
   ⟨3, { wEst .standby 2047 wCell with emb := (live .standby).emb }, by decide +kernel⟩,
   ⟨{ live .standby with est := { State.reset.est with nvDefer := true }, thm := { State.reset.thm with board := 1328 } }, by decide +kernel⟩,
   ⟨{ live .standby with est := { State.reset.est with nvDefer := true }, thm := { State.reset.thm with board := 1329 } }, by decide +kernel⟩,
   ⟨0, 2047, { wCell with dirty := some 7 }, (wEst .standby 2047 { wCell with dirty := some 7 }), by decide +kernel⟩,
   ⟨0, 2047, 1, wBillet, by decide +kernel⟩,
   ⟨0, 2046, 2, (wEst .standby 2047 { wCell with lr := { wCell.lr with learnStale := true } }), by decide +kernel⟩,
   ⟨0, live .connected, by decide +kernel⟩⟩

theorem test_hyps_ImpedanceSweepsRun :
  (∃ (w : Win) (k : Str) (p : Nat) (s : State), AsOwner s w 0x90000 ∧
    strOk s k = true ∧
    impMay s = true ∧
    (imps s k).inSweep = false ∧
    (imps s k).tz = false ∧
    genOnConv s k = false ∧
    nextPoint s k 0 = some p ∧
    (lp s k).state = .closed ∧
    derated s k = false ∧
    (mstr s k).invalid = false) ∧
  (∃ (w : Win) (k : Str) (p : Nat) (s : State), AsOwner s w 0x90000 ∧
    strOk s k = true ∧
    impMay s = true ∧
    (imps s k).inSweep = false ∧
    (imps s k).tz = false ∧
    genOnConv s k = false ∧
    nextPoint s k 0 = some p ∧
    (lp s k).state ≠ .closed) ∧
  (∃ (w : Win) (k : Str) (s : State), AsOwner s w 0x90000 ∧
    strOk s k = true ∧
    impMay s = true ∧
    (imps s k).inSweep = true) ∧
  (∃ (w : Win) (k : Str) (s : State), AsOwner s w 0x90000 ∧
    strOk s k = true ∧
    impMay s = false) ∧
  (∃ (w : Win) (k : Str) (s : State), AsOwner s w 0x90000 ∧
    strOk s k = true ∧
    impActive s k = true ∧
    (imps s k).inSweep = true) ∧
  (∃ (w : Win) (k : Str) (s : State), AsOwner s w 0x90000 ∧
    strOk s k = true ∧
    impActive s k = true ∧
    (imps s k).inSweep = false) ∧
  (∃ (w : Win) (k : Str) (s : State), AsOwner s w 0x90000 ∧
    strOk s k = true ∧
    (imps s k).state = 1 ∧
    (imps s k).inSweep = true) ∧
  (∃ (w : Win) (k : Str) (s : State), AsOwner s w 0x90000 ∧
    strOk s k = true) ∧
  (∃ (w : Win) (k : Str) (s : State), AsOwner s w 0x90000 ∧
    strOk s k = true ∧
    impMay s = true ∧
    (imps s k).tz = false ∧
    (imps s k).tzDue = false ∧
    genOnConv s k = false) ∧
  (∃ (k : Str) (p : Nat) (s : State), awake s = true ∧
    rdf s impTim [k] 15 0 ≠ 0 ∧
    (imps s k).inSweep = false ∧
    (imps s k).tz = false ∧
    impMay s = true ∧
    (lp s k).state = .closed ∧
    genOnConv s k = false ∧
    derated s k = false ∧
    (mstr s k).invalid = false ∧
    (imps s k).lastEnd + rdf s impTim [k] 15 0 * 3600000000 ≤ s.now ∧
    nextPoint s k 0 = some p) ∧
  (∃ (s : State), impMay s = false) ∧
  (∃ (k : Str) (s : State), awake s = true ∧
    rdf s impTz [k] 31 20 ≠ 0 ∧
    impMay s = true ∧
    (lp s k).state = .closed ∧
    owWaiting s k = false ∧
    genOnConv s k = false ∧
    (imps s k).tz = false ∧
    (imps s k).lastTz + rdf s impTz [k] 31 20 * 1000000 ≤ s.now) ∧
  (∃ (k : Str) (s : State), awake s = true ∧
    (imps s k).state = 2 ∧
    impClear s k = true) ∧
  (∃ (k : Str) (s : State), awake s = true ∧
    (imps s k).state = 3 ∧
    owWaiting s k = false) ∧
  (∃ (k : Str) (s : State), (imps s k).state = 2 ∧
    impClear s k = false) ∧
  (∃ (k : Str) (s : State), awake s = true ∧
    (imps s k).state = 2 ∧
    (imps s k).pausedAt + 1000000 * rdf s impDsp [k] 31 16 ≤ s.now) ∧
  (∃ (n : Fin 2048) (s : State), tget 0 s.imp.dirty n.val ≠ 0 ∧
    awake s = true ∧
    (imps s (n.val / 512)).inSweep = false ∧
    nvOpen s = true) ∧
  (∃ (n : Fin 2048) (s : State), nvOpen s = false ∧
    boardOk s = false ∧
    tget 0 s.imp.dirty n.val ≠ 0 ∧
    awake s = true ∧
    (imps s (n.val / 512)).inSweep = false) :=
  ⟨⟨0, 3, 0, wImp .connected {}, by decide +kernel⟩,
   ⟨0, 3, 0, { wImp .connected {} with chn := { State.reset.chn with loops := [(3, { state := .lost, n := 1 })] } }, by decide +kernel⟩,
   ⟨0, 3, (wImp .connected { state := 2, inSweep := true }), by decide +kernel⟩,
   ⟨0, 3, (wImp .standby { state := 2 }), by decide +kernel⟩,
   ⟨0, 3, (wImp .connected { state := 2, inSweep := true }), by decide +kernel⟩,
   ⟨0, 3, (wImp .connected { state := 4, tz := true }), by decide +kernel⟩,
   ⟨0, 3, (wImp .connected { state := 1, inSweep := true }), by decide +kernel⟩,
   ⟨0, 3, (wImp .connected { state := 2, inSweep := true, hostPause := true }), by decide +kernel⟩,
   ⟨0, 3, wImp .connected {}, by decide +kernel⟩,
   ⟨3, 0, wImp .connected {}, by decide +kernel⟩,
   ⟨wImp .standby {}, by decide +kernel⟩,
   ⟨3, wImp .connected {}, by decide +kernel⟩,
   ⟨3, (wImp .connected { state := 2, why := 1 }), by decide +kernel⟩,
   ⟨3, (wImp .connected { state := 3 }), by decide +kernel⟩,
   ⟨3, (wImp .standby { state := 2 }), by decide +kernel⟩,
   ⟨3, (wImp .connected { state := 2 }), by decide +kernel⟩,
   ⟨2047, { wImp .connected {} with imp := { State.reset.imp with dirty := [(2047, 1)] } }, by decide +kernel⟩,
   ⟨2047, { wImp .connected {} with imp := { State.reset.imp with dirty := [(2047, 1)] }, thm := { State.reset.thm with board := 2000 } }, by decide +kernel⟩⟩

theorem test_hyps_ContextsBanksAndInternalFaults :
  (∃ (n : Fin 64) (raw : List Int) (t0 : Nat) (sp : Int) (fb : Int) (ff : Int) (s : State), awake s = true ∧
    s.emb.mode ≠ .drowse ∧
    ctxDue s n = some t0 ∧
    ctxBehind s n t0 = false ∧
    isTwo s n = false ∧
    convWith s n = none ∧
    (ctx s n).swapPend = false ∧
    s.shadow = [] ∧
    sources (controlSample raw s) n = (sp, fb, ff) ∧
    sp ≠ invWord ∧
    fb ≠ invWord ∧
    ff ≠ invWord ∧
    (∀ g < 4, rdf s ctlGcfg [g] 21 16 ≠ n.val)) ∧
  (∃ (b : Bank), b.oMin ≤ b.oMax ∧
    b.iMin ≤ b.iMax) ∧
  (∃ (n : Fin 64) (raw : List Int) (t0 : Nat) (s : State) (u : State), awake s = true ∧
    s.emb.mode ≠ .drowse ∧
    ctxDue s n = some t0 ∧
    ctxBehind s n t0 = false ∧
    convWith s n = none ∧
    (ctx s n).swapPend = false ∧
    s.shadow = [] ∧
    u = controlSample raw s ∧
    ((sources u n).1 = invWord ∨ (sources u n).2.1 = invWord ∨ (sources u n).2.2 = invWord)) ∧
  (∃ (n : Fin 64) (t0 : Nat) (k : Nat) (s : State), awake s = true ∧
    s.emb.mode ≠ .drowse ∧
    ctxDue s n = some t0 ∧
    ctxBehind s n t0 = false ∧
    convWith s n = some k ∧
    (conv s k).state = 0 ∧
    (ctx s n).swapPend = false ∧
    s.shadow = []) ∧
  (∃ (n : Fin 64) (s : State), ctxDue s n = none) ∧
  (∃ (j : Fin 16) (t0 : Nat) (d : Nat) (s : State), awake s = true ∧
    s.emb.mode ≠ .drowse ∧
    present s 11 j = true ∧
    periodStart s j (hrpTime s) = some t0 ∧
    (∀ u ∈ (pwm s j).startAt, u < t0) ∧
    s.shadow = [] ∧
    rdf s hrpCfg [j] 29 28 = 0 ∧
    rdf s hrpCfg [j] 13 8 ≠ 63 ∧
    (ctx s (rdf s hrpCfg [j] 13 8)).runs ≠ (pwm s j).seen ∧
    (ctx s (rdf s hrpCfg [j] 13 8)).doneAt < s.now ∧
    d = (clampI 0 (2 ^ 31 - 1) (ctx s (rdf s hrpCfg [j] 13 8)).y).toNat) ∧
  (∃ (j : Fin 16) (t0 : Nat) (s : State), awake s = true ∧
    s.emb.mode ≠ .drowse ∧
    present s 11 j = true ∧
    periodStart s j (hrpTime s) = some t0 ∧
    (∀ u ∈ (pwm s j).startAt, u < t0) ∧
    s.shadow = [] ∧
    rdf s hrpCfg [j] 29 28 = 0 ∧
    rdf s hrpCfg [j] 13 8 = 63) ∧
  (∃ (j : Fin 16) (t0 : Nat) (fired : Bool) (s : State), awake s = true ∧
    s.emb.mode ≠ .drowse ∧
    present s 11 j = true ∧
    periodStart s j (hrpTime s) = some t0 ∧
    (∀ u ∈ (pwm s j).startAt, u < t0) ∧
    s.shadow = [] ∧
    rdf s hrpCfg [j] 29 28 = 0 ∧
    rdf s hrpCfg [j] 13 8 ≠ 63 ∧
    ((ctx s (rdf s hrpCfg [j] 13 8)).runs = (pwm s j).seen ∨ s.now ≤ (ctx s (rdf s hrpCfg [j] 13 8)).doneAt) ∧
    fired = ((pwm s j).startAt.any fun v => (timerFire s (rdf s hrpCfg [j] 13 8) (t0 - 1)).any fun u => decide (v ≤ u))) ∧
  (∃ (j : Fin 16) (t0 : Nat) (s : State), awake s = true ∧
    s.emb.mode ≠ .drowse ∧
    present s 11 j = true ∧
    periodStart s j (hrpTime s) = some t0 ∧
    (∀ u ∈ (pwm s j).startAt, u < t0) ∧
    s.shadow = [] ∧
    rdf s hrpCfg [j] 29 28 ≠ 0) ∧
  (∃ (s : State), leaseValid s = false ∨ s.emb.pfail = true) ∧
  (∃ (w : Win) (n : Fin 64) (b : Fin 2) (i : Fin 16) (s : State), Granted s w (ctlBank.addr [n, b, i]) rCfg ∧
    activeBank s n ≠ b.val ∧
    i.val < 10 ∧
    i.val ≠ 5) ∧
  (∃ (w : Win) (n : Fin 64) (b : Fin 2) (i : Fin 16) (s : State), Granted s w (ctlBank.addr [n, b, i]) rCfg ∧
    activeBank s n = b.val) ∧
  (∃ (w : Win) (s : State), Granted s w 0xA0014 rMaint) ∧
  (∃ (w : Win) (s : State), Granted s w 0xA0000 rMaint) ∧
  (∃ (s : State), awake s = true) :=
  ⟨⟨63, [], due wCtl5 63, 1000, 1000, 0, wCtl5, by decide +kernel⟩,
   ⟨{ c := fun _ => 1, sh := fun _ => 0, oMin := -5, oMax := 5, iMin := -3, iMax := 3 }, by decide +kernel⟩,
   ⟨0, [], due wCtlInv 0, wCtlInv, controlSample [] wCtlInv, by decide +kernel⟩,
   ⟨10, due wCtlPk 10, 0, wCtlPk, by decide +kernel⟩,
   ⟨63, wCtl .connected {}, by decide +kernel⟩,
   ⟨15, (per (wPwm 0 { y := 2 ^ 30, runs := 5, doneAt := 999999 } {}) 15), 2 ^ 30, (wPwm 0 { y := 2 ^ 30, runs := 5, doneAt := 999999 } {}), by decide +kernel⟩,
   ⟨15, per (wPwm (place 60 13 8) {} {}) 15, wPwm (place 60 13 8) {} {}, by decide +kernel⟩,
   ⟨15, (per (wPwm 0 { runs := 5, doneAt := 1000000 } { startAt := some 0 }) 15), true, (wPwm 0 { runs := 5, doneAt := 1000000 } { startAt := some 0 }), by decide +kernel⟩,
   ⟨15, per (wPwm (place 1 29 28 + place 14 19 16) {} {}) 15, wPwm (place 1 29 28 + place 14 19 16) {} {}, by decide +kernel⟩,
   ⟨{ wCtl .connected {} with emb := { (live .connected).emb with pfail := true } }, by decide +kernel⟩,
   ⟨0, 63, 1, 9, wCtl .connected {}, by decide +kernel⟩,
   ⟨0, 63, 0, 15, wCtl .connected {}, by decide +kernel⟩,
   ⟨0, { wCtl .connected {} with shadow := [(ctlLcfg.addr [63], some 1)] }, by decide +kernel⟩,
   ⟨0, { wCtl .connected { ctxs := [(3, { late := 4, maxLat := 9 })] } with hrp := [(14, { late := 77 })] }, by decide +kernel⟩,
   ⟨{ wCtl .connected { convs := [(3, { state := 2, r := 5, causes := 0 })], gens := [(0, { state := 1 })] } [cvOnReg 3] with hrp := [(14, { held := false })] }, by decide +kernel⟩⟩

theorem test_hyps_ConvertersRunParkAndTakeSetpoints :
  (∃ (w : Win) (k : Str) (s : State), Granted s w 0xA0000 rMaint ∧
    convOn s k = true ∧
    s.emb.mode = .maintenance ∧
    (conv s k).causes &&& ~~~ 0x29#8 = 0 ∧
    (conv s k).state = 0) ∧
  (∃ (w : Win) (k : Str) (s : State), Granted s w 0xA0000 rMaint ∧
    convOn s k = true ∧
    s.emb.mode = .maintenance ∧
    (conv s k).causes.getLsbD 4 = true) ∧
  (∃ (w : Win) (k : Str) (s : State), Granted s w 0xA0000 rMaint ∧
    convOn s k = true ∧
    s.emb.mode ≠ .maintenance) ∧
  (∃ (w : Win) (k : Str) (s : State), Granted s w 0xA0000 rMaint ∧
    convOn s k = true ∧
    s.emb.mode = .maintenance ∧
    (conv s k).state ≠ 0 ∧
    (conv s k).started = true) ∧
  (∃ (w : Win) (k : Str) (s : State), Granted s w 0xA0000 rMaint ∧
    convOn s k = true ∧
    s.emb.mode = .maintenance ∧
    (conv s k).state ≠ 0 ∧
    (conv s k).state ≠ 4 ∧
    (conv s k).started = false) ∧
  (∃ (k : Str) (s : State), awake s = true ∧
    strOk s k = true ∧
    s.emb.mode = .connected ∧
    convOn s k = true ∧
    (conv s k).state = 0 ∧
    (conv s k).causes &&& 0x06#8 ≠ 0 ∧
    (conv s k).causes &&& ~~~ 0x06#8 = 0 ∧
    validFor s k 100000 = true ∧
    leaseValid s = true) ∧
  (∃ (s : State), s.emb.mode ≠ .connected) ∧
  (∃ (w : Win) (k : Str) (v : Word) (s : State), AsOwner s w (ctlDsp.addr [k]) ∧
    present s 10 k = true ∧
    ctlDsp.check s [k] v.toNat = .ok ∧
    s.emb.mode ≠ .drowse) ∧
  (∃ (w : Win) (k : Str) (v : Word) (s : State), AsOwner s w (ctlDsp.addr [k]) ∧
    present s 10 k = true ∧
    ctlDsp.check s [k] v.toNat = .ok ∧
    s.emb.mode = .drowse ∧
    (∀ r ∈ s.emb.reqs, r.target ≠ .connected)) ∧
  (∃ (w : Win) (k : Str) (s : State), AsOwner s w (ctlDsp.addr [k]) ∧
    present s 10 k = false) ∧
  (∃ (w : Win) (k : Str) (f : BitVec 2) (s : State), AsOwner s w (ctlCvmode.addr [k]) ∧
    present s 10 k = false ∧
    f ≠ 1) ∧
  (∃ (w : Win) (k : Str) (v : Word) (s : State), AsOwner s w (ctlDsp.addr [k]) ∧
    present s 10 k = true ∧
    ctlDsp.check s [k] v.toNat = .range) ∧
  (∃ (w : Win) (k : Str) (s : State), AsOwner s w (ctlCvmode.addr [k]) ∧
    present s 10 k = true ∧
    rdf s ctlCvmode [k] 31 30 ≠ 2) ∧
  (∃ (w : Win) (k : Str) (s : State), Granted s w (ctlCvmode.addr [k]) rMaint ∧
    present s 10 k = true ∧
    s.emb.mode ≠ .maintenance) :=
  ⟨⟨0, 3, cvS {} .maintenance, by decide +kernel⟩,
   ⟨0, 3, (cvS { causes := 0x11 } .maintenance), by decide +kernel⟩,
   ⟨0, 3, cvS {} .connected, by decide +kernel⟩,
   ⟨0, 3, (cvS { state := 2, started := true, causes := 0, r := 9 } .maintenance), by decide +kernel⟩,
   ⟨0, 3, (cvS { state := 1, causes := 0 } .maintenance), by decide +kernel⟩,
   ⟨3, { cvS { causes := 0x06 } .connected with mea := { State.reset.mea with strs := [(3, { invalid := false, validSince := some 900000 })] } }, by decide +kernel⟩,
   ⟨cvS {} .standby, by decide +kernel⟩,
   ⟨0, 3, 0xFFEDB080, cvS {} .connected, by decide +kernel⟩,
   ⟨0, 3, 0xFFEDB080, cvS {} .drowse, by decide +kernel⟩,
   ⟨0, 3, { cvS {} .connected with variant := .s2 }, by decide +kernel⟩,
   ⟨0, 3, 0, { cvS {} .connected with variant := .s2 }, by decide +kernel⟩,
   ⟨0, 3, 0xFFEDB07F, cvS {} .connected, by decide +kernel⟩,
   ⟨0, 3, cvS {} .connected, by decide +kernel⟩,
   ⟨0, 3, cvS {} .connected, by decide +kernel⟩⟩

theorem test_hyps_GeneratorsAndCaptureChannels :
  (∃ (w : Win) (g : Fin 4) (s : State), Granted s w 0xA0000 rMaint ∧
    present s 33 g = true ∧
    s.emb.mode = .maintenance ∧
    (gen s g).state ≠ 1 ∧
    (rdf s ctlGcfg [g] 31 30 ≠ 2 ∨ rd s ctlGdur [g] ≠ 0) ∧
    ((∀ h < 4, h ≠ g.val → (gen s h).state = 1 → rdf s ctlGcfg [h] 21 16 = rdf s ctlGcfg [g] 21 16 →
      rdf s ctlGcfg [h] 29 28 ≠ rdf s ctlGcfg [g] 29 28)) ∧
    ((∀ k, convWith s (rdf s ctlGcfg [g] 21 16) = some k → impActive s k = false))) ∧
  (∃ (w : Win) (g : Fin 4) (s : State), Granted s w 0xA0000 rMaint ∧
    present s 33 g = true ∧
    s.emb.mode = .maintenance ∧
    (gen s g).state = 1 ∧
    rdf s ctlGcfg [g] 31 30 ≠ 2) ∧
  (∃ (w : Win) (g : Fin 4) (s : State), Granted s w 0xA0000 rMaint ∧
    present s 33 g = true ∧
    (gen s g).state = 1) ∧
  (∃ (g : Fin 4) (s : State), (gen s g).state = 1 ∧
    rd s ctlGdur [g] ≠ 0 ∧
    rd s ctlGdur [g] ≤ (gen s g).cnt) ∧
  (∃ (w : Win) (c : Fin 4) (s : State), Granted s w 0xA0000 rMaint ∧
    present s 34 c = true ∧
    (cap s c).state ≠ 1 ∧
    (cap s c).state ≠ 2 ∧
    ((∀ d < 4, d = c.val ∨ (c.val = 0 ∧ capMaster s d = 0) → capMaster s d = d ∨ capMatches s d = true)) ∧
    rdf s ctlCtrg [capMaster s c] 31 28 ≠ 3) ∧
  (∃ (w : Win) (c : Fin 4) (late : Int) (s : State), Granted s w 0xA0000 rMaint ∧
    present s 34 c = true ∧
    (cap s c).state ≠ 1 ∧
    (cap s c).state ≠ 2 ∧
    capMaster s c = c.val ∧
    ((∀ d < 4, d ≠ 0 → capMaster s d = d)) ∧
    rdf s ctlCtrg [c] 31 28 = 3 ∧
    (s.tim.now - BitVec.ofNat 64 (rd s ctlCtt [c, 0] + rd s ctlCtt [c, 1] * 2 ^ 32)).toInt = late) ∧
  (∃ (w : Win) (c : Fin 4) (s : State), Granted s w 0xA0000 rMaint ∧
    present s 34 c = true ∧
    ((cap s c).state = 1 ∨ (cap s c).state = 2)) ∧
  (∃ (w : Win) (c : Fin 4) (s : State), Granted s w 0xA0000 rMaint ∧
    present s 34 c = true ∧
    (cap s c).state = 1) ∧
  (∃ (w : Win) (g : Fin 4) (s : State), Granted s w 0xA0000 rMaint ∧
    present s 33 g = false) ∧
  (∃ (w : Win) (c : Fin 4) (s : State), Granted s w 0xA0000 rMaint ∧
    present s 34 c = false) :=
  ⟨⟨0, 3, (gnS [(3, { state := 3 })] 0), by decide +kernel⟩,
   ⟨0, 3, (gnS [(3, { state := 1 })] 0), by decide +kernel⟩,
   ⟨0, 3, (gnS [(3, { state := 1, value := 8 })] 0), by decide +kernel⟩,
   ⟨3, (gnS [(3, { state := 1, cnt := 5 })] 5), by decide +kernel⟩,
   ⟨0, 0, (cpS { caps := [(2, { state := 3 })] } [(ctlCcfg.addr [2], wd (2^30 + 1))]), by decide +kernel⟩,
   ⟨0, 3, 10000000, { cpS {} [(ctlCtrg.addr [3], wd (place 3 31 28))] with tim := { State.reset.tim with now := 10000000 } }, by decide +kernel⟩,
   ⟨0, 0, (cpS { caps := [(0, { state := 2 }), (2, { state := 1 })] } [(ctlCcfg.addr [2], wd (2^30 + 1))]), by decide +kernel⟩,
   ⟨0, 3, (cpS { caps := [(3, { state := 1 })] } []), by decide +kernel⟩,
   ⟨0, 3, { cpS {} [] with crd := { State.reset.crd with content := some { fullContent with disabled := [(33, 3), (34, 3)] } } }, by decide +kernel⟩,
   ⟨0, 3, { cpS {} [] with crd := { State.reset.crd with content := some { fullContent with disabled := [(33, 3), (34, 3)] } } }, by decide +kernel⟩⟩

theorem test_hyps_ThermalLevelsAndRates :
  (∃ (k : Str) (s : State), awake s = true ∧
    Engine.thermal ∉ s.kln.stopped ∧
    thermalDue s = true ∧
    s.shadow = [] ∧
    strOk s k = true) ∧
  (∃ (s : State), thermalDue s = false) ∧
  (∃ (s : State), awake s = true ∧
    s.thm.fast = true ∧
    s.thm.lastNear + 10000000 ≤ s.now) ∧
  (∃ (s : State), s.now < s.thm.lastNear + 10000000) ∧
  (∃ (k : Str) (p : Nat) (s : State), awake s = true ∧
    Engine.thermal ∉ s.kln.stopped ∧
    strOk s k = true ∧
    gridDue s.thm.ratedAt 1000000 s.now = true ∧
    (∀ j < 4, (lp s j).n ≤ 32) ∧
    1 ≤ p ∧
    p ≤ (lp s k).n) ∧
  (∃ (s : State), gridDue s.thm.ratedAt 1000000 s.now = false) ∧
  (∃ (x : Int) (y : Int) (h : ThmSrc), h.hist[29]? = some y ∧
    y ≠ noTemp ∧
    x ≠ noTemp) ∧
  (∃ (t0 : Nat) (s : State), awake s = true ∧
    s.thm.riseQuiet = some t0 ∧
    s.thm.riseLatch = true ∧
    t0 + 1000000 * rdf s thmRclr [] 31 16 ≤ s.now) ∧
  (∃ (t0 : Nat) (s : State), s.thm.riseQuiet = some t0 ∧
    s.now < t0 + 1000000 * rdf s thmRclr [] 31 16) ∧
  (∃ (t0 : Nat) (s : State), awake s = true ∧
    s.thm.recovAt = some t0 ∧
    t0 + recovUs s ≤ s.now) ∧
  (∃ (t0 : Nat) (s : State), s.thm.recovAt = some t0 ∧
    s.now < t0 + recovUs s) ∧
  (∃ (s : State), awake s = true ∧
    bitN (rd s thmCan []) 31 = true ∧
    canEn s 0 = true ∧
    Engine.thermal ∉ s.kln.stopped ∧
    (mbx s 0 15).st ≠ 2 ∧
    s.thm.lastCan + 100000 * rdf s thmCan [] 9 0 ≤ s.now) :=
  ⟨⟨3, cv (wThm .standby {} [thIn]), by decide +kernel⟩,
   ⟨(wThm .connected { sampledAt := some 100000000 }), by decide +kernel⟩,
   ⟨(wThm .connected { fast := true, lastNear := 90000000 }), by decide +kernel⟩,
   ⟨(wThm .connected { fast := true, lastNear := 90000001 }), by decide +kernel⟩,
   ⟨3, 1, wThR (List.replicate 121 0), by decide +kernel⟩,
   ⟨(wThm .connected { ratedAt := some 100000000 }), by decide +kernel⟩,
   ⟨8, 1, { hist := List.replicate 30 1, tripRun := 3 }, by decide +kernel⟩,
   ⟨1, (wThm .connected { riseQuiet := some 1, riseLatch := true, strs := [(3, { riseTrip := true })] } [(thmRclr.addr [], wd (1 * 2 ^ 16))]), by decide +kernel⟩,
   ⟨100000000, (wThm .connected { riseQuiet := some 100000000, riseLatch := true, strs := [(3, { riseTrip := true })] } [(thmRclr.addr [], wd (1 * 2 ^ 16))]), by decide +kernel⟩,
   ⟨1, (wThm .connected { recovAt := some 1 } [(thmRclr.addr [], wd 1)]), by decide +kernel⟩,
   ⟨100000000, (wThm .connected { recovAt := some 100000000 } [(thmRclr.addr [], wd 1)]), by decide +kernel⟩,
   ⟨(wThm .connected {} [(thmCan.addr [], wd (2^31 + 2^30 + 10)), (thmCanid.addr [], 0x1234567), (canCfg.addr [0], wd (2^31))]), by decide +kernel⟩⟩

theorem test_hyps_SafetyCycleVotesAndReacts :
  (∃ (i : LaneInputs) (a : Nat) (s : State), s.emb.power = .on ∧
    (∀ n < 3, (lane s n).state ≠ 0) ∧
    cycleDue s = true ∧
    ((∀ n < 3, n ≠ a → flipOf i n = (0, 0)))) ∧
  (∃ (s : State), cycleDue s = false) ∧
  (∃ (s : State), s.emb.power = .on ∧
    s.saf.lastCycle + 1000 ≤ s.now) ∧
  (∃ (s : State), s.now < s.saf.lastCycle + 1000) :=
  ⟨⟨li, 0, (wSaf .connected { selftest := true, sos := [(0, { req := true }), (1, { req := true }), (3, { req := true })], cts := [(0, { pstate := 3, met := true })], sis := (List.range 8).map fun n => (n, { a := true, b := true }) }), by decide +kernel⟩,
   ⟨(wSaf .connected { cycleAt := some 99999751 }), by decide +kernel⟩,
   ⟨(wSaf .connected { lastCycle := 99999000, sos := [(3, { laneOn := true })] }), by decide +kernel⟩,
   ⟨(wSaf .connected { lastCycle := 99999001 }), by decide +kernel⟩⟩

theorem test_hyps_LanesInputsAndSafeConnections :
  (∃ (s : State), s.emb.power = .on ∧
    (∃ i : Fin 3, (lane s i).state = 0)) ∧
  (∃ (h : Nat) (s : State), s.emb.power = .on ∧
    s.saf.degrOph = some h ∧
    h + 3600 * (safB s).laneDegMaxH ≤ s.emb.oph.toNat) ∧
  (∃ (h : Nat) (s : State), s.saf.degrOph = some h ∧
    s.emb.oph.toNat < h + 3600 * (safB s).laneDegMaxH) ∧
  (∃ (k : Str) (p : BitVec 6) (s : State), s.emb.power = .on ∧
    p ≠ 0 ∧
    p.toNat ≤ (loopOf s k).snum ∧
    (summ s k p.toNat).lost = false ∧
    (summ s k p.toNat).last + 1000 * (safB s).sumTmo < s.now) ∧
  (∃ (k : Str) (p : BitVec 6) (s : State), s.now ≤ (summ s k p.toNat).last + 1000 * (safB s).sumTmo) ∧
  (∃ (b : Bool) (n : Nat) (s : State), s.emb.power = .on ∧
    pulseEnds s b = true ∧
    n < (safB s).inputs.length ∧
    n < 8 ∧
    (inOf s n).tested = true) ∧
  (∃ (b : Bool) (s : State), pulseEnds s b = false) ∧
  (∃ (t0 : Nat) (s : State), s.emb.power = .on ∧
    s.saf.supLowSince = some t0 ∧
    t0 + 2000 ≤ s.now) ∧
  (∃ (t0 : Nat) (s : State), s.saf.supLowSince = some t0 ∧
    s.now < t0 + 2000) ∧
  (∃ (c : Fin 16) (s : State), (connOf s c).dir = 2 ∧
    awake s = true ∧
    ((sconn s c).sent = false ∨ (sconn s c).last + 1000 * (connOf s c).pPer ≤ s.now)) ∧
  (∃ (c : Fin 16) (s : State), (sconn s c).sent = true ∧
    s.now < (sconn s c).last + 1000 * (connOf s c).pPer) ∧
  (∃ (c : Fin 16) (bs : List Byte) (s : State), (connOf s c).dir = 1 ∧
    awake s = true ∧
    (bs.length ≠ 6 + (connOf s c).dlen ∨ getLe bs (2 + (connOf s c).dlen) 4 ≠ safeCrc s c (bs.take (2 + (connOf s c).dlen)))) ∧
  (∃ (c : Fin 16) (bs : List Byte) (q : Nat) (s : State), (connOf s c).dir = 1 ∧
    awake s = true ∧
    bs.length = 6 + (connOf s c).dlen ∧
    getLe bs (2 + (connOf s c).dlen) 4 = safeCrc s c (bs.take (2 + (connOf s c).dlen)) ∧
    getLe bs 0 2 = q) ∧
  (∃ (c : Fin 16) (s : State), s.emb.power = .on ∧
    (sconn s c).state = 3 ∧
    (sconn s c).last + 1000 * (connOf s c).wd ≤ s.now) ∧
  (∃ (c : Fin 16) (s : State), s.now < (sconn s c).last + 1000 * (connOf s c).wd) :=
  ⟨⟨(wSaf .standby { lanes := [(0, { billet := bil }), (1, { billet := bil })] }), by decide +kernel⟩,
   ⟨0, { wSaf .connected { degrOph := some 0 } with emb := { (live .connected).emb with oph := 72 * 3600 } }, by decide +kernel⟩,
   ⟨1, { wSaf .connected { degrOph := some 1 } with emb := { (live .connected).emb with oph := 72 * 3600 } }, by decide +kernel⟩,
   ⟨0, 63, wSaf .connected {}, by decide +kernel⟩,
   ⟨0, 63, (wSaf .connected { summ := [(62, { last := 99900000 })] }), by decide +kernel⟩,
   ⟨true, 7, (wSaf .connected { tsA := some 99995000, sis := [(7, { tpRunB := 1 })] }), by decide +kernel⟩,
   ⟨true, (wSaf .connected { tsB := some 99990001 }), by decide +kernel⟩,
   ⟨99998000, (wSaf .connected { supLowSince := some 99998000 }), by decide +kernel⟩,
   ⟨99998001, (wSaf .connected { supLowSince := some 99998001 }), by decide +kernel⟩,
   ⟨1, wSaf .connected {}, by decide +kernel⟩,
   ⟨1, (wSaf .connected { conns := [(1, { sent := true, seq := 65535, last := 99980001 })] }), by decide +kernel⟩,
   ⟨0, [1, 2, 3], wCon 3, by decide +kernel⟩,
   ⟨0, frm 32766, 32766, wCon 2, by decide +kernel⟩,
   ⟨0, wCon 3, by decide +kernel⟩,
   ⟨0, { wCon 3 with now := 0 }, by decide +kernel⟩⟩

theorem test_hyps_OutputsArePulsedAndContactorsSequenced :
  (∃ (j : Fin 16) (s : State), PulseDue s j ∧
    (∀ i < j, ¬ PulseDue s i) ∧
    (∀ i < 16, (sout s i).pulsing = none) ∧
    s.saf.cycle % 8 = 0 ∧
    s.saf.slotAt + 2000 ≤ s.now) ∧
  (∃ (rb : BitVec 16) (j : Fin 16) (t0 : Nat) (s : State), pulsed s = some (j.val, t0) ∧
    t0 + (safB s).tpW ≤ s.now + 50 ∧
    rb.getLsbD j = true ∧
    (∀ i < 16, (sout s i).flt ≠ 3) ∧
    (sout s j).flt ≠ 1) ∧
  (∃ (rb : BitVec 16) (j : Fin 16) (t0 : Nat) (s : State), pulsed s = some (j.val, t0) ∧
    t0 + (safB s).tpW ≤ s.now + 50 ∧
    rb.getLsbD j = false ∧
    (∀ i < 16, (sout s i).flt ≠ 3)) ∧
  (∃ (rb : BitVec 16) (i : Fin 16) (j : Fin 16) (t0 : Nat) (s : State), pulsed s = some (j.val, t0) ∧
    t0 + (safB s).tpW ≤ s.now + 50 ∧
    rb.getLsbD j = false ∧
    rb.getLsbD i = false ∧
    i ≠ j ∧
    (sout s i).flt = 3 ∧
    j.val ∈ (sout s i).highLeft ∧
    (outOf s i).parallel = false ∧
    (outOf s j).parallel = false) ∧
  (∃ (j : Nat) (t0 : Nat) (s : State), pulsed s = some (j, t0) ∧
    t0 + (safB s).tpW ≤ s.now) ∧
  (∃ (w : Win) (s : State), Granted s w 0xD0000 rSafe ∧
    ((∀ j < 16, (sout s j).flt = 1 ∨ (sout s j).flt = 2 → ∃ t0 ∈ (sout s j).offSince, t0 + 1000000 ≤ s.now))) ∧
  (∃ (w : Win) (j : Fin 16) (s : State), Granted s w 0xD0000 rSafe ∧
    (sout s j).flt = 1 ∧
    (sout s j).offSince = none) ∧
  (∃ (w : Win) (k : Str) (s : State), Granted s w 0xD0000 rSafe ∧
    strOk s k = true ∧
    s.emb.mode = .maintenance ∧
    ctrOpen s k = true) ∧
  (∃ (k : Str) (s : State), s.emb.power = .on ∧
    (ctr s k).pstate = 1 ∧
    pollDue s k = true ∧
    Engine.bank ∉ s.kln.stopped) ∧
  (∃ (k : Str) (t0 : Nat) (s : State), awake s = true ∧
    (mstr s k).running = some (.lanes, 0, t0) ∧
    t0 + 11 ≤ s.now) ∧
  (∃ (k : Str) (mv : Int) (t0 : Nat) (s : State), awake s = true ∧
    (mstr s k).running = some (.lanes, 1, t0) ∧
    t0 + 11 ≤ s.now ∧
    (ctr s k).pstate = 1 ∧
    (ctr s k).v0New = true ∧
    (ctr s k).v0 * 95 ≤ mv * 100) ∧
  (∃ (k : Str) (mv : Int) (t0 : Nat) (s : State), awake s = true ∧
    (mstr s k).running = some (.lanes, 1, t0) ∧
    t0 + 11 ≤ s.now ∧
    ((ctr s k).pstate ≠ 1 ∨ (ctr s k).v0New = false ∨ mv * 100 < (ctr s k).v0 * 95)) ∧
  (∃ (k : Str) (t0 : Nat) (s : State), (ctr s k).pstate = 2 ∧
    (ctr s k).kplusAt = some t0 ∧
    t0 + 1000 * (safB s).kClose ≤ s.now) ∧
  (∃ (k : Str) (s : State), s.emb.power = .on ∧
    (ctr s k).pstate = 4 ∧
    pollDue s k = true ∧
    Engine.bank ∉ s.kln.stopped) ∧
  (∃ (k : Str) (t0 : Nat) (s : State), awake s = true ∧
    (mstr s k).running = some (.lanes, 2, t0) ∧
    t0 + 11 ≤ s.now ∧
    (ctr s k).pstate = 4) ∧
  (∃ (k : Str) (t0 : Nat) (s : State), (ctr s k).pstate = 4 ∧
    (ctr s k).openAt = some t0 ∧
    t0 + 1000 * (safB s).tOpen ≤ s.now) :=
  ⟨⟨15, (soX [(15, { laneOn := true })]), by decide +kernel⟩,
   ⟨0x8000, 15, 99999550, (soX [(12, { laneOn := true }), (15, { laneOn := true, pulsing := some 99999550 })]), by decide +kernel⟩,
   ⟨0, 15, 99999550, (soX [(12, { laneOn := true }), (15, { laneOn := true, pulsing := some 99999550 })]), by decide +kernel⟩,
   ⟨0, 12, 15, 99999550, (soX [(12, { flt := 3, highLeft := [15] }), (15, { laneOn := true, pulsing := some 99999550 })]), by decide +kernel⟩,
   ⟨15, 99999500, (soX [(15, { laneOn := true, pulsing := some 99999500 })]), by decide +kernel⟩,
   ⟨0, (soX [(15, { flt := 1, offSince := some 99000000 })]), by decide +kernel⟩,
   ⟨0, 15, (soX [(15, { flt := 1 })]), by decide +kernel⟩,
   ⟨0, 3, { soX [] with saf := { (soX []).saf with cts := [(3, { weld := true })] } }, by decide +kernel⟩,
   ⟨3, (ctX { pstate := 1 } {}), by decide +kernel⟩,
   ⟨3, 99999989, (ctX { pstate := 1 } { running := some (.lanes, 0, 99999989) }), by decide +kernel⟩,
   ⟨3, 950, 0, (ctX { pstate := 1, v0 := 1000, v0New := true } { running := some (.lanes, 1, 0) }), by decide +kernel⟩,
   ⟨3, 949, 0, (ctX { pstate := 1, v0 := 1000, v0New := true } { running := some (.lanes, 1, 0) }), by decide +kernel⟩,
   ⟨3, 99900000, { soX [(14, { laneOn := true })] with emb := (live .precharge).emb, saf := { (soX [(14, { laneOn := true })]).saf with cts := [(0, { pstate := 3 }), (1, { pstate := 3 }), (2, { pstate := 3 }), (3, { pstate := 2, kplusAt := some 99900000 })] } }, by decide +kernel⟩,
   ⟨3, (ctX { pstate := 4 } {}), by decide +kernel⟩,
   ⟨3, 0, (ctX { pstate := 4, openAt := some 5 } { running := some (.lanes, 2, 0) }), by decide +kernel⟩,
   ⟨3, 0, { soX [] with saf := { (soX []).saf with cts := [(3, { pstate := 4, openAt := some 0 })] } }, by decide +kernel⟩⟩

theorem test_hyps_ArithmeticWrapsAndRounds :
  (∃ (k : Fin 16) (i : Ins) (s : State), Fetched s k 0x08 i ∧
    tyFp i.ty = none) ∧
  (∃ (k : Fin 16) (i : Ins) (s : State), Fetched s k 0x09 i ∧
    tyFp i.ty = none) ∧
  (∃ (k : Fin 16) (i : Ins) (s : State), Fetched s k 0x0A i ∧
    tyFp i.ty = none) ∧
  (∃ (k : Fin 16) (i : Ins) (s : State), Fetched s k 0x0B i ∧
    tyFp i.ty = none ∧
    opB s k i ≠ 0) ∧
  (∃ (k : Fin 16) (i : Ins) (s : State), Fetched s k 0x0B i ∧
    tyFp i.ty = none ∧
    opB s k i = 0) ∧
  (∃ (k : Fin 16) (i : Ins) (s : State), Fetched s k 0x0C i ∧
    tyFp i.ty = none ∧
    opB s k i ≠ 0) ∧
  (∃ (k : Fin 16) (i : Ins) (s : State), Fetched s k 0x0C i ∧
    tyFp i.ty = none ∧
    opB s k i = 0) ∧
  (∃ (k : Fin 16) (i : Ins) (s : State), Fetched s k 0x0D i ∧
    tyFp i.ty = none) ∧
  (∃ (k : Fin 16) (i : Ins) (s : State), Fetched s k 0x0E i ∧
    tyFp i.ty = none) ∧
  (∃ (k : Fin 16) (i : Ins) (f : FpFmt) (s : State), Fetched s k 0x08 i ∧
    tyFp i.ty = some f) ∧
  (∃ (k : Fin 16) (i : Ins) (f : FpFmt) (s : State), Fetched s k 0x09 i ∧
    tyFp i.ty = some f) ∧
  (∃ (k : Fin 16) (i : Ins) (f : FpFmt) (s : State), Fetched s k 0x0A i ∧
    tyFp i.ty = some f) ∧
  (∃ (k : Fin 16) (i : Ins) (f : FpFmt) (s : State), Fetched s k 0x0B i ∧
    tyFp i.ty = some f) ∧
  (∃ (k : Fin 16) (i : Ins) (f : FpFmt) (s : State), Fetched s k 0x0C i ∧
    tyFp i.ty = some f) ∧
  (∃ (k : Fin 16) (i : Ins) (f : FpFmt) (s : State), Fetched s k 0x0D i ∧
    tyFp i.ty = some f) ∧
  (∃ (k : Fin 16) (i : Ins) (f : FpFmt) (s : State), Fetched s k 0x0E i ∧
    tyFp i.ty = some f) ∧
  (∃ (f : FpFmt), f = fp32 ∨ f = fp64) :=
  ⟨⟨15, i0 8 1, rr 8 1 127 1, by decide +kernel⟩,
   ⟨15, i0 9 6, rr 9 6 1 2, by decide +kernel⟩,
   ⟨15, i0 10 4, rr 10 4 (2^32) (2^32), by decide +kernel⟩,
   ⟨15, i0 11 2, rr 11 2 (2^64 - 7) 2, by decide +kernel⟩,
   ⟨15, i0 11 2, rr 11 2 7 0, by decide +kernel⟩,
   ⟨15, i0 12 2, rr 12 2 (2^64 - 7) 2, by decide +kernel⟩,
   ⟨15, i0 12 2, rr 12 2 7 0, by decide +kernel⟩,
   ⟨15, i0 13 1, rr 13 1 9 (2^64 - 128), by decide +kernel⟩,
   ⟨15, i0 14 1, rr 14 1 9 (2^64 - 128), by decide +kernel⟩,
   ⟨15, i0 8 9, fp32, rr 8 9 0x3F800000 0x3F800000, by decide +kernel⟩,
   ⟨15, i0 9 10, fp64, rr 9 10 0x7FF0000000000000 0x7FF0000000000000, by decide +kernel⟩,
   ⟨15, i0 10 9, fp32, rr 10 9 0x3F800000 0x3F800000, by decide +kernel⟩,
   ⟨15, i0 11 9, fp32, rr 11 9 0x3F800000 0, by decide +kernel⟩,
   ⟨15, i0 12 9, fp32, rr 12 9 0x3F800000 0x40000000, by decide +kernel⟩,
   ⟨15, i0 13 9, fp32, rr 13 9 0x3F800000 0x40000000, by decide +kernel⟩,
   ⟨15, i0 14 9, fp32, rr 14 9 0x3F800000 0xC0000000, by decide +kernel⟩,
   ⟨fp64, by decide +kernel⟩⟩

theorem test_hyps_BitwiseCompareAndSelect :
  (∃ (k : Fin 16) (i : Ins) (s : State), Fetched s k 0x10 i) ∧
  (∃ (k : Fin 16) (i : Ins) (s : State), Fetched s k 0x11 i) ∧
  (∃ (k : Fin 16) (i : Ins) (s : State), Fetched s k 0x12 i) ∧
  (∃ (k : Fin 16) (i : Ins) (s : State), Fetched s k 0x13 i) ∧
  (∃ (k : Fin 16) (i : Ins) (s : State), Fetched s k 0x14 i) ∧
  (∃ (k : Fin 16) (i : Ins) (s : State), Fetched s k 0x15 i) ∧
  (∃ (k : Fin 16) (i : Ins) (s : State), Fetched s k 0x16 i) ∧
  (∃ (k : Fin 16) (i : Ins) (s : State), Fetched s k 0x17 i) ∧
  (∃ (k : Fin 16) (i : Ins) (s : State), Fetched s k 0x18 i) ∧
  (∃ (ty : Nat), tyFp ty = none) ∧
  (∃ (ty : Nat) (a : Nat) (b : Nat), tyNan ty a = true ∨ tyNan ty b = true) ∧
  (∃ (k : Fin 16) (i : Ins) (s : State), Fetched s k 0x1C i ∧
    tyFp i.ty = none) ∧
  (∃ (k : Fin 16) (i : Ins) (s : State), Fetched s k 0x1D i ∧
    tyFp i.ty = none) ∧
  (∃ (k : Fin 16) (i : Ins) (s : State), Fetched s k 0x1E i ∧
    tyFp i.ty = none) ∧
  (∃ (k : Fin 16) (i : Ins) (f : FpFmt) (s : State), Fetched s k 0x1C i ∧
    tyFp i.ty = some f ∧
    (tyNan i.ty (wreg (task s k) (fld i.x 3 0)) = true ∨ tyNan i.ty (wreg (task s k) (fld i.x 7 4)) = true)) ∧
  (∃ (k : Fin 16) (i : Ins) (s : State), Fetched s k 0x1F i) :=
  ⟨⟨15, i0 16 1, rr 16 1 0xF0 0x90, by decide +kernel⟩,
   ⟨15, i0 17 1, rr 17 1 0xF0 0x91, by decide +kernel⟩,
   ⟨15, i0 18 6, rr 18 6 0xF0 0x91, by decide +kernel⟩,
   ⟨15, i0 19 0, rr 19 0 0 1, by decide +kernel⟩,
   ⟨15, i0 20 5, rr 20 5 255 256, by decide +kernel⟩,
   ⟨15, i0 21 5, rr 21 5 255 7, by decide +kernel⟩,
   ⟨15, i0 22 5, rr 22 5 0x81 9, by decide +kernel⟩,
   ⟨15, i0 23 5, rr 23 5 0x81 0, by decide +kernel⟩,
   ⟨15, ii 24 1 0 1 0x42 0 0 1, (wLg [w0 24 1 0 1 0x42, 0, 0] (tsk 1 (2^64 - 1))), by decide +kernel⟩,
   ⟨1, by decide +kernel⟩,
   ⟨9, 0x7FC00000, 1, by decide +kernel⟩,
   ⟨15, ii 28 1 0 1 0x21 0 0 1, (wLg [w0 28 1 0 1 0x21, 0, 0] (tsk 1 (2^64 - 1))), by decide +kernel⟩,
   ⟨15, ii 29 1 0 1 0x21 0 0 1, (wLg [w0 29 1 0 1 0x21, 0, 0] (tsk 1 (2^64 - 1))), by decide +kernel⟩,
   ⟨15, ii 30 1 0 1 0x21 0 0 1, (wLg [w0 30 1 0 1 0x21, 0, 0] (tsk 1 (2^64 - 1))), by decide +kernel⟩,
   ⟨15, ii 28 9 0 1 0x21 0 0 1, fp32, (wLg [w0 28 9 0 1 0x21, 0, 0] (tsk 1 0x7FC00000)), by decide +kernel⟩,
   ⟨15, ii 31 1 0 1 0x21 0 0 1, (wLg [w0 31 1 0 1 0x21, 0, 0] (tsk 1 (2^64 - 1))), by decide +kernel⟩⟩

theorem test_hyps_LoadsStoresAndJumps :
  (∃ (k : Fin 16) (i : Ins) (s : State), Fetched s k 0x01 i ∧
    i.form ≠ 2 ∧
    i.form ≠ 3 ∧
    inData s k (dataOff (task s k) i) (tyBytes i.ty) = true) ∧
  (∃ (k : Fin 16) (i : Ins) (s : State), Fetched s k 0x01 i ∧
    i.form = 3) ∧
  (∃ (k : Fin 16) (i : Ins) (s : State), Fetched s k 0x01 i ∧
    i.form = 2) ∧
  (∃ (k : Fin 16) (i : Ins) (s : State), Fetched s k 0x01 i ∧
    i.form ≠ 2 ∧
    i.form ≠ 3 ∧
    inData s k (dataOff (task s k) i) (tyBytes i.ty) = false) ∧
  (∃ (k : Fin 16) (i : Ins) (s : State), Fetched s k 0x02 i ∧
    i.form ≠ 2 ∧
    inData s k (dataOff (task s k) i) (tyBytes i.ty) = true ∧
    (img s k).dataLen ≤ 65536 ∧
    forcesOf s = []) ∧
  (∃ (k : Fin 16) (i : Ins) (s : State), Fetched s k 0x02 i ∧
    i.form = 2 ∧
    (img s k).iou.contains (wd i.e1) = true) ∧
  (∃ (k : Fin 16) (i : Ins) (s : State), Fetched s k 0x02 i ∧
    i.form = 2 ∧
    (img s k).iou.contains (wd i.e1) = false) ∧
  (∃ (k : Fin 16) (i : Ins) (s : State), Fetched s k 0x02 i ∧
    i.form ≠ 2 ∧
    inData s k (dataOff (task s k) i) (tyBytes i.ty) = false) ∧
  (∃ (k : Fin 16) (i : Ins) (s : State), Fetched s k 0x03 i ∧
    inData s k i.e1 i.x = true ∧
    inData s k i.e2 i.x = true ∧
    (img s k).dataLen ≤ 65536 ∧
    forcesOf s = []) ∧
  (∃ (k : Fin 16) (i : Ins) (s : State), Fetched s k 0x03 i ∧
    (inData s k i.e1 i.x = false ∨ inData s k i.e2 i.x = false)) ∧
  (∃ (k : Fin 16) (i : Ins) (s : State), Fetched s k 0x00 i) ∧
  (∃ (k : Fin 16) (i : Ins) (s : State), Fetched s k 0x20 i) ∧
  (∃ (k : Fin 16) (i : Ins) (s : State), Fetched s k 0x21 i) ∧
  (∃ (k : Fin 16) (i : Ins) (s : State), Fetched s k 0x22 i) ∧
  (∃ (k : Fin 16) (i : Ins) (s : State), Fetched s k 0x23 i ∧
    (task s k).stack.length < 16) ∧
  (∃ (k : Fin 16) (i : Ins) (s : State), Fetched s k 0x23 i ∧
    16 ≤ (task s k).stack.length) ∧
  (∃ (k : Fin 16) (i : Ins) (r : Nat) (l : List Nat) (s : State), Fetched s k 0x24 i ∧
    (task s k).stack = r :: l) ∧
  (∃ (k : Fin 16) (i : Ins) (s : State), Fetched s k 0x24 i ∧
    (task s k).stack = []) ∧
  (∃ (k : Fin 16) (s : State), taskRuns s k = true ∧
    (fetch s k = none ∨ (∃ i ∈ fetch s k, insOk i = false))) :=
  ⟨⟨15, ii 1 1 4 1 2 0 0 2, (wLg [w0 1 1 4 1 2, 0, 0] tD), by decide +kernel⟩,
   ⟨15, ii 1 4 3 1 2 7 8 3, (wLg [w0 1 4 3 1 2, 7, 8, 0] tD), by decide +kernel⟩,
   ⟨15, ii 1 0 2 1 2 0x1F 0 2, (wLg [w0 1 0 2 1 2, 0x1F, 0] { tD with input := [(3, 0x80)] }), by decide +kernel⟩,
   ⟨15, ii 1 2 1 1 2 255 0 2, (wLg [w0 1 2 1 1 2, 255, 0] tD), by decide +kernel⟩,
   ⟨15, ii 2 2 1 1 2 254 0 2, (wLg [w0 2 2 1 1 2, 254, 0] tD), by decide +kernel⟩,
   ⟨15, ii 2 0 2 1 2 0x10000000 0 2, (wLg [w0 2 0 2 1 2, 0x10000000, 0] (tsk 1 0)), by decide +kernel⟩,
   ⟨15, ii 2 0 2 1 2 0x10000001 0 2, (wLg [w0 2 0 2 1 2, 0x10000001, 0] (tsk 1 0)), by decide +kernel⟩,
   ⟨15, ii 2 2 1 1 2 255 0 2, (wLg [w0 2 2 1 1 2, 255, 0] tD), by decide +kernel⟩,
   ⟨15, ii 3 0 1 0 4 4 5 3, (wLg [w0 3 0 1 0 4, 4, 5, 0] tD), by decide +kernel⟩,
   ⟨15, ii 3 0 1 0 4 4 253 3, (wLg [w0 3 0 1 0 4, 4, 253, 0] tD), by decide +kernel⟩,
   ⟨15, ii 0 0 0 0 0 0 0 1, (wLg [0, 0] tD), by decide +kernel⟩,
   ⟨15, ii 32 0 5 0 0 8 0 2, (wLg [w0 32 0 5 0 0, 8, 0] tD), by decide +kernel⟩,
   ⟨15, ii 33 0 5 0 0 8 0 2, (wLg [w0 33 0 5 0 0, 8, 0] { tD with flag := true }), by decide +kernel⟩,
   ⟨15, ii 34 0 5 0 0 8 0 2, (wLg [w0 34 0 5 0 0, 8, 0] { tD with flag := true }), by decide +kernel⟩,
   ⟨15, ii 35 0 5 0 0 8 0 2, (wLg [w0 35 0 5 0 0, 8, 0] (stk 15)), by decide +kernel⟩,
   ⟨15, ii 35 0 5 0 0 8 0 2, (wLg [w0 35 0 5 0 0, 8, 0] (stk 16)), by decide +kernel⟩,
   ⟨15, ii 36 0 0 0 0 8 0 1, 1, [1], (wLg [w0 36 0 0 0 0, 8, 0] (stk 2)), by decide +kernel⟩,
   ⟨15, ii 36 0 0 0 0 8 0 1, (wLg [w0 36 0 0 0 0, 8, 0] (stk 0)), by decide +kernel⟩,
   ⟨15, { wLg [0xFF000000, 0] tD with lgc := { (wLg [0xFF000000, 0] { tD with outBuf := [(outKey 1 0 0, some true)]}).lgc with fq := 3 } }, by decide +kernel⟩⟩

theorem test_hyps_ConversionsTimersAndCounters :
  (∃ (k : Fin 16) (i : Ins) (s : State), Fetched s k 0x28 i ∧
    tyFp (fld i.x 3 0) = none ∧
    tyFp i.ty = none ∧
    i.ty ≠ 0) ∧
  (∃ (k : Fin 16) (i : Ins) (s : State), Fetched s k 0x28 i ∧
    tyFp (fld i.x 3 0) = none ∧
    i.ty = 0) ∧
  (∃ (k : Fin 16) (i : Ins) (f : FpFmt) (s : State), Fetched s k 0x28 i ∧
    tyFp (fld i.x 3 0) = none ∧
    tyFp i.ty = some f) ∧
  (∃ (k : Fin 16) (i : Ins) (f : FpFmt) (g : FpFmt) (s : State), Fetched s k 0x28 i ∧
    tyFp (fld i.x 3 0) = some f ∧
    tyFp i.ty = some g) ∧
  (∃ (k : Fin 16) (i : Ins) (f : FpFmt) (n : Int) (s : State), Fetched s k 0x28 i ∧
    tyFp (fld i.x 3 0) = some f ∧
    tyFp i.ty = none ∧
    (fpA f s k i).toInt = some n) ∧
  (∃ (k : Fin 16) (i : Ins) (f : FpFmt) (s : State), Fetched s k 0x28 i ∧
    tyFp (fld i.x 3 0) = some f ∧
    tyFp i.ty = none ∧
    (fpA f s k i).toInt = none) ∧
  (∃ (k : Fin 16) (i : Ins) (s : State), Fetched s k 0x30 i ∧
    inData s k i.e1 25 = false) ∧
  (∃ (m : TmrInst), m.prev = false) ∧
  (∃ (m : TmrInst), m.prev = true) ∧
  (∃ (k : Fin 16) (i : Ins) (q : Bool) (s : State), Fetched s k 0x31 i ∧
    inData s k i.e1 1 = true ∧
    forcesOf s = [] ∧
    (if i.x = 0 then bitN (wreg (task s k) i.w) 0 && !bitN (dataGet (task s k) i.e1 1) 0 else !bitN (wreg (task s k) i.w) 0 && bitN (dataGet (task s k) i.e1 1) 0) = q) ∧
  (∃ (k : Fin 16) (i : Ins) (s : State), Fetched s k 0x31 i ∧
    inData s k i.e1 1 = false) ∧
  (∃ (k : Fin 16) (i : Ins) (cv : Int) (pv : Int) (inp : Nat) (old : Nat) (s : State), Fetched s k 0x32 i ∧
    inData s k i.e1 7 = true ∧
    (img s k).dataLen ≤ 65536 ∧
    forcesOf s = [] ∧
    sgn 16 (dataGet (task s k) i.e1 2) = cv ∧
    sgn 16 (dataGet (task s k) (i.e1 + 2) 2) = pv ∧
    dataGet (task s k) (i.e1 + 4) 1 = inp ∧
    dataGet (task s k) (i.e1 + 5) 1 = old ∧
    i.x = 0) ∧
  (∃ (k : Fin 16) (i : Ins) (s : State), Fetched s k 0x32 i ∧
    inData s k i.e1 7 = false) ∧
  (∃ (k : Fin 16) (i : Ins) (e : EdgeView) (s : State), Fetched s k 0x34 i ∧
    tget {} (task s k).edges (fld i.x 4 0) = e) ∧
  (∃ (k : Fin 16) (i : Ins) (s : State), Fetched s k 0x38 i ∧
    i.x = 0) ∧
  (∃ (k : Fin 16) (i : Ins) (s : State), Fetched s k 0x38 i ∧
    i.x = 1) :=
  ⟨⟨15, ii 40 1 0 1 6 0 0 1, (wLg [w0 40 1 0 1 6, 0] (tsk 200 0)), by decide +kernel⟩,
   ⟨15, ii 40 0 0 1 6 0 0 1, (wLg [w0 40 0 0 1 6, 0] (tsk 200 0)), by decide +kernel⟩,
   ⟨15, ii 40 9 0 1 4 0 0 1, fp32, (wLg [w0 40 9 0 1 4, 0] (tsk (2^64-1) 0)), by decide +kernel⟩,
   ⟨15, ii 40 9 0 1 10 0 0 1, fp64, fp32, (wLg [w0 40 9 0 1 10, 0] (tsk 0x3FF0000000000000 0)), by decide +kernel⟩,
   ⟨15, ii 40 1 0 1 9 0 0 1, fp32, 1000, (wLg [w0 40 1 0 1 9, 0] (tsk 0x447A0000 0)), by decide +kernel⟩,
   ⟨15, ii 40 1 0 1 9 0 0 1, fp32, (wLg [w0 40 1 0 1 9, 0] (tsk 0x7F800000 0)), by decide +kernel⟩,
   ⟨15, ii 48 0 1 1 2 232 0 2, (wLg [w0 48 0 1 1 2, 232, 0] (tsk 1 0)), by decide +kernel⟩,
   ⟨{ start := 0, pt := 10, et := 0, q := false, prev := false, run := false }, by decide +kernel⟩,
   ⟨{ start := 5, pt := 10, et := 0, q := false, prev := true, run := true }, by decide +kernel⟩,
   ⟨15, ii 49 0 1 1 1 255 0 2, true, (wLg [w0 49 0 1 1 1, 255, 0] { tsk 0 0 with data := [(255, 1)] }), by decide +kernel⟩,
   ⟨15, ii 49 0 1 1 1 256 0 2, (wLg [w0 49 0 1 1 1, 256, 0] (tsk 1 0)), by decide +kernel⟩,
   ⟨15, ii 50 0 1 1 0 249 0 2, 32767, 5, 1, 0, (wLg [w0 50 0 1 1 0, 249, 0] { tsk 0 0 with data := [(249, 255), (250, 127), (251, 5), (253, 1)] }), by decide +kernel⟩,
   ⟨15, ii 50 0 1 1 0 250 0 2, (wLg [w0 50 0 1 1 0, 250, 0] (tsk 1 0)), by decide +kernel⟩,
   ⟨15, ii 52 0 0 1 31 0 0 1, { rise := 3, fall := 4 }, (wLg [w0 52 0 0 1 31, 0] { tsk 0 0 with edges := [(31, { rise := 3, fall := 4 })] }), by decide +kernel⟩,
   ⟨15, ii 56 0 0 1 0 0 0 1, (wLg [w0 56 0 0 1 0, 0] (tsk 1 0)), by decide +kernel⟩,
   ⟨15, ii 56 0 0 1 1 0 0 1, (wLg [w0 56 0 0 1 1, 0] (tsk 31 0)), by decide +kernel⟩⟩

theorem test_hyps_TasksStartRunAndEnd :
  (∃ (k : Fin 16) (s : State), taskOn s k = true ∧
    lgcRuns s = true ∧
    rdf s lgcTcfg [k] 23 0 ≠ 0 ∧
    rdf s lgcToff [k] 23 0 ≤ s.lgc.time ∧
    (s.lgc.time - rdf s lgcToff [k] 23 0) % rdf s lgcTcfg [k] 23 0 = 0 ∧
    (task s k).lastDue ≠ some s.lgc.time) ∧
  (∃ (k : Fin 16) (s : State), (s.lgc.time - rdf s lgcToff [k] 23 0) % rdf s lgcTcfg [k] 23 0 ≠ 0) ∧
  (∃ (k : Fin 16) (s : State), awake s = true ∧
    EvSink.task k ∈ s.kln.evPend ∧
    taskOn s k = true ∧
    rdf s lgcTcfg [k] 23 0 = 0) ∧
  (∃ (k : Fin 16) (s : State), firstDue s = some k.val ∧
    (task s k).state ≠ 3 ∧
    lgcRuns s = true ∧
    s.shadow = [] ∧
    (runningTasks s).length < 8) ∧
  (∃ (k : Fin 16) (v : Nat) (s : State), firstDue s = some k.val ∧
    (task s k).state ≠ 3 ∧
    lgcRuns s = true ∧
    s.shadow = [] ∧
    8 ≤ (runningTasks s).length ∧
    victim s = some v ∧
    v ≠ k.val ∧
    prioOf s k < prioOf s v) ∧
  (∃ (k : Fin 16) (s : State), firstDue s = some k.val ∧
    (task s k).state = 3 ∧
    s.emb.power = .on ∧
    (runningTasks s).length < 8) ∧
  (∃ (k : Fin 16) (s : State), firstDue s ≠ some k.val) ∧
  (∃ (k : Fin 16) (s : State), ((task s k).state = 2 ∨ (task s k).state = 3) ∧
    (task s k).startAt + rd s lgcTwd [k] < s.lgc.time) ∧
  (∃ (k : Fin 16) (s : State), s.lgc.time ≤ (task s k).startAt + rd s lgcTwd [k]) ∧
  (∃ (k : Fin 16) (i : Ins) (s : State), Fetched s k 0x3F i) ∧
  (∃ (s : State), awake s = true ∧
    s.lgc.nvDefer = true ∧
    s.emb.holdupOk = true ∧
    -368 ≤ s.thm.board ∧
    s.thm.board ≤ 1328) ∧
  (∃ (s : State), s.emb.holdupOk = false) :=
  ⟨⟨15, (wTk [(15, { state := 1 })] [tcfg 15 3 1000]), by decide +kernel⟩,
   ⟨15, (wTk [(15, { state := 4 })] [tcfg 15 3 999]), by decide +kernel⟩,
   ⟨15, { wTk [(15, { state := 1 })] [tcfg 15 3 0] with kln := { State.reset.kln with evPend := [.task 15] } }, by decide +kernel⟩,
   ⟨15, (wTk [(15, { state := 1, dueAt := some 5000 })] [tcfg 15 3 1000]), by decide +kernel⟩,
   ⟨15, 7, (wTk ((List.range 8).map (fun k => (k, { state := 2 })) ++ [(15, { state := 1, dueAt := some 5000 })]) ((List.range 8).map (fun k => tcfg k k 1000) ++ [tcfg 15 3 1000])), by decide +kernel⟩,
   ⟨15, (wTk [(15, { state := 3, dueAt := some 5000 })] [tcfg 15 3 1000]), by decide +kernel⟩,
   ⟨15, wTk [] [tcfg 15 3 1000], by decide +kernel⟩,
   ⟨15, (wTk [(15, { state := 3, startAt := 3999 })] [(lgcTwd.addr [15], 1000)]), by decide +kernel⟩,
   ⟨15, (wTk [(15, { state := 3, startAt := 4000 })] [(lgcTwd.addr [15], 1000)]), by decide +kernel⟩,
   ⟨15, ii 0x3F 0 0 0 0 0 0 1, (wTk [(15, { state := 2, again := true, startAt := 100, outBuf := [(outKey 1 0 0, some true)] })] []), by decide +kernel⟩,
   ⟨{ wTk [(15, { state := 1, nvPend := some [(1, 1)] })] [] with emb := { (live .connected).emb with holdupOk := true }, lgc := { (wTk [(15, { state := 1, nvPend := some [(1, 1)] })] []).lgc with nvDefer := true } }, by decide +kernel⟩,
   ⟨{ wTk [] [] with emb := { (live .connected).emb with holdupOk := false } }, by decide +kernel⟩⟩

theorem test_hyps_ForcesAndStations :
  (∃ (w : Win) (f : Force) (e : Nat) (s : State), Granted s w 0xE0000 rMaint ∧
    s.emb.mode = .maintenance ∧
    forceTarget s = some f ∧
    forceEntry s f = some e) ∧
  (∃ (w : Win) (f : Force) (s : State), Granted s w 0xE0000 rMaint ∧
    s.emb.mode = .maintenance ∧
    forceTarget s = some f ∧
    forceEntry s f = none) ∧
  (∃ (w : Win) (s : State), Granted s w 0xE0000 rMaint ∧
    s.emb.mode ≠ .maintenance) ∧
  (∃ (w : Win) (e : Byte) (f : Force) (s : State), Granted s w 0xE0000 rMaint ∧
    tget none s.lgc.forces e.toNat = some f) ∧
  (∃ (w : Win) (e : Byte) (s : State), Granted s w 0xE0000 rMaint ∧
    tget none s.lgc.forces e.toNat = none) ∧
  (∃ (w : Win) (s : State), Granted s w 0xE0000 rMaint) ∧
  (∃ (w : Win) (s : State), Granted s w 0xE0000 rCfg) ∧
  (∃ (n : Fin 16) (s : State), stnOn s n = true ∧
    awake s = true ∧
    (stn s n).state ≠ 0 ∧
    (stn s n).lastTx + sper s n ≤ s.now) ∧
  (∃ (n : Fin 16) (s : State), s.now < (stn s n).lastTx + sper s n) ∧
  (∃ (n : Fin 16) (b : List Byte) (s : State), stnOn s n = true ∧
    awake s = true ∧
    (stn s n).state ≠ 0 ∧
    stnFrameOk s n b = false) ∧
  (∃ (n : Fin 16) (b : List Byte) (s : State), stnOn s n = true ∧
    awake s = true ∧
    (stn s n).state ≠ 0 ∧
    stnFrameOk s n b = true) ∧
  (∃ (n : Fin 16) (b : List Byte) (s : State), (getLe b (8 + rdf s lgcStncfg [n] 30 24) 4 ≠ stnCrc s n (b.take (8 + rdf s lgcStncfg [n] 30 24)) ∨ b.length ≠ 12 + rdf s lgcStncfg [n] 30 24 ∨ (stn s n).rxSeq = some (getLe b 2 2))) ∧
  (∃ (n : Fin 16) (s : State), stnOn s n = true ∧
    awake s = true ∧
    ((stn s n).state = 1 ∨ (stn s n).state = 2) ∧
    (stn s n).last + swd s n ≤ s.now) ∧
  (∃ (n : Fin 16) (s : State), s.now < (stn s n).last + swd s n) :=
  ⟨⟨0, frc, 0, wFr .maintenance [], by decide +kernel⟩,
   ⟨0, frc, wFr .maintenance bigT, by decide +kernel⟩,
   ⟨0, wFr .connected [], by decide +kernel⟩,
   ⟨0, 255, frc, (wFr .connected [(255, some frc)]), by decide +kernel⟩,
   ⟨0, 255, wFr .connected [], by decide +kernel⟩,
   ⟨0, (wFr .connected [(0, some frc), (255, some frc)]), by decide +kernel⟩,
   ⟨0, wFr .connected [], by decide +kernel⟩,
   ⟨15, (wSt { state := 2, txSeq := 65535 }), by decide +kernel⟩,
   ⟨15, (wSt { state := 2, lastTx := 99990001 }), by decide +kernel⟩,
   ⟨15, [1], (wSt { state := 2 }), by decide +kernel⟩,
   ⟨15, sFrm 1, (wSt { state := 3, run := 1, rxSeq := some 0 }), by decide +kernel⟩,
   ⟨15, sFrm 1, (wSt { state := 1, rxSeq := some 1 }), by decide +kernel⟩,
   ⟨15, { wSt { state := 2, last := 0 } with lgc := { (wSt { state := 2, last := 0 }).lgc with tasks := [(15, { state := 3 })] } }, by decide +kernel⟩,
   ⟨15, (wSt { state := 2, last := 99980001 }), by decide +kernel⟩⟩

theorem test_hyps_FieldLinkAndPoints :
  (∃ (s : State), awake s = true ∧
    s.shadow = [] ∧
    (∀ t0 ∈ s.fio.lastTx, t0 + 25 ≤ s.now)) ∧
  (∃ (t0 : Nat) (s : State), s.fio.lastTx = some t0 ∧
    s.now < t0 + 25) ∧
  (∃ (f : FioFrame) (s : State), awake s = true ∧
    Engine.fieldIo ∉ s.kln.stopped ∧
    (f.crcOk = false ∨ f.lenOk = false ∨ (∃ q ∈ fioExpected s, q ≠ f.seq.toNat))) ∧
  (∃ (f : FioFrame) (s : State), awake s = true ∧
    Engine.fieldIo ∉ s.kln.stopped ∧
    f.crcOk = true ∧
    f.lenOk = true ∧
    (∀ q ∈ fioExpected s, q = f.seq.toNat)) ∧
  (∃ (s : State), awake s = true ∧
    s.fio.lastSeq.isSome = true ∧
    s.fio.lastAt + 27 + 25 * s.fio.slots ≤ s.now) ∧
  (∃ (s : State), s.now < s.fio.lastAt + 27 + 25 * s.fio.slots) ∧
  (∃ (n : Fin 32) (t0 : Nat) (s : State), awake s = true ∧
    Engine.fieldIo ∉ s.kln.stopped ∧
    (fin s n).runStart = some t0 ∧
    (fin s n).raw ≠ (fin s n).deb ∧
    t0 + fioDbUs s n ≤ s.now) ∧
  (∃ (n : Fin 32) (t0 : Nat) (s : State), (fin s n).runStart = some t0 ∧
    s.now < t0 + fioDbUs s n) ∧
  (∃ (j : Fin 16) (s : State), awake s = true ∧
    (fout s j).on = true ∧
    (fout s j).onAt + 1000 * rdf s fioCfg [] 22 16 ≤ s.now) ∧
  (∃ (j : Fin 16) (s : State), (fout s j).on = false ∨ s.now < (fout s j).onAt + 1000 * rdf s fioCfg [] 22 16) ∧
  (∃ (j : Fin 16) (t0 : Nat) (s : State), awake s = true ∧
    (fout s j).tryAt = some t0 ∧
    t0 ≤ s.now ∧
    outAllowed s j = true ∧
    (fout s j).ovl = true ∧
    (fout s j).on = false) ∧
  (∃ (j : Fin 16) (s : State), s.fio.txOut.getLsbD j = false ∨ s.fio.secOff = true ∨ s.fio.flMissing = true) ∧
  (∃ (t0 : Nat) (s : State), awake s = true ∧
    s.fio.lowSince = some t0 ∧
    s.fio.flLow = false ∧
    t0 + 10000 ≤ s.now) ∧
  (∃ (t0 : Nat) (s : State), s.fio.lowSince = some t0 ∧
    s.now < t0 + 10000) ∧
  (∃ (s : State), awake s = true) ∧
  (∃ (w : Win) (s : State), Granted s w 0xF0000 rMaint ∧
    s.fio.linkFlt = false) ∧
  (∃ (w : Win) (s : State), Granted s w 0xF0000 rMaint ∧
    s.fio.linkFlt = true) ∧
  (∃ (w : Win) (s : State), Granted s w 0xF0000 rMaint) ∧
  (∃ (w : Win) (s : State), Granted s w 0xF0000 rMaint) :=
  ⟨⟨(wFio { lastTx := some 99999975, secOff := false, outs := [(3, { ovl := true })] }), by decide +kernel⟩,
   ⟨99999976, (wFio { lastTx := some 99999976 }), by decide +kernel⟩,
   ⟨{ fFr with crcOk := false }, (wFio { live := true, badRun := 2, hold := 5 } [(fioSubm.addr [], 4), (fioSubv.addr [], 0)]), by decide +kernel⟩,
   ⟨{ fFr with lenOk := true, seq := 7, raw := 0x80000001, vfl := 2400 }, (wFio { live := true, linkFlt := true, goodRun := 7, secGoodRun := 8, hold := 5 }), by decide +kernel⟩,
   ⟨(wFio { live := true, lastSeq := some 1, lastAt := 0, badRun := 2 }), by decide +kernel⟩,
   ⟨(wFio { live := true, lastSeq := some 1, lastAt := 99999974, badRun := 2 }), by decide +kernel⟩,
   ⟨31, 99999000, (wFio { ins := [(31, { raw := true, runStart := some 99999000 })] } [(fioDb.addr [31], wd (2 ^ 16 + 1000))]), by decide +kernel⟩,
   ⟨31, 99999001, (wFio { ins := [(31, { raw := true, runStart := some 99999001 })] } [(fioDb.addr [31], wd (2 ^ 16 + 1000))]), by decide +kernel⟩,
   ⟨15, (wFio { outs := [(15, { on := true })] }), by decide +kernel⟩,
   ⟨15, wFio {}, by decide +kernel⟩,
   ⟨15, 5, (wFio { outs := [(15, { ovl := true, tryAt := some 5 })], txOut := 0x8000, secOff := false }), by decide +kernel⟩,
   ⟨15, (wFio { outs := [(15, { ovl := true, tryAt := some 5 })] }), by decide +kernel⟩,
   ⟨99990000, (wFio { lowSince := some 99990000 }), by decide +kernel⟩,
   ⟨99990001, (wFio { lowSince := some 99990001 }), by decide +kernel⟩,
   ⟨(wFio { okSince := some 99900000, flLow := true, flMissing := true, ok18Since := none }), by decide +kernel⟩,
   ⟨0, (wFio { fltHeld := true }), by decide +kernel⟩,
   ⟨0, (wFio { linkFlt := true }), by decide +kernel⟩,
   ⟨0, (wFio { outs := [(15, { ovl := true, tryAt := some 5 })], txOut := 0x8000, secOff := false }), by decide +kernel⟩,
   ⟨0, (wFio { bad := 4 }), by decide +kernel⟩⟩

theorem test_hyps_CanReceivesCommandsAndRates :
  (∃ (c : Fin 3) (s : State), awake s = true ∧
    canEn s c = true ∧
    (can s c).joined = false ∧
    (canAuto s c = false ∨ (can s c).tool = true) ∧
    (can s c).since + canBits s c 11 ≤ s.now) ∧
  (∃ (c : Fin 3) (s : State), canOnBus s c = true ∧
    (can s c).state < 2) ∧
  (∃ (c : Fin 3) (f : CanFrame) (s : State), s.emb.power = .on ∧
    s.emb.mode = .ember ∧
    canWakes s c f = false) ∧
  (∃ (c : Fin 3) (s : State), canOnBus s c = true ∧
    (can s c).state < 2 ∧
    canListens s c = false) ∧
  (∃ (c : Fin 3) (s : State), canOnBus s c = true ∧
    (can s c).state = 2 ∧
    (can s c).boffWait = false ∧
    (can s c).since + canBits s c 1408 ≤ s.now) ∧
  (∃ (c : Fin 3) (s : State), (can s c).boffWait = true ∨ s.now < (can s c).since + canBits s c 1408) ∧
  (∃ (w : Win) (c : Fin 3) (s : State), Granted s w (canBase c + 0x50) rRead) ∧
  (∃ (w : Win) (c : Fin 3) (s : State), Granted s w (canBase c) rRead ∧
    present s 16 c = true) ∧
  (∃ (w : Win) (c : Fin 3) (s : State), Granted s w (canBase c) rRead ∧
    present s 16 c = true ∧
    (can s c).state = 2) ∧
  (∃ (w : Win) (c : Fin 3) (s : State), Granted s w (canBase c) rRead ∧
    present s 16 c = true ∧
    (can s c).state ≠ 2) ∧
  (∃ (w : Win) (c : Fin 3) (s : State), Granted s w (canBase c) rRead ∧
    present s 16 c = true) ∧
  (∃ (w : Win) (s : State), Granted s w (canBase 2) rRead ∧
    present s 16 2 = true ∧
    canAuto s 2 = true ∧
    (can s 2).tool = true) ∧
  (∃ (w : Win) (c : Fin 3) (s : State), Granted s w (canBase c) rRead ∧
    canAuto s c = false) ∧
  (∃ (s : State), awake s = true ∧
    canEn s 2 = true ∧
    canAuto s 2 = true) ∧
  (∃ (s : State), canAuto s 2 = false) ∧
  (∃ (s : State), canAuto s 2 = true) ∧
  (∃ (l : List Nat) (x : Nat) (s : State), awake s = true ∧
    canEn s 2 = true ∧
    canAuto s 2 = true ∧
    (can s 2).tool = true ∧
    (can s 2).abdState = 1 ∧
    l.length = 15 ∧
    x ∈ l ∧
    (∀ y ∈ l, x ≤ y)) :=
  ⟨⟨2, (wCan 2 { tec := 7 } [cEn 2 0]), by decide +kernel⟩,
   ⟨0, (wCan 0 { state := 1, joined := true, recc := 200 } [cEn 0 0]), by decide +kernel⟩,
   ⟨2, cfr, { wCan 1 {} [] with emb := (live .ember).emb }, by decide +kernel⟩,
   ⟨0, (wCan 0 { state := 1, joined := true, tec := 248 } [cEn 0 (2^29)]), by decide +kernel⟩,
   ⟨0, (wCan 0 { state := 2, joined := true, tec := 256 } [cEn 0 (2^29)]), by decide +kernel⟩,
   ⟨0, (wCan 0 { state := 2, joined := true, tec := 256, boffWait := true } [cEn 0 (2^29)]), by decide +kernel⟩,
   ⟨0, 2, (wCan 2 { hpb := [(0, { full := true, shadow := some (recOf State.reset cfr 5) }), (2, { full := true })] } []), by decide +kernel⟩,
   ⟨0, 1, (wCan 1 { mbx := [(0, { st := 1 }), (15, { st := 2 })] } []), by decide +kernel⟩,
   ⟨0, 1, (wCan 1 { state := 2, boffWait := true } []), by decide +kernel⟩,
   ⟨0, 1, (wCan 1 { state := 1 } []), by decide +kernel⟩,
   ⟨0, 1, (wCan 1 { state := 1, boff := 4, hpb := [(3, { ovr := 4 })] } []), by decide +kernel⟩,
   ⟨0, (wCan 2 { tool := true } [cEn 2 (2^27)]), by decide +kernel⟩,
   ⟨0, 0, (wCan 2 { tool := true } [cEn 2 (2^27)]), by decide +kernel⟩,
   ⟨wCan 2 { } [cEn 2 (2^27)], by decide +kernel⟩,
   ⟨wCan 2 { } [cEn 2 0], by decide +kernel⟩,
   ⟨(wCan 2 { tool := true } [cEn 2 (2^27)]), by decide +kernel⟩,
   ⟨[160,160,160,160,160,160,160,160,160,160,160,160,160,320,480], 160, (wCan 2 { tool := true, abdState := 1 } [cEn 2 (2^27)]), by decide +kernel⟩⟩

theorem test_hyps_CanMailboxesTransmitInOrder :
  (∃ (w : Win) (c : Fin 3) (m : Fin 16) (i : Fin 20) (s : State), Granted s w (canBase c + 0x2000 + 0x80 * m + 4 * i) rRead ∧
    present s 16 c = true ∧
    mbxBusy s c m = false ∧
    mbxBarred s c m = false) ∧
  (∃ (w : Win) (c : Fin 3) (m : Fin 16) (i : Fin 20) (s : State), Granted s w (canBase c + 0x2000 + 0x80 * m + 4 * i) rRead ∧
    present s 16 c = true ∧
    mbxBusy s c m = true) ∧
  (∃ (w : Win) (c : Fin 3) (q : BitVec 16) (s : State), Granted s w (canBase c + 0x40) rRead ∧
    present s 16 c = true ∧
    ((∀ m < 16, q.getLsbD m = true → ¬ (8 ≤ m ∧ m ≤ 14) ∧ mbxBarred s c m = false))) ∧
  (∃ (w : Win) (c : Fin 3) (q : BitVec 16) (m : Fin 16) (s : State), Granted s w (canBase c + 0x40) rRead ∧
    present s 16 c = true ∧
    q.getLsbD m = true ∧
    8 ≤ m.val ∧
    m.val ≤ 14) ∧
  (∃ (c : Fin 3) (m : Fin 16) (s : State), canSends s c = true ∧
    (∀ n < 16, (mbx s c n).st ≠ 2) ∧
    (mbx s c m).st = 1 ∧
    ((∀ n < 16, n ≠ m.val → (mbx s c n).st = 1 →
      mbxRank s c m < mbxRank s c n ∨ (mbxRank s c m = mbxRank s c n ∧ m.val < n)))) ∧
  (∃ (c : Fin 3) (s : State), canSends s c = false) ∧
  (∃ (c : Fin 3) (m : Nat) (s : State), awake s = true ∧
    mbxSending s c = some m) ∧
  (∃ (c : Fin 3) (m : Nat) (s : State), awake s = true ∧
    mbxSending s c = some m) ∧
  (∃ (c : Fin 3) (d : List Byte) (m : Nat) (s : State), ringFront s (27 + c.val) = some d ∧
    canSends s c = true ∧
    getLe d 20 2 = 80 ∧
    bufOk s .data (getLe d 16 4) 80 = true ∧
    engGrant s .can c (getLe d 16 4) 80 ≠ .none ∧
    8 ≤ m ∧
    m ≤ 14 ∧
    mbxBusy s c m = false ∧
    ((∀ n < m, 8 ≤ n → mbxBusy s c n = true)) ∧
    sameIdBusy s c (getLe (memRead s.mem (getLe d 16 4) 80) 0 4) = false) ∧
  (∃ (c : Fin 3) (d : List Byte) (s : State), ringFront s (27 + c.val) = some d ∧
    canSends s c = true ∧
    (getLe d 20 2 ≠ 80 ∨ bufOk s .data (getLe d 16 4) 80 = false)) :=
  ⟨⟨0, 2, 15, 19, (wCan 2 { mbx := [(15, { st := 3 })] } []), by decide +kernel⟩,
   ⟨0, 2, 15, 19, (wCan 2 { mbx := [(15, { st := 1 })] } []), by decide +kernel⟩,
   ⟨0, 2, 0x8081, (wCan 2 { mbx := [(15, { st := 2 })] } []), by decide +kernel⟩,
   ⟨0, 2, 0x4081, 14, (wCan 2 { mbx := [(15, { st := 2 })] } []), by decide +kernel⟩,
   ⟨0, 3, (wCan 0 { state := 0, joined := true, mbx := [(2, { st := 1 }), (3, { st := 1 }), (4, { st := 1 })] } [cEn 0 0, (canMbx.addr [0, 2, 0], 0x200000)]), by decide +kernel⟩,
   ⟨0, (wCan 0 { state := 2, joined := true } [cEn 0 0]), by decide +kernel⟩,
   ⟨0, 15, (wCan 0 { state := 0, joined := true, mbx := [(15, { st := 2 })] } [cEn 0 0]), by decide +kernel⟩,
   ⟨0, 15, (wCan 0 { state := 0, joined := true, mbx := [(15, { st := 2, abortReq := true })] } [cEn 0 0]), by decide +kernel⟩,
   ⟨0, (memRead (wQl 80 { state := 0, joined := true, mbx := [(8, { st := 1 })] }).mem (rdf (wCan 0 {} [cEn 0 0]) hstRbase [27] 23 0) 32), 9, (wQl 80 { state := 0, joined := true, mbx := [(8, { st := 1 })] }), by decide +kernel⟩,
   ⟨0, (memRead (wQl 81 { state := 0, joined := true, mbx := [(8, { st := 1 })] }).mem (rdf (wCan 0 {} [cEn 0 0]) hstRbase [27] 23 0) 32), (wQl 81 { state := 0, joined := true, mbx := [(8, { st := 1 })] }), by decide +kernel⟩⟩

theorem test_hyps_PlantNetworkSwitchesFrames :
  (∃ (p : Fin 2) (s : State), awake s = true ∧
    bitN (rd s netCfg []) p = true) ∧
  (∃ (g : Fin 3) (p : Fin 3) (f : List Byte) (e : Fdb) (s : State), portUp s g = true ∧
    14 ≤ f.length ∧
    isRelayFrame f = false ∧
    ptpLocal f = false ∧
    isGroup (frDst f) = false ∧
    frDst f ≠ ownMac ∧
    frDst f ≠ frSrc f ∧
    (s.tim.fdb.find? fun e => e.mac.toNat == frDst f && fdbFresh s e) = some e ∧
    e.port = p.val ∧
    p ≠ g ∧
    p.val ≠ 2 ∧
    portUp s p = true) ∧
  (∃ (g : Fin 3) (f : List Byte) (s : State), portUp s g = true ∧
    14 ≤ f.length ∧
    isRelayFrame f = false ∧
    ptpLocal f = false ∧
    isGroup (frDst f) = true ∧
    frDst f ≠ ownMac ∧
    portAnswer s f = none) ∧
  (∃ (g : Fin 3) (f : List Byte) (s : State), portUp s g = true ∧
    14 ≤ f.length ∧
    g.val ≠ 2 ∧
    isRelayFrame f = false ∧
    ptpLocal f = false ∧
    frDst f = ownMac ∧
    isService f = false ∧
    portAnswer s f = none) ∧
  (∃ (g : Fin 3) (s : State), portUp s g = false) ∧
  (∃ (p : Fin 2) (f : QueuedFrame) (s : State), (netPort s p).sending ≤ 125 ∧
    (netPort s p).frames = [f] ∧
    f.q < 4 ∧
    f.ingress < 2 ∧
    isPtp f.bytes = true ∧
    ptpType f.bytes = 0 ∧
    ptpTwoStep f.bytes = false) ∧
  (∃ (w : Win) (s : State), Granted s w 0x110000 rCfg) ∧
  (∃ (w : Win) (s : State), Granted s w 0x110000 rCfg) ∧
  (∃ (s : State), awake s = true ∧
    bitN (rd s timCfg []) 31 = false ∧
    s.tim.master = none ∧
    (∀ t0 ∈ s.tim.sentAt, t0 + 1000000 ≤ s.now)) ∧
  (∃ (s : State), s.tim.master.isSome = true) ∧
  (∃ (p : Fin 2) (s : State), portUp s p = true) :=
  ⟨⟨0, wTm {} [netEn], by decide +kernel⟩,
   by
    by_cases h : ownMac = 11
    · exact ⟨0, 1, enet 9 7 0x88B5, { mac := 9, port := 1, at_ := 5 }, wTm { ports := up2, fdb := [{ mac := 9, port := 1, at_ := 5 }] } [netEn],
        by decide +kernel, by decide +kernel, by decide +kernel, by decide +kernel, by decide +kernel, by rw [frDst_enet 9 7 _ (by decide), h]; decide, by decide +kernel⟩
    · exact ⟨0, 1, enet 11 7 0x88B5, { mac := 11, port := 1, at_ := 5 }, wTm { ports := up2, fdb := [{ mac := 11, port := 1, at_ := 5 }] } [netEn],
        by decide +kernel, by decide +kernel, by decide +kernel, by decide +kernel, by decide +kernel, fun e => h (e.symm.trans (frDst_enet 11 7 _ (by decide))), by decide +kernel⟩,
   by
    by_cases h : ownMac = 2 ^ 40
    · exact ⟨2, enet (2 ^ 40 + 1) 7 0x88B5, wTm { ports := up2 } [netEn],
        by decide +kernel, by decide, enet_plain.2.1 _, enet_plain.2.2.1 _, by decide +kernel, by rw [frDst_enet _ 7 _ (by decide), h]; decide, enet_plain.1 _ _⟩
    · exact ⟨2, enet (2 ^ 40) 7 0x88B5, wTm { ports := up2 } [netEn],
        by decide +kernel, by decide, enet_plain.2.1 _, enet_plain.2.2.1 _, by decide +kernel, fun e => h (e.symm.trans (frDst_enet _ 7 _ (by decide))), enet_plain.1 _ _⟩,
   ⟨1, enet ownMac 7 0x88B5, wTm { ports := up2 } [netEn], by decide +kernel, by decide, by decide, enet_plain.2.1 _,
    enet_plain.2.2.1 _, frDst_enet _ 7 _ Config.mac.isLt, enet_plain.2.2.2 _, enet_plain.1 _ _⟩,
   ⟨1, wTm { } [netEn], by decide +kernel⟩,
   ⟨1, { q := 3, bytes := sync0, ingress := 0, at_ := 5 }, (wTm { now := 7000, ports := [(0, { link := true, dly := some 50 }), (1, { link := true, frames := [{ q := 3, bytes := sync0, ingress := 0, at_ := 5 }] })] } [netEn]), by decide +kernel⟩,
   ⟨0, (wTm { fdb := [{ mac := 7, port := 0, at_ := 5 }] } [netEn]), by decide +kernel⟩,
   ⟨0, (wTm { ports := up2 } [netEn]), by decide +kernel⟩,
   ⟨(wTm { ports := up2, now := 77 } [netEn, (timCfg.addr [], 128)]), by decide +kernel⟩,
   ⟨(wTm { master := some mOwn } [netEn]), by decide +kernel⟩,
   ⟨1, (wTm { ports := up2 } [netEn]), by decide +kernel⟩⟩

theorem test_hyps_ModuleTimeFollowsItsMaster :
  (∃ (p : Fin 2) (a : Announce) (s : State), portUp s p = true ∧
    a.domain.toNat = rdf s timCfg [] 7 0 ∧
    a.identity.toNat ≠ clockId) ∧
  (∃ (p : Fin 2) (a : Announce) (s : State), a.domain.toNat ≠ rdf s timCfg [] 7 0 ∨ portUp s p = false) ∧
  (∃ (m : Master) (s : State), awake s = true ∧
    s.tim.foreign = [m] ∧
    m.seen + 3000000 ≤ s.now) ∧
  (∃ (m : Master) (o : Master) (s : State), awake s = true ∧
    s.tim.foreign = [m, o] ∧
    m.seen + 3000000 ≤ s.now ∧
    s.now < o.seen + 3000000 ∧
    o.qual = true ∧
    o.port < 2 ∧
    bitN (rd s timCfg []) 31 = true) ∧
  (∃ (p : Fin 2) (id : Word64) (rx : Nanos) (origin : Nanos) (corr : Int) (x : Int) (m : Master) (s : State), portUp s p = true ∧
    s.tim.master = some m ∧
    m.port = p.val ∧
    m.ann.identity = id ∧
    s.tim.syncBoth = false ∧
    s.tim.dlyHold = none ∧
    rx - (rdf s netPlat [p] 15 0 : Nat) - origin - rdiv corr 65536 - linkDelay s p = x) ∧
  (∃ (s : State), s.tim.master = none ∧
    s.tim.syncBoth = false) ∧
  (∃ (p : Fin 2) (id : Word64) (rx : Nanos) (origin : Nanos) (corr : Int) (x : Int) (m : Master) (o : Master) (s : State), portUp s p = true ∧
    s.tim.master = some m ∧
    m.port ≠ p.val ∧
    s.tim.other = some o ∧
    o.port = p.val ∧
    o.ann.identity = id ∧
    s.tim.syncBoth = true ∧
    (netPort s (1 - p.val)).xNew = true ∧
    satS 32 (syncOffset s p rx origin corr) = x) ∧
  (∃ (p : Fin 2) (t1 : Nanos) (t2 : Nanos) (t3 : Nanos) (t4 : Nanos) (corr : Int) (old : Int) (mean : Int) (l : List Int) (s : State), portUp s p = true ∧
    (∀ t0 ∈ (netPort s p).lastPd, t0 + 1000000 ≤ s.now) ∧
    (netPort s p).dly = some old ∧
    (pdelayOf s p t1 t2 t3 t4 corr :: (netPort s p).dlys).take 8 = l ∧
    rdiv (sumI l) l.length = mean) ∧
  (∃ (t0 : Nat) (s : State), awake s = true ∧
    s.tim.dlyHold = some t0 ∧
    t0 + 1000000 * rdf s timDly [] 15 0 ≤ s.now) ∧
  (∃ (t0 : Nat) (s : State), s.tim.dlyHold = some t0 ∧
    s.now < t0 + 1000000 * rdf s timDly [] 15 0) ∧
  (∃ (w : Win) (s : State), Granted s w 0x12001C rTime ∧
    s.tim.refused = true ∧
    0 ≤ s.tim.pend) ∧
  (∃ (w : Win) (s : State), Granted s w 0x12001C rTime ∧
    s.tim.refused = false) ∧
  (∃ (d : Int) (w : Option Win) (s : State), awake s = true ∧
    s.tim.stepNext = some (d, w)) :=
  ⟨by
    by_cases h : clockId = 77
    · exact ⟨1, ann 6 78, wTm { ports := up2 } [netEn], by decide +kernel, by decide +kernel, by rw [h]; decide⟩
    · exact ⟨1, ann 6 77, wTm { ports := up2 } [netEn], by decide +kernel, by decide +kernel, fun e => h e.symm⟩,
   ⟨1, { ann 6 77 with domain := 1 }, (wTm { ports := up2 } [netEn]), by decide +kernel⟩,
   ⟨mOwn, { wTm { foreign := [mOwn], master := some mOwn, state := 2 } [] with now := 3000000 }, by decide +kernel⟩,
   ⟨mOwn, mst 1 7 78 5, { wTm { foreign := [mOwn, mst 1 7 78 5], master := some mOwn, other := some (mst 1 7 78 5), state := 2 } [slv] with now := 3000000 }, by decide +kernel⟩,
   ⟨0, 77, 0, 0, 5 * 65536, -5, mOwn, (wTm { ports := up2, master := some mOwn } [netEn, (netPlat.addr [0], 0)]), by decide +kernel⟩,
   ⟨(wTm { ports := up2 } [netEn]), by decide +kernel⟩,
   ⟨1, 78, 9000, 0, 0, 9000, mOwn, mst 1 6 78 0, (wTm { ports := [(0, { link := true, xNew := true, xofs := -1000 }), (1, { link := true })], master := some mOwn, other := some (mst 1 6 78 0), syncBoth := true, xRun := 9 } [netEn, (netPlat.addr [1], 0), (timXchk.addr [], 1000)]), by decide +kernel⟩,
   ⟨0, 0, 0, 0, 18000, 0, 50, 4525, [9000, 50], (wTm { ports := [(0, { link := true, dly := some 50, dlys := [50] })], state := 2 } [netEn, (netPlat.addr [0], 0)]), by decide +kernel⟩,
   ⟨0, { wTm { dlyHold := some 0, state := 3, master := some mOwn } [] with now := 70000000 }, by decide +kernel⟩,
   ⟨0, { wTm { dlyHold := some 0, state := 3, master := some mOwn } [] with now := 0 }, by decide +kernel⟩,
   ⟨0, (wTm { refused := true, pend := 5000 } []), by decide +kernel⟩,
   ⟨0, (wTm { refused := false, pend := 5000 } []), by decide +kernel⟩,
   ⟨-5, none, (wTm { now := 100, stepNext := some (-5, none), sched := [sq 0 3 1 0 97 5, sq 0 5 3 0 3000 5] } []), by decide +kernel⟩⟩

theorem test_hyps_ScheduledActionsRunByTime :
  (∃ (w : Win) (e : Nat) (s : State), Granted s w 0x120100 rRead ∧
    1 ≤ (staged s w).type ∧
    (staged s w).type ≤ 3 ∧
    schedRight s (staged s w) = true ∧
    (((staged s w).type = 1 → (staged s w).tgt < 4 ∧ present s 10 (staged s w).tgt = true)) ∧
    timeDiff 64 s (staged s w).time ≤ 2 ^ 47 ∧
    freeSlot s = some e) ∧
  (∃ (w : Win) (s : State), Granted s w 0x120100 rRead ∧
    1 ≤ (staged s w).type ∧
    (staged s w).type ≤ 3 ∧
    schedRight s (staged s w) = true ∧
    (((staged s w).type = 1 → (staged s w).tgt < 4 ∧ present s 10 (staged s w).tgt = true)) ∧
    timeDiff 64 s (staged s w).time ≤ 2 ^ 47 ∧
    freeSlot s = none) ∧
  (∃ (w : Win) (s : State), Granted s w 0x120100 rRead ∧
    (staged s w).type = 1 ∧
    (staged s w).tgt < 4 ∧
    present s 10 (staged s w).tgt = false ∧
    schedRight s (staged s w) = true) ∧
  (∃ (w : Win) (s : State), Granted s w 0x120100 rRead ∧
    1 ≤ (staged s w).type ∧
    (staged s w).type ≤ 3 ∧
    schedRight s (staged s w) = false) ∧
  (∃ (e : Nat) (x : Sched) (s : State), awake s = true ∧
    s.emb.mode ≠ .drowse ∧
    firstSched s = some (e, x)) ∧
  (∃ (s : State), s.emb.mode = .drowse) ∧
  (∃ (s : State), firstSched s = none) ∧
  (∃ (w : Win) (e : Byte) (x : Sched) (s : State), Granted s w 0x120100 rRead ∧
    slot s e.toNat = some x) ∧
  (∃ (w : Win) (e : Byte) (s : State), Granted s w 0x120100 rRead ∧
    slot s e.toNat = none) ∧
  (∃ (w : Win) (s : State), Granted s w 0x120100 rRead ∧
    hasRight s w rCfg = true) ∧
  (∃ (w : Win) (e : Nat) (x : Sched) (s : State), Granted s w 0x120100 rRead ∧
    hasRight s w rCfg = false ∧
    slot s e = some x ∧
    x.win ≠ w) :=
  ⟨⟨0, 0, (wTm { now := 2000000 } (stg 0 2 0 2000001 3)), by decide +kernel⟩,
   ⟨0, (wTm { now := 2000000, sched := (List.range 256).map fun k => sq 0 k 2 0 9 9 } (stg 0 2 0 2000001 3)), by decide +kernel⟩,
   ⟨0, { wTm { now := 2000000 } (stg 0 1 3 2000001 3) with variant := .s2 }, by decide +kernel⟩,
   ⟨1, wTm { } (stg 1 1 0 1 3), by decide +kernel⟩,
   ⟨3, { win := 0, type := 1, tgt := 0, time := 97, val := 5 }, (wTm { now := 97, sched := [sq 0 3 1 0 97 5] } []), by decide +kernel⟩,
   ⟨{ wTm { now := 97, sched := [sq 1 3 1 0 97 2] } [] with emb := (live .drowse).emb }, by decide +kernel⟩,
   ⟨(wTm { now := 96, sched := [sq 1 3 1 0 97 2] } []), by decide +kernel⟩,
   ⟨1, 3, { win := 1, type := 1, tgt := 0, time := 97, val := 2 }, (wTm { sched := [sq 1 3 1 0 97 2] } []), by decide +kernel⟩,
   ⟨1, 4, (wTm { sched := [sq 1 3 1 0 97 2] } []), by decide +kernel⟩,
   ⟨1, (wTm { sched := [sq 1 3 1 0 97 2] } []), by decide +kernel⟩,
   ⟨1, 3, { win := 2, type := 1, tgt := 0, time := 97, val := 2 }, { wTm { sched := [sq 2 3 1 0 97 2] } [] with crd := { State.reset.crd with content := some { fullContent with windows := (List.range 4).map fun k => { fullBind .qspiA with rights := if k = 1 then 0xFD else 255 } } } }, by decide +kernel⟩⟩

theorem test_hyps_RecorderFlushesPlacesAndArchives :
  (∃ (s : State), awake s = true ∧
    s.shadow = [] ∧
    s.recd.flushing = none ∧
    (1000 * rdf s recCfg [] 15 0 + s.recd.lastFlush ≤ s.now ∨ 4096 ≤ stagingFill s.recd ∨ s.recd.lastFaultAt.isSome = true)) ∧
  (∃ (n : Nat) (s : State), s.recd.flushing = some n) ∧
  (∃ (n : Nat) (s : State), (awake s = true ∨ s.emb.power = .flushing) ∧
    s.recd.flushing = some n) ∧
  (∃ (x : Rec) (rest : List Rec) (s : State), awake s = true ∧
    s.recd.flushing = some 1 ∧
    s.recd.staging = x :: rest ∧
    firstGap 0 s.recd.store < s.recd.storeSlots ∧
    tget none s.recd.store (firstGap 0 s.recd.store) = none ∧
    (sevFault ≤ x.sev ∨ 4 * ((storeRecs s.recd).filter fun p => decide (p.2.sev < sevFault)).length < 3 * s.recd.storeSlots)) ∧
  (∃ (x : Rec) (o : Rec) (n : Nat) (rest : List Rec) (s : State), awake s = true ∧
    s.recd.flushing = some 1 ∧
    s.recd.staging = x :: rest ∧
    (s.recd.storeSlots ≤ firstGap 0 s.recd.store ∨ (x.sev < sevFault ∧
      3 * s.recd.storeSlots ≤ 4 * ((storeRecs s.recd).filter fun p => decide (p.2.sev < sevFault)).length)) ∧
    oldestSlot s.recd x.sev = some n ∧
    tget none s.recd.store n = some o) ∧
  (∃ (x : Rec) (rest : List Rec) (s : State), awake s = true ∧
    s.recd.flushing = some 1 ∧
    s.recd.staging = x :: rest ∧
    (s.recd.storeSlots ≤ firstGap 0 s.recd.store ∨ (x.sev < sevFault ∧
      3 * s.recd.storeSlots ≤ 4 * ((storeRecs s.recd).filter fun p => decide (p.2.sev < sevFault)).length)) ∧
    (∀ p ∈ storeRecs s.recd, x.sev < p.2.sev)) ∧
  (∃ (s : State), s.recd.flushing = none) ∧
  (∃ (w : Win) (s : State), Granted s w 0x140000 rCfg ∧
    s.shadow = []) ∧
  (∃ (w : Win) (s : State), Granted s w 0x140000 rCfg) ∧
  (∃ (s : State), awake s = true ∧
    64 ≤ s.recd.unarchived.length ∧
    s.recd.archive.length < 245760) ∧
  (∃ (s : State), s.recd.unarchived = []) :=
  ⟨⟨(wRc { staging := [rc 1 4, rc 2 2], slot := 2 } []), by decide +kernel⟩,
   ⟨1, (wRc { staging := [rc 1 4], slot := 3, flushing := some 1 } []), by decide +kernel⟩,
   ⟨1, (wRc { staging := [rc 1 4, rc 2 2], slot := 2, flushing := some 1, res := .busy, flushCmd := true } []), by decide +kernel⟩,
   ⟨rc 9 4, [], (wRc { staging := [rc 9 4], flushing := some 1, store := full4.take 3, storeSlots := 4 } []), by decide +kernel⟩,
   ⟨rc 9 4, rc 1 4, 0, [], (wRc { staging := [rc 9 4], flushing := some 1, store := full4, storeSlots := 4, unarchived := [1] } []), by decide +kernel⟩,
   ⟨rc 9 1, [], (wRc { staging := [rc 9 1], flushing := some 1, store := full4.take 2, storeSlots := 2 } []), by decide +kernel⟩,
   ⟨(wRc { staging := [rc 9 1] } []), by decide +kernel⟩,
   ⟨0, (wRc { staging := [rc 9 1] } []), by decide +kernel⟩,
   ⟨0, (wRc { drops := [(2, 7)], sdrop := 4, archMiss := 9 } []), by decide +kernel⟩,
   ⟨(wRc { store := full4, unarchived := (List.range 64).map wd } []), by decide +kernel⟩,
   ⟨(wRc { store := full4 } []), by decide +kernel⟩⟩

theorem test_hyps_AuditImagesReadersAndLiveCopy :
  (∃ (w : Win) (x : Rec) (s : State), Granted s w 0x140000 rAudit ∧
    s.recd.audit.getLast? = some x ∧
    s.recd.archiving = none ∧
    s.recd.images.length < 64) ∧
  (∃ (w : Win) (s : State), Granted s w 0x140000 rAudit ∧
    s.recd.audit = []) ∧
  (∃ (w : Win) (last : Word) (s : State), awake s = true ∧
    s.recd.archiving = some (w, last) ∧
    (s.recd.audit.filter fun x => seqLt last x.seq).length + 64 < s.recd.auditSlots) ∧
  (∃ (w : Win) (image : List Rec) (rest : List (List Rec)) (s : State), Granted s w 0x140000 rAudit ∧
    s.recd.images = image :: rest ∧
    s.recd.archiving = none ∧
    auditFullNow s = false) ∧
  (∃ (w : Win) (image : List Rec) (rest : List (List Rec)) (s : State), Granted s w 0x140000 rAudit ∧
    s.recd.images = image :: rest ∧
    s.recd.archiving = none ∧
    auditFullNow s = true) ∧
  (∃ (w : Win) (s : State), Granted s w 0x140100 rRead) ∧
  (∃ (w : Win) (p : Nat × Rec) (d : Nat) (s : State), awake s = true ∧
    (win s w).reader.fetching = true ∧
    p ∈ tiers s.recd ∧
    seqAbove (cursor s w) p.2.seq = some d) ∧
  (∃ (w : Win) (s : State), awake s = true ∧
    (win s w).reader.fetching = true ∧
    (∀ p ∈ tiers s.recd, seqAbove (cursor s w) p.2.seq = none)) ∧
  (∃ (w : Win) (x : Rec) (s : State), reachable s w = true ∧
    accessCode s w 0x14017C false = .ok ∧
    (win s w).reader.ready = some x) ∧
  (∃ (s : State), bitN (rd s recCfg []) 31 = false) ∧
  (∃ (s : State), ringDepth s 41 ≤ ringFill (ring s 41)) ∧
  (∃ (k : Nat) (x : Rec) (p : Partition) (s : State), awake s = true ∧
    bitN (rd s recCfg []) 31 = true ∧
    ringFill (ring s 41) < ringDepth s 41 ∧
    (ring s 41).overflow = false ∧
    (ring s 41).waiting = [] ∧
    fetchRec s.recd.liveCur (tiers s.recd) = some (k, x) ∧
    partOf s .recRead = some p ∧
    engGrant s .recorder 0 (p.base + 64 * ((ring s 41).head.toNat % max 1 (p.len / 64))) x.bytes.length = .readWrite) :=
  ⟨⟨0, rc 7 7, (wRc { audit := [rc 5 7, rc 7 7] } []), by decide +kernel⟩,
   ⟨0, wRc { } [], by decide +kernel⟩,
   ⟨0, 7, (wRc { audit := [rc 5 7, rc 7 7, rc 8 7], archiving := some (0, 7), auditFull := true } []), by decide +kernel⟩,
   ⟨0, [rc 5 7, rc 7 7], [], (wRc { images := [[rc 5 7, rc 7 7]] } []), by decide +kernel⟩,
   ⟨0, [rc 5 7, rc 7 7], [], (wRc { images := [[rc 5 7, rc 7 7]], auditSlots := 64 } []), by decide +kernel⟩,
   ⟨1, wRc { } [], by decide +kernel⟩,
   ⟨1, (1, rc 4 5), 4, { wRc { store := full4, staging := [rc 9 4], audit := [rc 2 7] } [] with hst := { State.reset.hst with wins := [(1, { reader := { fetching := true, skip := 65533 } })] } }, by decide +kernel⟩,
   ⟨1, { wRc { store := full4, staging := [] } [(regKey recRdcur 1 [], 5)] with hst := { State.reset.hst with wins := [(1, { reader := { fetching := true } })] } }, by decide +kernel⟩,
   ⟨1, rc 0xFFFFFFFF 3, { wRc { } [] with hst := { State.reset.hst with wins := [(1, { reader := { ready := some (rc 0xFFFFFFFF 3), skip := 3 } })] } }, by decide +kernel⟩,
   ⟨wRc { } [], by decide +kernel⟩,
   ⟨{ wRc { } [(hstRcfg.addr [41], 1)] with hst := { State.reset.hst with rings := [(41, { head := 2 })] } }, by decide +kernel⟩,
   ⟨1, rc 2 2, { base := 0x1000, len := 0x400, plane := .data, use := .recRead, wins := [], engs := [(.recorder, 0, .readWrite)] }, { wRc { store := full4, liveCur := 2 } [(recCfg.addr [], wd (2^31)), (hstRcfg.addr [41], 3)] with crd := { State.reset.crd with content := some { fullContent with parts := [{ base := 0x1000, len := 0x400, plane := .data, use := .recRead, wins := [], engs := [(.recorder, 0, .readWrite)] }] } } }, by decide +kernel⟩⟩

theorem test_hyps_DroppedRecordsLeaveAGapMark :
  (∃ (n : RecName) (src : Byte) (sev : Nat) (s : State), awake s = true ∧ rdf s recCfg [] 26 24 ≤ sev ∧
    8192 ≤ stagingFill s.recd ∧ sev ≤ 2 ∧ coalesce s.lgc.time src n s.recd.staging = none) ∧
  (∃ (sev : Nat) (s : State), awake s = true ∧ rdf s recCfg [] 26 24 ≤ sev ∧ 8192 ≤ stagingFill s.recd ∧
    2 < sev) ∧
  (∃ (sev : Nat) (s : State), awake s = true ∧
    rdf s recCfg [] 26 24 ≤ sev ∧
    8192 ≤ stagingFill s.recd ∧
    2 < sev) ∧
  (∃ (n : RecName) (src : Byte) (sev : Nat) (s : State), awake s = true ∧
    rdf s recCfg [] 26 24 ≤ sev ∧
    stagingFill s.recd < 8192 ∧
    (2 < sev ∨ stagingFill s.recd < 6144 ∨ coalesce s.lgc.time src n s.recd.staging = none)) :=
  ⟨⟨.timeStep, 3, 2, wRc (fullRec 8192) [], by decide +kernel, by decide +kernel, fullRec_fill 8192, by decide, coalesce_replicate _ _ _ _ _ (by decide)⟩,
   ⟨3, wRc (fullRec 8192) [], by decide +kernel, by decide +kernel, fullRec_fill 8192, by decide⟩,
   ⟨4, (wRc { staging := List.replicate 8192 (rc 1 4) } []), by decide +kernel⟩,
   ⟨.timeStep, 2, 1, (wRc { staging := [rc 1 2], gapBefore := true } []), by decide +kernel⟩⟩

theorem test_hyps_PairFramesMoveTheLease :
  (∃ (bs : List Byte) (s : State), PairOk s bs) ∧
  (∃ (bs : List Byte) (s : State), PairOk s bs ∧
    pairSends s = true ∧
    byteAt bs 0 = 1 ∧
    bitN (byteAt bs 1) 0 = false ∧
    s.par.ctr = 0 ∧
    s.par.conflict = false) ∧
  (∃ (bs : List Byte) (s : State), PairOk s bs ∧
    pairSends s = true ∧
    byteAt bs 0 = 1 ∧
    bitN (byteAt bs 1) 0 = false ∧
    0 < s.par.ctr) ∧
  (∃ (bs : List Byte) (s : State), PairOk s bs ∧
    byteAt bs 0 = 2 ∧
    bitN (byteAt bs 1) 0 = false ∧
    0 < s.par.ctr ∧
    s.par.expPend = false ∧
    s.shadow = []) ∧
  (∃ (bs : List Byte) (s : State), PairOk s bs ∧
    byteAt bs 0 = 2 ∧
    bitN (byteAt bs 1) 0 = false ∧
    s.par.ctr = 0 ∧
    s.par.expPend = false) ∧
  (∃ (bs : List Byte) (s : State), PairOk s bs ∧
    pairSends s = true ∧
    byteAt bs 0 = 3 ∧
    bitN (byteAt bs 1) 0 = false ∧
    s.par.ctr = 0 ∧
    s.par.conflict = false ∧
    (s.par.claimLink = false ∨ parPreferred s = false)) ∧
  (∃ (bs : List Byte) (s : State), PairOk s bs ∧
    byteAt bs 0 ≠ 2 ∧
    bitN (byteAt bs 1) 0 = true ∧
    0 < s.par.ctr) ∧
  (∃ (bs : List Byte) (t0 : Nat) (s : State), PairOk s bs ∧
    bitN (byteAt bs 1) 0 = true ∧
    s.par.ctr = 0 ∧
    s.par.swapAt = some t0 ∧
    wd (getLe bs 4 4) = s.par.swapTerm ∧
    s.now ≤ t0 + 1000 * rdf s parTmo [] 15 0) ∧
  (∃ (bs : List Byte) (s : State), paired s = true ∧
    s.emb.power ≠ .dark ∧
    (bs.length ≠ 32 ∨ getLe bs 28 4 ≠ crc32c (bs.take 28))) ∧
  (∃ (bs : List Byte) (s : State), paired s = true ∧
    s.emb.power ≠ .dark ∧
    bs.length = 32 ∧
    getLe bs 28 4 = crc32c (bs.take 28) ∧
    getLe bs 8 4 ≠ rd s parId []) ∧
  (∃ (bs : List Byte) (s : State), paired s = true ∧
    s.emb.power ≠ .dark ∧
    bs.length = 32 ∧
    getLe bs 28 4 = crc32c (bs.take 28) ∧
    getLe bs 8 4 = rd s parId [] ∧
    bitN (byteAt bs 1) 2 = s.par.strapB ∧
    s.par.conflict = false) :=
  ⟨⟨pf 5 6 9 4 77 0, (wPr { term := 3, rxSeq := some 65535 }), by decide +kernel⟩,
   ⟨pf 1 6 9 4 77 0, (wPr { term := 3, seq := 65535 }), by decide +kernel⟩,
   ⟨pf 1 6 9 4 77 0, (wPr { term := 3, ctr := 1 }), by decide +kernel⟩,
   ⟨pf 2 6 9 4 77 8, (wPr { term := 4, ctr := 1, renewSeq := some (8, 4) }), by decide +kernel⟩,
   ⟨pf 2 6 9 4 77 8, (wPr { term := 3, claimTerm := 4, claimLink := true, claimSeq := some 8, untested := 3, take := 65535 }), by decide +kernel⟩,
   ⟨pf 3 14 9 4 77 8, (wPr { term := 3 }), by decide +kernel⟩,
   ⟨pf 5 5 9 4 77 8, (ctrOnS (wPr { term := 4, ctr := 9 })), by decide +kernel⟩,
   ⟨pf 5 5 9 5 77 8, 1999999, (wPr { term := 4, swapAt := some 1999999, swapTerm := 5, res := .busy }), by decide +kernel⟩,
   ⟨[1, 2], (wPr { crc := 65535 }), by decide +kernel⟩,
   ⟨pf 5 5 9 5 76 8, wPr { }, by decide +kernel⟩,
   ⟨pf 5 1 9 5 77 8, (wPr { rxSeq := some 9 }), by decide +kernel⟩⟩

theorem test_hyps_LeaseIsRenewedClaimedAndLost :
  (∃ (s : State), parRuns s = true ∧
    pairSends s = true ∧
    0 < s.par.ctr ∧
    (∀ t0 ∈ s.par.renewAt, t0 + 10000 ≤ s.now)) ∧
  (∃ (s : State), s.par.ctr = 0) ∧
  (∃ (s : State), mayClaim s = true ∧
    pairSends s = true ∧
    ((s.par.claimLink = true ∧ s.par.pHolds = false) ∨ (s.par.claimLink = false ∧ s.par.pIdle = true ∧ s.par.pPrevIdle = true ∧
      (parPreferred s = true ∨ (∃ t0 ∈ s.par.pNotReadySince, t0 + 1000000 ≤ s.now)))) ∧
    (∀ t0 ∈ s.par.claimAt, t0 + 10000 ≤ s.now)) ∧
  (∃ (s : State), mayClaim s = false) ∧
  (∃ (s : State), pairSends s = true ∧
    (∀ t0 ∈ s.par.lastTx, t0 + 10000 ≤ s.now)) ∧
  (∃ (t0 : Nat) (s : State), s.par.lastRx = some t0 ∧
    s.par.linkUp = true ∧
    t0 + 25000 ≤ s.now) ∧
  (∃ (t0 : Nat) (s : State), s.par.lastRx = some t0 ∧
    s.now < t0 + 25000) ∧
  (∃ (s : State), paired s = true ∧
    s.par.expPend = true ∧
    s.par.ctr = 0) ∧
  (∃ (s : State), 0 < s.par.ctr) ∧
  (∃ (s : State), parRuns s = true ∧
    witRunning s = true ∧
    parReady s = true ∧
    s.par.ctr = 0 ∧
    s.par.claimWit = false ∧
    s.par.swapAt = none ∧
    s.par.lastRx.getD s.par.safStart + 60000 ≤ s.now) ∧
  (∃ (s : State), witRunning s = false) ∧
  (∃ (t0 : Nat) (s : State), s.par.deferredAt = some t0 ∧
    0 < s.par.ctr) ∧
  (∃ (w : Win) (s : State), Granted s w 0x150000 rMaint ∧
    pairUp s = true ∧
    s.par.pReady = true ∧
    paired s = true ∧
    0 < s.par.ctr ∧
    (s.emb.mode = .standby ∨ s.emb.mode = .maintenance) ∧
    allOpen s = true ∧
    s.par.swapAt = none) ∧
  (∃ (w : Win) (s : State), Granted s w 0x150000 rMaint ∧
    pairUp s = true ∧
    s.par.pReady = true ∧
    (s.par.ctr = 0 ∨ (s.emb.mode ≠ .standby ∧ s.emb.mode ≠ .maintenance) ∨ allOpen s = false)) ∧
  (∃ (w : Win) (s : State), Granted s w 0x150000 rMaint ∧
    (pairUp s = false ∨ s.par.pReady = false)) ∧
  (∃ (t0 : Nat) (s : State), s.par.swapAt = some t0 ∧
    t0 + 1000 * rdf s parTmo [] 15 0 < s.now) ∧
  (∃ (w : Win) (s : State), Granted s w 0x150000 rMaint) :=
  ⟨⟨(wPr { ctr := 1, term := 4 }), by decide +kernel⟩,
   ⟨(wPr { term := 4 }), by decide +kernel⟩,
   ⟨(wPw { linkUp := true, lastRx := some 1999000, pIdle := true, pPrevIdle := true, term := 0xFFFFFFFF }), by decide +kernel⟩,
   ⟨(wPw { claimLink := true, claimSeq := some 3 }), by decide +kernel⟩,
   ⟨(wPr { lastTx := some 1990000 }), by decide +kernel⟩,
   ⟨1975000, (wPr { lastRx := some 1975000, linkUp := true }), by decide +kernel⟩,
   ⟨1975001, (wPr { lastRx := some 1975001, linkUp := true }), by decide +kernel⟩,
   ⟨(ctrOnS (wPr { expPend := true, loss := 65535 })), by decide +kernel⟩,
   ⟨(wPr { expPend := true, ctr := 1 }), by decide +kernel⟩,
   ⟨(wPw { lastRx := some 1940000 }), by decide +kernel⟩,
   ⟨wPr { }, by decide +kernel⟩,
   ⟨5, { wPr { deferredAt := some 5, ctr := 1, untested := 15 } with saf := { State.reset.saf with lanes := lanesOn } }, by decide +kernel⟩,
   ⟨0, { wPr { linkUp := true, lastRx := some 1999000, pReady := true, ctr := 1, term := 8 } with emb := (live .maintenance).emb }, by decide +kernel⟩,
   ⟨0, (wPr { linkUp := true, lastRx := some 1999000, pReady := true }), by decide +kernel⟩,
   ⟨0, (wPr { linkUp := true, pReady := true, lastRx := some 1975000 }), by decide +kernel⟩,
   ⟨5, (wPr { swapAt := some 5 }), by decide +kernel⟩,
   ⟨0, (wPr { crc := 7 }), by decide +kernel⟩⟩

theorem test_hyps_RelayStoresBlocksInOrder :
  (∃ (p : Fin 2) (bs : List Byte) (s : State), RelayGot s p 1 bs ∧
    bitN (rd s updCfg []) 31 = false) ∧
  (∃ (p : Fin 2) (bs : List Byte) (s : State), RelayGot s p 1 bs ∧
    bitN (rd s updCfg []) 31 = true ∧
    (inR s.upd.rx.state 1 3 = true ∨ s.crd.xferOpen = true)) ∧
  (∃ (p : Fin 2) (bs : List Byte) (s : State), RelayGot s p 1 bs ∧
    bitN (rd s updCfg []) 31 = true ∧
    inR s.upd.rx.state 1 3 = false ∧
    s.crd.xferOpen = false ∧
    (0x2000000 < getLe bs 8 4 ∨ getLe bs 8 4 % 4 ≠ 0)) ∧
  (∃ (p : Fin 2) (bs : List Byte) (s : State), RelayGot s p 1 bs ∧
    bitN (rd s updCfg []) 31 = true ∧
    inR s.upd.rx.state 1 3 = false ∧
    s.crd.xferOpen = false ∧
    getLe bs 8 4 ≤ 0x2000000 ∧
    getLe bs 8 4 % 4 = 0 ∧
    ((hasCord s = true ∧ s.crd.running.seq = getLe (relayPayload bs) 0 4) ∨
      (s.crd.incValid = true ∧ s.crd.incoming.seq = getLe (relayPayload bs) 0 4))) ∧
  (∃ (p : Fin 2) (bs : List Byte) (s : State), RelayGot s p 1 bs ∧
    bitN (rd s updCfg []) 31 = true ∧
    inR s.upd.rx.state 1 3 = false ∧
    s.crd.xferOpen = false ∧
    getLe bs 8 4 ≤ 0x2000000 ∧
    getLe bs 8 4 % 4 = 0 ∧
    (hasCord s = false ∨ s.crd.running.seq ≠ getLe (relayPayload bs) 0 4) ∧
    (s.crd.incValid = false ∨ s.crd.incoming.seq ≠ getLe (relayPayload bs) 0 4) ∧
    txReadsIncoming s = false) ∧
  (∃ (s : State), s.upd.rx.state = 1 ∧
    awake s = true) ∧
  (∃ (s : State), s.upd.rx.state ≠ 1) ∧
  (∃ (p : Fin 2) (bs : List Byte) (blk : List Byte) (fr : Tab (List Byte)) (s : State), RelayGot s p 3 bs ∧
    s.upd.rx.state = 2 ∧
    s.upd.rx.port = p.val ∧
    s.upd.rx.session = getLe bs 2 2 ∧
    getLe bs 4 2 = s.upd.rx.next ∧
    fr = tset [] s.upd.rx.frags (byteAt bs 1) (relayPayload bs) ∧
    (∀ i < (min 4096 (s.upd.rx.total - 4096 * s.upd.rx.next) + 1023) / 1024, tget [] fr i ≠ []) ∧
    blk = tget [] fr 0 ++ tget [] fr 1 ++ tget [] fr 2 ++ tget [] fr 3 ∧
    blk.length = min 4096 (s.upd.rx.total - 4096 * s.upd.rx.next) ∧
    crc32c blk = getLe bs 8 4) ∧
  (∃ (p : Fin 2) (bs : List Byte) (i : Nat) (s : State), RelayGot s p 3 bs ∧
    s.upd.rx.state = 2 ∧
    s.upd.rx.port = p.val ∧
    s.upd.rx.session = getLe bs 2 2 ∧
    getLe bs 4 2 = s.upd.rx.next ∧
    i < (min 4096 (s.upd.rx.total - 4096 * s.upd.rx.next) + 1023) / 1024 ∧
    tget [] (tset [] s.upd.rx.frags (byteAt bs 1) (relayPayload bs)) i = []) ∧
  (∃ (p : Fin 2) (bs : List Byte) (s : State), RelayGot s p 3 bs ∧
    s.upd.rx.state = 2 ∧
    s.upd.rx.port = p.val ∧
    s.upd.rx.session = getLe bs 2 2 ∧
    s.upd.rx.next < getLe bs 4 2 ∧
    (∀ x ∈ s.upd.rx.beyond, x.1 ≠ getLe bs 4 2 ∨ byteAt bs 1 ≤ x.2)) ∧
  (∃ (p : Fin 2) (bs : List Byte) (f : Nat) (s : State), RelayGot s p 3 bs ∧
    s.upd.rx.state = 2 ∧
    s.upd.rx.port = p.val ∧
    s.upd.rx.session = getLe bs 2 2 ∧
    s.upd.rx.next < getLe bs 4 2 ∧
    s.upd.rx.beyond = some (getLe bs 4 2, f) ∧
    f < byteAt bs 1) ∧
  (∃ (t0 : Nat) (s : State), s.upd.rx.firstAt = some t0 ∧
    s.upd.rx.state = 2 ∧
    awake s = true ∧
    t0 + 2000 ≤ s.now ∧
    s.upd.rx.naks < 7 ∧
    portUp s s.upd.rx.port = true) ∧
  (∃ (t0 : Nat) (s : State), s.upd.rx.firstAt = some t0 ∧
    s.now < t0 + 2000) ∧
  (∃ (s : State), s.upd.rx.state = 2 ∧
    awake s = true ∧
    s.upd.rx.lastData + 5000000 ≤ s.now ∧
    portUp s s.upd.rx.port = true) ∧
  (∃ (s : State), inR s.upd.rx.state 2 3 = true ∧
    awake s = true ∧
    s.upd.rx.lastAck + 10000 ≤ s.now ∧
    portUp s s.upd.rx.port = true) ∧
  (∃ (s : State), s.now < s.upd.rx.lastAck + 10000) ∧
  (∃ (p : Fin 2) (bs : List Byte) (s : State), RelayGot s p 7 bs ∧
    inR s.upd.rx.state 1 3 = true ∧
    s.upd.rx.port = p.val ∧
    s.upd.rx.session = getLe bs 2 2) :=
  ⟨⟨0, rf 1 0 9 0 4100 off, { wUp {} {} ps2 with regs := srt [netEn, (updCfg.addr [], 4)] }, by decide +kernel⟩,
   ⟨0, rf 1 0 9 0 4100 off, (wUp { rx := rx2 } {} ps2), by decide +kernel⟩,
   ⟨0, rf 1 0 9 0 4101 off, wUp { } { } ps2, by decide +kernel⟩,
   ⟨1, rf 1 0 9 0 0x2000000 off, (wUp { } { running := { bytes := List.replicate 12 0 ++ leB 4 7 ++ List.replicate 200 0 } } ps2), by decide +kernel⟩,
   ⟨0, rf 1 0 9 0 0x2000000 off, (wUp { rx := { state := 5 } } { incValid := true, incoming := { bytes := [1,2] } } ps2), by decide +kernel⟩,
   ⟨(wUp { rx := { rx2 with state := 1 } } { relayBusy := true } ps2), by decide +kernel⟩,
   ⟨(wUp { rx := rx2 } { relayBusy := true } ps2), by decide +kernel⟩,
   ⟨1, (rf 3 0 9 3 (crc32c [1,2,3,4]) [1,2,3,4]), [1,2,3,4], (tset [] [] 0 [1,2,3,4]), (wUp { rx := { rx2 with next := 3, total := 4096 * 3 + 4, beyond := some (4, 1) } } { relayBusy := true, incoming := { bytes := bytesN 4096 } } ps2), by decide +kernel⟩,
   ⟨1, (rf 3 1 9 0 55 [1,2]), 0, (wUp { rx := { rx2 with next := 0 } } { relayBusy := true } ps2), by decide +kernel⟩,
   ⟨1, (rf 3 1 9 2 55 [1,2]), (wUp { rx := { rx2 with naks := 6 }, nakCnt := 65535 } { relayBusy := true } ps2), by decide +kernel⟩,
   ⟨1, (rf 3 2 9 2 55 [1,2]), 1, (wUp { rx := { rx2 with naks := 2, beyond := some (2, 1) } } { relayBusy := true } ps2), by decide +kernel⟩,
   ⟨8998000, (wUp { rx := { rx2 with naks := 6, firstAt := some 8998000 } } { relayBusy := true } ps2), by decide +kernel⟩,
   ⟨8998001, (wUp { rx := { rx2 with naks := 6, firstAt := some 8998001 } } { relayBusy := true } ps2), by decide +kernel⟩,
   ⟨(wUp { rx := { rx2 with lastData := 4000000 } } { relayBusy := true } ps2), by decide +kernel⟩,
   ⟨(wUp { rx := { rx2 with lastAck := 8990000 } } { relayBusy := true } ps2), by decide +kernel⟩,
   ⟨(wUp { rx := { rx2 with lastAck := 8990001 } } { relayBusy := true } ps2), by decide +kernel⟩,
   ⟨1, rf 7 0 9 0 7 [], (wUp { rx := rx2, tx := [(0, some tx1), (1, some { tx1 with session := 8 })] } { relayBusy := true } ps2), by decide +kernel⟩⟩

theorem test_hyps_RelaySendsWithinItsLimit :
  (∃ (p : Fin 2) (x : TxSess) (s : State), txSess s p = some x ∧
    awake s = true ∧
    x.accepted = false ∧
    x.offeredAt + 1000000 ≤ s.now) ∧
  (∃ (p : Fin 2) (x : TxSess) (s : State), txSess s p = some x ∧
    s.now < x.offeredAt + 1000000) ∧
  (∃ (p : Fin 2) (bs : List Byte) (x : TxSess) (s : State), RelayGot s p 2 bs ∧
    txSess s p = some x ∧
    x.session = getLe bs 2 2 ∧
    x.accepted = false) ∧
  (∃ (p : Fin 2) (bs : List Byte) (x : TxSess) (s : State), RelayGot s p 4 bs ∧
    txSess s p = some x ∧
    x.session = getLe bs 2 2 ∧
    x.accepted = true) ∧
  (∃ (p : Fin 2) (bs : List Byte) (x : TxSess) (s : State), RelayGot s p 5 bs ∧
    txSess s p = some x ∧
    x.session = getLe bs 2 2 ∧
    x.accepted = true) ∧
  (∃ (p : Fin 2) (x : TxSess) (s : State), txSess s p = some x ∧
    awake s = true ∧
    x.accepted = true ∧
    x.acked < blocksOf x.total ∧
    x.lastAckAt + 100000 ≤ s.now) ∧
  (∃ (p : Fin 2) (x : TxSess) (s : State), txSess s p = some x ∧
    s.now < x.lastAckAt + 100000) ∧
  (∃ (p : Fin 2) (q : Fin 2) (bs : List Byte) (s : State), RelayGot s p 6 bs ∧
    q ≠ p ∧
    s.upd.rx.state ≠ 0 ∧
    s.upd.rx.session = getLe bs 2 2 ∧
    s.upd.rx.port = q.val ∧
    portUp s q = true) ∧
  (∃ (p : Fin 2) (bs : List Byte) (x : TxSess) (s : State), RelayGot s p 7 bs ∧
    s.upd.rx.port ≠ p.val ∧
    txSess s p = some x ∧
    x.session = getLe bs 2 2) :=
  ⟨⟨0, { tx1 with accepted := false, offers := 2 }, (wUp { tx := [(0, some { tx1 with accepted := false, offers := 2 })] } run41 ps2), by decide +kernel⟩,
   ⟨0, { tx1 with accepted := false, offeredAt := 8000001 }, (wUp { tx := [(0, some { tx1 with accepted := false, offeredAt := 8000001 })] } run41 ps2), by decide +kernel⟩,
   ⟨0, rf 2 1 9 0 0 [], { tx1 with accepted := false }, (wUp { tx := [(0, some { tx1 with accepted := false })] } run41 ps2), by decide +kernel⟩,
   ⟨0, rf 4 0 9 1 4 [], { tx1 with sent := 0 }, (wUp { tx := [(0, some { tx1 with sent := 0 })] } run41 ps2), by decide +kernel⟩,
   ⟨0, rf 5 0 9 1 0 [], tx1, (wUp { tx := [(0, some tx1)] } run41 ps2), by decide +kernel⟩,
   ⟨0, tx1, (wUp { tx := [(0, some tx1)] } run41 ps2), by decide +kernel⟩,
   ⟨0, { tx1 with lastAckAt := 8900001 }, (wUp { tx := [(0, some { tx1 with lastAckAt := 8900001 })] } run41 ps2), by decide +kernel⟩,
   ⟨0, 1, (rf 6 0 9 0 0 [1,2,3]), (wUp { rx := rx2, tx := [(0, some tx1)] } run41 ps2), by decide +kernel⟩,
   ⟨0, rf 7 0 9 0 0 [], tx1, (wUp { rx := rx2, tx := [(0, some tx1)] } run41 ps2), by decide +kernel⟩⟩

theorem test_hyps_UpdateCommandsKeysAndHealth :
  (∃ (w : Win) (src : Bool) (m : BitVec 2) (img : List Byte) (s : State), Granted s w 0x160000 rCfg ∧
    img = (if src then s.crd.running.bytes else s.crd.incoming.bytes) ∧
    (if src then img ≠ [] else s.crd.incValid = true) ∧
    s.upd.fbPending = false ∧
    m ≠ 0 ∧
    ((∀ p < 2, bitN m.toNat p = true → txSess s p = none))) ∧
  (∃ (w : Win) (s : State), Granted s w 0x160000 rCfg ∧
    s.crd.incValid = false) ∧
  (∃ (w : Win) (s : State), Granted s w 0x160000 rCfg ∧
    s.upd.fbPending = false) ∧
  (∃ (w : Win) (s : State), Granted s w 0x160000 rCfg ∧
    s.upd.fbPending = true) ∧
  (∃ (w : Win) (s : State), Granted s w 0x160000 rCfg ∧
    s.crd.incValid = true ∧
    s.upd.fbPending = false ∧
    s.emb.eject = false ∧
    relayRuns s = false ∧
    s.upd.confRun = false ∧
    s.upd.fbDue = false ∧
    s.upd.activating = false ∧
    s.crd.verifying = none ∧
    auditFullNow s = false) ∧
  (∃ (w : Win) (s : State), Granted s w 0x160000 rCfg ∧
    s.crd.incValid = false) ∧
  (∃ (w : Win) (s : State), Granted s w 0x160000 rCfg ∧
    s.upd.fbPending = false ∧
    s.emb.mode = .configure ∧
    stmtOk s true = true ∧
    tget 0 s.crd.keys (getLe (stmt s 256) 5 1) = 0 ∧
    auditFullNow s = false) ∧
  (∃ (w : Win) (s : State), Granted s w 0x160000 rCfg ∧
    s.upd.fbPending = false ∧
    s.emb.mode = .configure ∧
    stmtOk s false = true ∧
    keyActive s (getLe (stmt s 256) 5 1) = true ∧
    1 < ((List.range 4).filter (keyActive s)).length ∧
    getLe (stmt s 256) 5 1 ∉ slotsInUse s ∧
    auditFullNow s = false) ∧
  (∃ (w : Win) (s : State), Granted s w 0x160000 rCfg ∧
    s.upd.fbPending = false ∧
    s.emb.mode = .configure ∧
    stmtOk s true = true ∧
    tget 0 s.crd.keys (getLe (stmt s 256) 5 1) ≠ 0) ∧
  (∃ (w : Win) (s : State), Granted s w 0x160000 rCfg ∧
    s.upd.fbPending = false ∧
    s.emb.mode = .configure ∧
    stmtOk s false = false) ∧
  (∃ (w : Win) (s : State), Granted s w 0x160008 rCfg ∧
    s.upd.confRun = true) ∧
  (∃ (w : Win) (s : State), Granted s w 0x160008 rCfg ∧
    s.upd.confRun = false) ∧
  (∃ (s : State), awake s = true ∧
    s.upd.confRun = true) ∧
  (∃ (s : State), awake s = true ∧
    s.upd.confRun = true ∧
    s.upd.cleft = 0 ∧
    s.crd.verifying = none ∧
    s.upd.rx.state ≠ 3 ∧
    s.upd.fbGo = false) ∧
  (∃ (s : State), 0 < s.upd.cleft) :=
  ⟨⟨0, true, 3, bytesN 4100, wUp {} run41 ps2, by decide +kernel⟩,
   ⟨0, wUp {} run41 ps2, by decide +kernel⟩,
   ⟨0, (wUp { rx := rx2, tx := [(0, some tx1)] } run41 ps2), by decide +kernel⟩,
   ⟨0, (wUp { rx := rx2, tx := [(0, some tx1)], fbPending := true } run41 ps2), by decide +kernel⟩,
   ⟨0, (wMo .configure {} { incValid := true }), by decide +kernel⟩,
   ⟨0, wMo .standby {} { }, by decide +kernel⟩,
   ⟨0, (wKy 1 3 sgProg [(0, 1)]), by decide +kernel⟩,
   ⟨0, (wKy 2 1 sgRev [(0, 1), (1, 1)]), by decide +kernel⟩,
   ⟨0, (wKy 1 3 sgProg [(0, 1), (3, 2)]), by decide +kernel⟩,
   ⟨0, (wKy 2 1 (sgRev + 1) [(0, 1), (1, 1)]), by decide +kernel⟩,
   ⟨0, (wMo .standby { confRun := true, cleft := 9 } { }), by decide +kernel⟩,
   ⟨0, wMo .standby { } { }, by decide +kernel⟩,
   ⟨{ wMo .standby { confRun := true, cleft := 9 } { } with kln := { State.reset.kln with evPend := [.task 0, .health] } }, by decide +kernel⟩,
   ⟨(wMo .connected { confRun := true } { }), by decide +kernel⟩,
   ⟨(wMo .connected { confRun := true, cleft := 1 } { }), by decide +kernel⟩⟩

theorem test_hyps_PanelKeysAndExtraction :
  (∃ (k : Fin 4) (s : State), s.emb.power = .on ∧
    s.emb.mode ≠ .ember ∧
    s.emb.eject = false ∧
    keyOn s k = false ∧
    othersOn s k = false) ∧
  (∃ (k : Fin 4) (s : State), s.emb.power = .on ∧
    s.emb.mode ≠ .ember ∧
    s.emb.eject = true ∧
    keyOn s k = false ∧
    (k ≠ 2 ∨ s.pnl.menu = none ∨ othersOn s k = true)) ∧
  (∃ (s : State), s.emb.power = .on ∧
    s.emb.mode ≠ .ember ∧
    s.emb.eject = true ∧
    keyOn s 2 = false ∧
    othersOn s 2 = false ∧
    s.pnl.menu = some 1) ∧
  (∃ (k : Fin 4) (s : State), s.emb.power = .on ∧
    s.emb.mode = .ember ∧
    keyOn s k = false ∧
    bitN (rd s embWakeEn []) 4 = true) ∧
  (∃ (k : Fin 4) (t0 : Nat) (s : State), tget none s.pnl.touched k = some t0 ∧
    (k ≠ 3 ∨ bitN s.pnl.stuck.toNat k = true ∨ bitN s.pnl.consumed.toNat k = true ∨ s.pnl.withOther = true)) ∧
  (∃ (k : Fin 4) (s : State), tget none s.pnl.touched k = none) ∧
  (∃ (k : Fin 4) (t0 : Nat) (s : State), tget none s.pnl.touched k = some t0 ∧
    t0 + 30000000 < s.now ∧
    awake s = true ∧
    bitN s.pnl.stuck.toNat k = false) ∧
  (∃ (k : Fin 4) (t0 : Nat) (s : State), tget none s.pnl.touched k = some t0 ∧
    s.now ≤ t0 + 30000000) ∧
  (∃ (t0 : Nat) (s : State), s.pnl.bothSince = some t0 ∧
    awake s = true ∧
    s.emb.eject = false ∧
    t0 + 2000000 ≤ s.now) ∧
  (∃ (s : State), s.pnl.backlight = true ∧
    (∀ j < 4, keyLive s j = false) ∧
    s.pnl.lastTouch + 1000000 * rdf s pnlCfg [] 15 0 ≤ s.now) ∧
  (∃ (s : State), s.now < s.pnl.lastTouch + 1000000 * rdf s pnlCfg [] 15 0) ∧
  (∃ (s : State), keyLive s 0 = true) ∧
  (∃ (s : State), s.emb.power = .on ∧
    s.emb.present = true ∧
    s.emb.eject = false ∧
    s.emb.mode ≠ .ember) ∧
  (∃ (s : State), s.emb.power = .on ∧
    s.emb.present = true ∧
    s.emb.eject = true) ∧
  (∃ (s : State), s.emb.present = false) ∧
  (∃ (s : State), s.emb.power = .on ∧
    s.emb.eject = false ∧
    s.emb.mode ≠ .ember) ∧
  (∃ (s : State), s.emb.eject = true) ∧
  (∃ (s : State), s.emb.power = .on ∧
    s.emb.eject = false ∧
    s.emb.mode = .ember) ∧
  (∃ (s : State), s.pnl.ejState ≠ 0 ∧
    awake s = true ∧
    s.pnl.ejAt + 500000 ≤ s.now) ∧
  (∃ (s : State), s.now < s.pnl.ejAt + 500000) ∧
  (∃ (s : State), s.pnl.ejState ≠ 0 ∧
    awake s = true ∧
    emberReady s = true ∧
    contactorWanted s = false ∧
    allOpen s = true ∧
    (∀ k ∈ strs s, (ctr s k).pstate ≠ 4) ∧
    s.emb.mode ≠ .connected ∧
    s.emb.mode ≠ .drowse) ∧
  (∃ (s : State), contactorWanted s = true ∨ allOpen s = false) :=
  ⟨⟨0, wPn .standby {} [], by decide +kernel⟩,
   ⟨0, { wPn .standby { backlight := true } [] with emb := { (live .standby).emb with eject := true } }, by decide +kernel⟩,
   ⟨{ wPn .standby { menu := some 1 } [] with emb := { (live .standby).emb with eject := true } }, by decide +kernel⟩,
   ⟨3, wPn .ember {} [], by decide +kernel⟩,
   ⟨3, 97000000, (wPn .standby { touched := [(3, some 97000000)], stuck := 8 } []), by decide +kernel⟩,
   ⟨0, (wPn .standby { touched := [(3, some 97000000)], stuck := 8 } []), by decide +kernel⟩,
   ⟨3, 69999999, (wPn .standby { touched := [(3, some 69999999)] } []), by decide +kernel⟩,
   ⟨3, 70000000, (wPn .standby { touched := [(3, some 70000000)] } []), by decide +kernel⟩,
   ⟨98000000, (wPn .standby { bothSince := some 98000000 } []), by decide +kernel⟩,
   ⟨(wPn .standby { lastTouch := 40000000, backlight := true } []), by decide +kernel⟩,
   ⟨(wPn .standby { lastTouch := 40000001, backlight := true } []), by decide +kernel⟩,
   ⟨(wPn .standby { lastTouch := 40000000, backlight := true, touched := [(0, some 1)] } []), by decide +kernel⟩,
   ⟨{ wEj .connected false {} with saf := { State.reset.saf with sos := [(0, { req := true, laneOn := true })] } }, by decide +kernel⟩,
   ⟨wEj .connected true {}, by decide +kernel⟩,
   ⟨{ wEj .connected true {} with emb := { (live .connected).emb with present := false } }, by decide +kernel⟩,
   ⟨(wEj .drowse false { ejects := 65535 }), by decide +kernel⟩,
   ⟨wEj .connected true {}, by decide +kernel⟩,
   ⟨wEj .ember false {}, by decide +kernel⟩,
   ⟨{ wEj .connected true { ejState := 1, ejAt := 99500000 } with saf := { State.reset.saf with sos := [(0, { req := true, laneOn := true }), (3, { req := true, laneOn := true })] } }, by decide +kernel⟩,
   ⟨{ wEj .connected true { ejState := 1, ejAt := 99500001 } with saf := { State.reset.saf with sos := [(0, { req := true, laneOn := true })] } }, by decide +kernel⟩,
   ⟨{ wEj .standby true { ejState := 1, ejAt := 99500000 } with saf := { State.reset.saf with sos := [(3, { req := true, laneOn := true })] }, recd := { State.reset.recd with staging := [rc 1 2] } }, by decide +kernel⟩,
   ⟨{ wEj .connected true { ejState := 1, ejAt := 99500000 } with saf := { State.reset.saf with sos := [(0, { req := true, laneOn := true })] } }, by decide +kernel⟩⟩

theorem test_hyps_AckActsOnReleaseByTheTimeHeld :
  (∃ (s : State), s.emb.power = .on ∧
    s.emb.mode ≠ .ember ∧
    keyOn s 3 = false) ∧
  (∃ (t0 : Nat) (s : State), tget none s.pnl.touched 3 = some t0 ∧
    awake s = true ∧
    bitN s.pnl.stuck.toNat 3 = false ∧
    bitN s.pnl.consumed.toNat 3 = false ∧
    s.pnl.withOther = false ∧
    panelAck s = true ∧
    s.emb.mode = .safeStop ∧
    s.saf.dem = 0 ∧
    s.emb.eject = false ∧
    s.emb.pfail = false ∧
    t0 + 1000000 ≤ s.now ∧
    (s.now < t0 + 3000000 ∨ lotoPos s ≠ .maint ∨ forcesActive s = false ∨ s.emb.forceAcked = true)) ∧
  (∃ (t0 : Nat) (s : State), tget none s.pnl.touched 3 = some t0 ∧
    awake s = true ∧
    bitN s.pnl.stuck.toNat 3 = false ∧
    bitN s.pnl.consumed.toNat 3 = false ∧
    s.pnl.withOther = false ∧
    panelMaint s = true ∧
    forcesActive s = true ∧
    s.emb.forceAcked = false ∧
    s.emb.eject = false ∧
    t0 + 3000000 ≤ s.now) ∧
  (∃ (t0 : Nat) (s : State), tget none s.pnl.touched 3 = some t0 ∧
    awake s = true ∧
    bitN s.pnl.stuck.toNat 3 = false ∧
    bitN s.pnl.consumed.toNat 3 = false ∧
    s.pnl.withOther = false ∧
    panelAck s = false ∧
    t0 + 1000000 ≤ s.now ∧
    s.now < t0 + 3000000) ∧
  (∃ (t0 : Nat) (s : State), tget none s.pnl.touched 3 = some t0 ∧
    (s.now < t0 + 1000000 ∨ bitN s.pnl.stuck.toNat 3 = true ∨ s.pnl.withOther = true)) ∧
  (∃ (t0 : Nat) (s : State), s.pnl.bothSince = some t0 ∧
    awake s = true ∧
    s.emb.eject = false ∧
    t0 + 2000000 ≤ s.now) ∧
  (∃ (t0 : Nat) (s : State), s.pnl.bothSince = some t0 ∧
    s.now < t0 + 2000000) :=
  ⟨⟨(wPn .standby { touched := [(2, some 5)], backlight := true } []), by decide +kernel⟩,
   ⟨99000000, wAck .safeStop 99000000, by decide +kernel⟩,
   ⟨97000000, { wAck .safeStop 97000000 with lgc := { State.reset.lgc with forces := [(0, some fc0)] }, emb := { (wAck .safeStop 97000000).emb with forceAcked := false } }, by decide +kernel⟩,
   ⟨98000000, { wAck .safeStop 98000000 with regs := [(pnlCfg.addr [], 60)] }, by decide +kernel⟩,
   ⟨99000001, wAck .safeStop 99000001, by decide +kernel⟩,
   ⟨98000000, (wPn .standby { bothSince := some 98000000 } []), by decide +kernel⟩,
   ⟨98000001, (wPn .standby { bothSince := some 98000001 } []), by decide +kernel⟩⟩

end Sys2Proof.Tests
end

section
/-!
SUPPORT. What a command leaves unchanged, as facts about `Unchanged`: it is transitive, it grows with the list of parts,
and each shared operation has one frame. What a window's request comes to, whatever right its command asks for.
-/

namespace Sys2Proof.Machine

/-! ### Frames -/

theorem Unchanged.refl (l : List Part) (s : State) : Unchanged l s s := by
  intro p _
  cases p <;> simp [Same]

theorem Unchanged.trans {l : List Part} {s t u : State} (h : Unchanged l s t) (g : Unchanged l t u) : Unchanged l s u := by
  intro p hp
  have hst := h p hp
  have htu := g p hp
  cases p <;> simp_all [Same]

theorem Unchanged.mono {l m : List Part} {s t : State} (h : Unchanged l s t) (hl : ∀ p ∈ l, p ∈ m := by decide) :
    Unchanged m s t :=
  fun p hp => h p fun hpl => hp (hl p hpl)

/-- A step with a narrower frame goes before one with the frame asked for. -/
theorem Unchanged.step {l m : List Part} {s t u : State} (h : Unchanged l s t) (g : Unchanged m t u)
    (hl : ∀ p ∈ l, p ∈ m := by decide) : Unchanged m s u :=
  (h.mono hl).trans g

/-- A fold of steps with one frame has that frame. -/
theorem Unchanged.foldl {β : Type} {l : List Part} {f : State → β → State} (hf : ∀ s b, Unchanged l s (f s b)) (bs : List β)
    (s : State) : Unchanged l s (bs.foldl f s) := by
  induction bs generalizing s with
  | nil => exact .refl l s
  | cons b bs ih => exact (hf s b).trans (ih _)

theorem unchanged_modWin (s : State) (w : Nat) (f : Wnd → Wnd) : Unchanged [.hst] s (modWin s w f) := by
  intro p hp
  cases p <;> simp [Same] at hp ⊢

theorem unchanged_finish (s : State) (w a : Nat) (c : Code) : Unchanged [.hst, .mem] s (finish s w a c) := by
  intro p hp
  cases p <;> simp [Same] at hp ⊢

theorem unchanged_finish_ok (s : State) (w a : Nat) : Unchanged [.hst] s (finish s w a .ok) := by
  simpa [finish] using unchanged_modWin s w _

theorem unchanged_wr (s : State) (f : RegFam) (w : Nat) (ix : List Nat) (v : Nat) : Unchanged [.regs] s (wr s f w ix v) := by
  intro p hp
  cases p <;> simp [Same] at hp ⊢

theorem unchanged_modConv (s : State) (k : Nat) (f : Conv → Conv) : Unchanged [.ctl] s (modConv s k f) := by
  intro p hp
  cases p <;> simp [Same] at hp ⊢

theorem unchanged_modGen (s : State) (g : Nat) (f : Gen → Gen) : Unchanged [.ctl] s (modGen s g f) := by
  intro p hp
  cases p <;> simp [Same] at hp ⊢

theorem unchanged_modPwm (s : State) (j : Nat) (f : Pwm → Pwm) : Unchanged [.hrp] s (modPwm s j f) := by
  intro p hp
  cases p <;> simp [Same] at hp ⊢

theorem unchanged_ctlRes (c : Code) (s : State) : Unchanged [.ctl] s (ctlRes c s) := by
  intro p hp
  cases p <;> simp [Same, ctlRes] at hp ⊢

theorem unchanged_reqMode (s : State) (m : Mode) (src : ReqSrc) : Unchanged [.emb] s (reqMode s m src) := by
  intro p hp
  cases p <;> simp [Same] at hp ⊢

theorem unchanged_setCrd (s : State) (c : Crd) : Unchanged [.crd] s { s with crd := c } := by
  intro p hp
  cases p <;> simp [Same] at hp ⊢

theorem unchanged_modLgc (s : State) (f : Lgc → Lgc) : Unchanged [.lgc] s (modLgc s f) := by
  intro p hp
  cases p <;> simp [Same] at hp ⊢

theorem unchanged_modTask (s : State) (t : Nat) (f : Task → Task) : Unchanged [.lgc] s (modTask s t f) := unchanged_modLgc s _

theorem unchanged_modSaf (s : State) (f : Saf → Saf) : Unchanged [.saf] s (modSaf s f) := by
  intro p hp
  cases p <;> simp [Same] at hp ⊢

theorem unchanged_modSo (s : State) (j : Nat) (f : SafOut → SafOut) : Unchanged [.saf] s (modSo s j f) := unchanged_modSaf s _

theorem unchanged_modCtr (s : State) (k : Nat) (f : Ctr → Ctr) : Unchanged [.saf] s (modCtr s k f) := unchanged_modSaf s _

theorem unchanged_stage (s : State) (n : RecName) (src : Byte) (sev : Nat) (b : List Byte) :
    Unchanged [.mem, .hst, .kln, .recd] s (stage s n src sev b) := by
  intro p hp
  cases p <;> simp [Same] at hp ⊢

theorem unchanged_auditAuto (s : State) (n : RecName) (src : Byte) (b : List Byte) :
    Unchanged [.mem, .hst, .kln, .recd] s (auditAuto s n src b) := by
  intro p hp
  cases p <;> simp [Same] at hp ⊢

/-! ### The code a command answers -/

@[simp] theorem when_true (c : Code) : when_ true c = c := rfl

@[simp] theorem when_false (c : Code) : when_ false c = .ok := rfl

@[simp] theorem rng_true : rng true = .ok := rfl

@[simp] theorem firstCode_nil : firstCode [] = .ok := rfl

@[simp] theorem firstCode_ok_cons (l : List Code) : firstCode (.ok :: l) = firstCode l := rfl

theorem firstCode_cons_of_ne {c : Code} (l : List Code) (hc : c ≠ .ok) : firstCode (c :: l) = c := by
  simp [firstCode, Code.orElse, hc]

@[simp] theorem ifOk_ok (s : State) (f : State → Code × State) : ifOk .ok s f = f s := rfl

theorem ifOk_of_ne {c : Code} (s : State) (f : State → Code × State) (hc : c ≠ .ok) : ifOk c s f = (c, s) := by
  simp [ifOk, hc]

/-! ### The end of a request -/

theorem lastRes_finish_ok (s : State) (w a : Nat) : (win (finish s w a .ok) w).lastRes = .ok := by
  simp [finish]

theorem lastRes_finish_failed (s : State) (w a : Nat) {c : Code} (hok : c ≠ .ok) (hlate : c ≠ .lateDone) :
    (win (finish s w a c) w).lastRes = c := by
  simp [finish, hok, hlate, win_winEvent_lastRes]

/-- A command's rights are met: it does what its operation does, and its block's RES reads the code. -/
theorem cmdReq_entitled {rights : State → Bool} {op : State → Code × State} {s t : State} {c : Code}
    (res : Code → State → State) (hr : rights s = true) (hop : op s = (c, t)) :
    cmdReq rights res op s = (c, res c t) := by
  simp [cmdReq, hr, hop]

/-- A request that the access map lets through ends with the code that it answers. -/
theorem hostCmd_reached {w : Win} {a : Nat} {f : State → Code × State} {s t : State} {c : Code}
    (hr : reachable s w = true) (ha : accessCode s w a true = .ok) (hf : f s = (c, t)) :
    hostCmd w a f s = finish t w a c := by
  simp [hostCmd, hr, ha, hf]

/-- A request that reaches its command and may run it: what holds of the state at its end. -/
theorem runs_hostCmd {i : Instr} {P : State → Prop} {w : Win} {a : Nat} {f : State → Code × State} {s t : State} {c : Code}
    (hi : exec i s = .next (hostCmd w a f s)) (hr : reachable s w = true) (ha : accessCode s w a true = .ok)
    (hf : f s = (c, t)) (hP : P (finish t w a c)) : Runs i s P :=
  ⟨_, hi, hostCmd_reached hr ha hf ▸ hP⟩

/-! ### Fields of a word -/

theorem testBit_fld (v hi lo i : Nat) : (fld v hi lo).testBit i = (decide (i < hi + 1 - lo) && v.testBit (lo + i)) := by
  simp [fld, Nat.testBit_mod_two_pow, Nat.testBit_div_two_pow, Nat.add_comm]

theorem testBit_mask (hi lo i : Nat) : (mask hi lo).testBit i = (decide (lo ≤ i) && decide (i - lo < hi + 1 - lo)) := by
  simp [mask, Nat.testBit_mul_two_pow, Nat.testBit_two_pow_sub_one]

theorem testBit_place (v hi lo i : Nat) :
    (place v hi lo).testBit i = (decide (lo ≤ i) && (decide (i - lo < hi + 1 - lo) && v.testBit (i - lo))) := by
  simp [place, Nat.testBit_mul_two_pow, Nat.testBit_mod_two_pow]

/-- Within the word, the bits that the mask names come from the value, the others from the old word. -/
theorem testBit_putBits (old m v : Nat) {i : Nat} (hi : i < 32) :
    (putBits old m v).testBit i = if m.testBit i then v.testBit i else old.testBit i := by
  have hword : Nat.testBit 0xFFFFFFFF i = true := by
    rw [show 0xFFFFFFFF = 2 ^ 32 - 1 from rfl, Nat.testBit_two_pow_sub_one]
    simpa using hi
  change ((old &&& (0xFFFFFFFF ^^^ m)) ||| (v &&& m)).testBit i = _
  rw [Nat.testBit_or, Nat.testBit_and, Nat.testBit_xor, Nat.testBit_and, hword]
  cases m.testBit i <;> simp

/-- The field that a write names reads the value written. -/
theorem fld_putBits_same (old v : Nat) {hi lo : Nat} (h : hi < 32) :
    fld (putBits old (mask hi lo) (place v hi lo)) hi lo = v % 2 ^ (hi + 1 - lo) := by
  refine Nat.eq_of_testBit_eq fun i => ?_
  rw [testBit_fld, Nat.testBit_mod_two_pow]
  by_cases hi' : i < hi + 1 - lo
  · rw [testBit_putBits _ _ _ (by omega)]
    simp [testBit_mask, testBit_place, hi']
  · simp [hi']

/-- A field below the one that a write names keeps its value. -/
theorem fld_putBits_below (old v : Nat) {hi lo hi' lo' : Nat} (h : hi' < lo) (hw : hi' < 32) :
    fld (putBits old (mask hi lo) v) hi' lo' = fld old hi' lo' := by
  refine Nat.eq_of_testBit_eq fun i => ?_
  rw [testBit_fld, testBit_fld]
  by_cases hi' : i < hi' + 1 - lo'
  · rw [testBit_putBits _ _ _ (by omega), testBit_mask]
    have hbelow : ¬ lo ≤ lo' + i := by omega
    simp [hbelow]
  · simp [hi']

/-- A field of a word is the same field of the number before it is cut to a word. -/
theorem fld_wd (v : Nat) {hi lo : Nat} (h : hi < 32) : fld (wd v).toNat hi lo = fld v hi lo := by
  refine Nat.eq_of_testBit_eq fun i => ?_
  rw [testBit_fld, testBit_fld, wd, BitVec.toNat_ofNat, Nat.testBit_mod_two_pow]
  by_cases hi' : i < hi + 1 - lo
  · have hword : lo + i < 32 := by omega
    simp [hword]
  · simp [hi']

/-! ### A register just written -/

theorem rd_wr_same (s : State) (f : RegFam) (ix : List Nat) (v : Word) : rd (wr s f 0 ix v.toNat) f ix = v.toNat := by
  simp [rd, wr, wd]

theorem rdf_wr_same (s : State) (f : RegFam) (ix : List Nat) (v : Nat) {hi lo : Nat} (h : hi < 32) :
    rdf (wr s f 0 ix v) f ix hi lo = fld v hi lo := by
  simpa [rdf, rd, wr] using fld_wd v h

@[simp] theorem rd_finish (s : State) (w a : Nat) (c : Code) (f : RegFam) (ix : List Nat) :
    rd (finish s w a c) f ix = rd s f ix := by
  simp [rd]

@[simp] theorem rdf_finish (s : State) (w a : Nat) (c : Code) (f : RegFam) (ix : List Nat) (hi lo : Nat) :
    rdf (finish s w a c) f ix hi lo = rdf s f ix hi lo := by
  simp [rdf]

end Sys2Proof.Machine
end

section
/-!
SUPPORT. What the converter operations do: a start, a ramp-down, a parking, and the writes of the dispatch setpoint and of
FORCE; then the statement on converters (R280 to R289).
-/

namespace Sys2Proof.Machine

/-! ### Readings that the operations leave -/

@[simp] theorem conv_finish (s : State) (w a : Nat) (c : Code) (j : Nat) : conv (finish s w a c) j = conv s j := by
  simp [conv]

@[simp] theorem conv_ctlRes (c : Code) (s : State) (j : Nat) : conv (ctlRes c s) j = conv s j := rfl

@[simp] theorem conv_modPwm (s : State) (i : Nat) (f : Pwm → Pwm) (j : Nat) : conv (modPwm s i f) j = conv s j := rfl

@[simp] theorem conv_modGen (s : State) (g : Nat) (f : Gen → Gen) (j : Nat) : conv (modGen s g f) j = conv s j := rfl

@[simp] theorem conv_wr (s : State) (f : RegFam) (w : Nat) (ix : List Nat) (v j : Nat) : conv (wr s f w ix v) j = conv s j :=
  rfl

@[simp] theorem convOn_modConv (s : State) (k : Nat) (f : Conv → Conv) (j : Nat) : convOn (modConv s k f) j = convOn s j :=
  rfl

@[simp] theorem modConv_ctxs (s : State) (k : Nat) (f : Conv → Conv) : (modConv s k f).ctl.ctxs = s.ctl.ctxs := rfl

@[simp] theorem ctlRes_res (c : Code) (s : State) : (ctlRes c s).ctl.res = c := rfl

@[simp] theorem ctlRes_convs (c : Code) (s : State) : (ctlRes c s).ctl.convs = s.ctl.convs := rfl

@[simp] theorem ctlRes_ctxs (c : Code) (s : State) : (ctlRes c s).ctl.ctxs = s.ctl.ctxs := rfl

@[simp] theorem pwm_finish (s : State) (w a : Nat) (c : Code) (j : Nat) : pwm (finish s w a c) j = pwm s j := by
  simp [pwm]

@[simp] theorem pwm_ctlRes (c : Code) (s : State) (j : Nat) : pwm (ctlRes c s) j = pwm s j := rfl

@[simp] theorem pwm_modConv (s : State) (k : Nat) (f : Conv → Conv) (j : Nat) : pwm (modConv s k f) j = pwm s j := rfl

@[simp] theorem pwm_modGen (s : State) (g : Nat) (f : Gen → Gen) (j : Nat) : pwm (modGen s g f) j = pwm s j := rfl

/-! ### Starting a converter -/

/-- What a converter reads once its causes under m are cleared and it has been asked to start. -/
def startedConv (c : Conv) : Conv := { c with state := 1, causes := 0, started := false, forceNew := false }

/-- Every cause falls under m, and the converter is parked: it enters current control (R285). -/
theorem conv_startConv_clearCauses {s : State} {k : Nat} {m : BitVec 8} (hon : convOn s k = true)
    (hm : (conv s k).causes &&& ~~~ m = 0) (hst : (conv s k).state = 0) :
    conv (startConv (clearCauses s k m) k) k = startedConv (conv s k) := by
  simp [startConv, clearCauses, hon, hm, hst, startedConv]

theorem conv_startConv_clearCauses_of_ne (s : State) {k j : Nat} (m : BitVec 8) (hj : j ≠ k) :
    conv (startConv (clearCauses s k m) k) j = conv s j := by
  unfold startConv clearCauses
  dsimp only
  split <;> simp [conv_modConv_of_ne _ _ _ _ hj]

theorem unchanged_startConv_clearCauses (s : State) (k : Nat) (m : BitVec 8) :
    Unchanged [.ctl] s (startConv (clearCauses s k m) k) := by
  have hclear : Unchanged [.ctl] s (clearCauses s k m) := unchanged_modConv s k _
  unfold startConv
  dsimp only
  split
  · exact hclear
  · exact hclear.trans (unchanged_modConv _ k _)

/-- Causes that fall under m fall under anything wider. -/
theorem andNot_or_eq_zero {c m : BitVec 8} (h : c &&& ~~~ m = 0) (x y : BitVec 8) : c &&& ~~~ (m ||| x ||| y) = 0 := by
  have hsplit : ~~~ (m ||| x ||| y) = ~~~ m &&& (~~~ x &&& ~~~ y) := by
    rw [BitVec.not_or, BitVec.not_or, BitVec.and_assoc]
  rw [hsplit, ← BitVec.and_assoc, h]
  exact BitVec.zero_and

/-- The causes that CONV_RUN clears: those of the mode, and those whose conditions have ended (R285). -/
def runClears (s : State) (k : Nat) : BitVec 8 :=
  0x29 ||| (if (mstr s k).invalid then 0 else 0x02) ||| (if leaseValid s then 0x04 else 0)

/-- The internal cause outlasts CONV_RUN (R272). -/
theorem runClears_internal (s : State) (k : Nat) : (runClears s k).getLsbD 4 = false := by
  unfold runClears
  split <;> split <;> rfl

theorem internalCause_outlasts (s : State) (k : Nat) {c : BitVec 8} (hc : c.getLsbD 4 = true) :
    c &&& ~~~ runClears s k ≠ 0#8 := by
  intro h
  have hbit : (c &&& ~~~ runClears s k).getLsbD 4 = true := by
    rw [BitVec.getLsbD_and, BitVec.getLsbD_not, hc, runClears_internal]
    rfl
  simp [h] at hbit

/-- CONV_RUN by the causes that it clears: the codes it may answer, in the order of R14, and what it does without one. -/
theorem opConvRun_eq (k : Nat) (s : State) :
    opConvRun k s =
      ifOk (firstCode [when_ (!convOn s k) .notPresent, when_ (s.emb.mode != .maintenance) .refusedMode,
        when_ (decide ((conv s k).causes &&& ~~~ runClears s k ≠ 0#8)) .checkFail,
        when_ (decide ((conv s k).state ≠ 0)) .busy]) s fun u =>
          (.ok, modConv (startConv (clearCauses u k (runClears s k)) k) k fun c => { c with mRun := true }) := rfl

theorem opConvRun_started {k : Nat} {s : State} (hon : convOn s k = true) (hmode : s.emb.mode = .maintenance)
    (hcause : (conv s k).causes &&& ~~~ runClears s k = 0#8) (hst : (conv s k).state = 0) :
    opConvRun k s =
      (.ok, modConv (startConv (clearCauses s k (runClears s k)) k) k fun c => { c with mRun := true }) := by
  simp [opConvRun_eq, hon, hmode, hcause, hst]

theorem opConvRun_causeHolds {k : Nat} {s : State} (hon : convOn s k = true) (hmode : s.emb.mode = .maintenance)
    (hcause : (conv s k).causes &&& ~~~ runClears s k ≠ 0#8) : opConvRun k s = (.checkFail, s) := by
  simp [opConvRun_eq, hon, hmode, hcause, firstCode_cons_of_ne, ifOk_of_ne]

theorem opConvRun_outsideMaintenance {k : Nat} {s : State} (hon : convOn s k = true) (hmode : s.emb.mode ≠ .maintenance) :
    opConvRun k s = (.refusedMode, s) := by
  simp [opConvRun_eq, hon, bne_iff_ne.mpr hmode, firstCode_cons_of_ne, ifOk_of_ne]

/-! ### Ramping down and parking -/

theorem ctxs_stopGen (s : State) (g : Nat) : (stopGen s g).ctl.ctxs = s.ctl.ctxs := by
  unfold stopGen
  split <;> rfl

theorem conv_stopGen (s : State) (g j : Nat) : conv (stopGen s g) j = conv s j := by
  unfold stopGen
  split <;> simp

theorem pwm_stopGen (s : State) (g j : Nat) : pwm (stopGen s g) j = pwm s j := by
  unfold stopGen
  split <;> simp

theorem unchanged_stopGen (s : State) (g : Nat) : Unchanged [.ctl] s (stopGen s g) := by
  unfold stopGen
  split
  · exact unchanged_modGen s g _
  · exact .refl _ s

theorem conv_holdConv (s : State) (k j : Nat) : conv (holdConv s k) j = conv s j :=
  foldl_same (fun s => conv s j) _ (fun s i => conv_modPwm s i _ j) _ s

theorem ctxs_holdConv (s : State) (k : Nat) : (holdConv s k).ctl.ctxs = s.ctl.ctxs :=
  foldl_same (·.ctl.ctxs) (fun s j => modPwm s j fun p => { p with held := true }) (fun _ _ => rfl) (chansOf k) s

theorem unchanged_holdConv (s : State) (k : Nat) : Unchanged [.hrp] s (holdConv s k) :=
  .foldl (fun s i => unchanged_modPwm s i _) _ s

/-- A channel that a list names is held after the list's channels are, and one that is held stays so. -/
theorem held_foldl (js : List Nat) (s : State) (j : Nat) (hj : j ∈ js ∨ (pwm s j).held = true) :
    (pwm (js.foldl (fun s j => modPwm s j fun p => { p with held := true }) s) j).held = true := by
  induction js generalizing s with
  | nil => simpa using hj
  | cons i js ih =>
    refine ih _ ?_
    by_cases hij : j = i
    · subst hij
      simp
    · simpa [pwm_modPwm_of_ne _ _ _ _ hij, hij] using hj

theorem held_holdConv (s : State) (k j : Nat) (hj : j ∈ chansOf k) : (pwm (holdConv s k) j).held = true :=
  held_foldl _ s j (.inl hj)

/-- A converter as it is parked by cause 6, RAMPED DOWN, which stages no record (R287, R289). -/
def rampedDown (c : Conv) : Conv :=
  { setR c 0 with state := 0, causes := c.causes ||| 0x20, sel := 3, limited := false, mRun := false, started := false
                  forceNew := false, iSet := 0 }

theorem conv_stopGensOn (s : State) (ns : List Nat) (j : Nat) : conv (stopGensOn s ns) j = conv s j :=
  foldl_same (fun s => conv s j) _ (fun s g => conv_stopGen s g j) _ s

theorem pwm_stopGensOn (s : State) (ns : List Nat) (j : Nat) : pwm (stopGensOn s ns) j = pwm s j :=
  foldl_same (fun s => pwm s j) _ (fun s g => pwm_stopGen s g j) _ s

theorem ctxs_stopGensOn (s : State) (ns : List Nat) : (stopGensOn s ns).ctl.ctxs = s.ctl.ctxs :=
  foldl_same (·.ctl.ctxs) _ ctxs_stopGen _ s

theorem unchanged_stopGensOn (s : State) (ns : List Nat) : Unchanged [.ctl] s (stopGensOn s ns) :=
  .foldl unchanged_stopGen _ s

/-- A running converter parks by cause 6: its channels are held, it is at rest, and generators stop (R287, R295). -/
theorem park_rampedDown {s : State} {k : Nat} (hst : (conv s k).state ≠ 0) :
    ∃ ns, park s k 6 = stopGensOn (modConv (holdConv s k) k rampedDown) ns := by
  have hrun : ((conv s k).state != 0) = true := by simpa using hst
  simp only [park, hrun, if_true, Nat.reduceEqDiff, or_false, and_false, if_false]
  exact ⟨_, rfl⟩

theorem rampDown_started {s : State} {k : Nat} (hst : (conv s k).state ≠ 0) (hrun : (conv s k).started = true) :
    (conv (rampDown s k) k).state = 4 ∧ (conv (rampDown s k) k).r = (conv s k).r ∧
      (∀ j, j ≠ k → conv (rampDown s k) j = conv s j) ∧ Unchanged [.ctl] s (rampDown s k) := by
  unfold rampDown
  by_cases h4 : (conv s k).state = 4
  · simp [h4, Unchanged.refl]
  · simp +contextual [hst, h4, hrun, conv_modConv_of_ne, unchanged_modConv]

theorem rampDown_notStarted {s : State} {k : Nat} (hst : (conv s k).state ≠ 0) (h4 : (conv s k).state ≠ 4)
    (hrun : (conv s k).started = false) : rampDown s k = park s k 6 := by
  simp [rampDown, hst, h4, hrun]

theorem opConvPark_maintenance {k : Nat} {s : State} (hon : convOn s k = true) (hmode : s.emb.mode = .maintenance) :
    opConvPark k s = (.ok, rampDown s k) := by
  simp [opConvPark, hon, hmode]

/-! ### Resuming -/

theorem execConverterResume_outsideConnected {s : State} (k : Str) (hmode : s.emb.mode ≠ .connected) :
    exec (.converterResume k) s = .next s := by
  have hres : convResume s k = s := by simp [convResume, hmode]
  change execConverterResume k s = _
  simp [execConverterResume, hres]

/-- Valid current and lease: the causes that CONVERTER_RESUME may clear are both cleared (R289). -/
theorem execConverterResume_connected {s : State} {k : Str} (haw : awake s = true) (hstr : strOk s k = true)
    (hmode : s.emb.mode = .connected) (hst : (conv s k).state = 0) (hcause : (conv s k).causes &&& 0x06#8 ≠ 0#8)
    (hvalid : validFor s k 100000 = true) (hlease : leaseValid s = true) :
    exec (.converterResume k) s = .next (startConv (clearCauses s k 0x06#8) k) := by
  change execConverterResume k s = _
  simp [execConverterResume, convResume, haw, hstr, hmode, hst, hcause, hvalid, hlease]

/-! ### The dispatch setpoint and FORCE -/

theorem opDsp_notFitted {s : State} {k : Nat} (v : Nat) (hp : present s 10 k = false) : opDsp k v s = (.ok, s) := by
  simp [opDsp, hp, okCmd]

theorem opDsp_inRange {s : State} {k v : Nat} (hp : present s 10 k = true) (hc : ctlDsp.check s [k] v = .ok) :
    opDsp k v s = (.ok, activity (wr s ctlDsp 0 [k] v)) := by
  simp [opDsp, hp, hc]

theorem opDsp_outOfRange {s : State} {k v : Nat} (hp : present s 10 k = true) (hc : ctlDsp.check s [k] v = .range) :
    opDsp k v s = (.range, s) := by
  simp [opDsp, hp, hc, ifOk_of_ne]

theorem activity_outsideDrowse {s : State} (hmode : s.emb.mode ≠ .drowse) : activity s = s := by
  simp [activity, hmode]

/-- In DROWSE a module that has no request for CONNECTED asks for it (R70). -/
theorem activity_drowse {s : State} (hmode : s.emb.mode = .drowse) (hreq : ∀ r ∈ s.emb.reqs, r.target ≠ .connected) :
    activity s = reqMode s .connected (.module 4) := by
  have hnone : (s.emb.reqs.any fun r => r.target == .connected) = false := by simpa using hreq
  simp [activity, hmode, hnone]

theorem opForce_notFitted {s : State} {k : Nat} (f : Nat) (hp : present s 10 k = false) : opForce k f s = (.ok, s) := by
  simp [opForce, hp, okCmd]

theorem opForce_oneOutsideMaintenance {s : State} {k : Nat} (hp : present s 10 k = true) (hmode : s.emb.mode ≠ .maintenance) :
    opForce k 1 s = (.refusedMode, s) := by
  simp [opForce, hp, bne_iff_ne.mpr hmode, firstCode_cons_of_ne, ifOk_of_ne]

/-- FORCE 2 where it was another value: the word's other fields stay, and the converter takes note (R282, R288). -/
theorem opForce_two {s : State} {k : Nat} (hp : present s 10 k = true) (hf : rdf s ctlCvmode [k] 31 30 ≠ 2) :
    opForce k 2 s = (.ok, wr (modConv s k fun c => { c with forceNew := true }) ctlCvmode 0 [k]
      (putBits (rd s ctlCvmode [k]) (mask 31 30) (place 2 31 30))) := by
  have hfld : ¬ fld (rd s ctlCvmode [k]) 31 30 = 2 := hf
  simp [opForce, hp, hfld]

/-! ### The requests -/

/-- A request for one of the converter commands of CTL_CMD, by what its operation answers. -/
theorem runs_ctlCmd {i : Instr} {P : State → Prop} {w : Win} {op : State → Code × State} {s t : State} {c : Code}
    (hi : exec i s = .next (hostCmd w 0xA0000 (cmdReq (ctlRight w) ctlRes op) s)) (hg : Granted s w 0xA0000 rMaint)
    (hop : op s = (c, t)) (hP : P (finish (ctlRes c t) w 0xA0000 c)) : Runs i s P := by
  obtain ⟨hreach, hacc, hright⟩ := hg
  exact runs_hostCmd hi hreach hacc (cmdReq_entitled _ hright hop) hP

/-- A request of the dispatch owner for the setpoint of converter k, by what its operation answers. -/
theorem runs_dispatchSetpointWrite {P : State → Prop} {w : Win} {k : Str} {v : Word} {s t : State} {c : Code}
    (ho : AsOwner s w (ctlDsp.addr [k])) (hop : opDsp k v.toNat s = (c, t)) (hP : P (finish t w (ctlDsp.addr [k]) c)) :
    Runs (.dispatchSetpointWrite w k v) s P := by
  obtain ⟨hreach, hacc, howner⟩ := ho
  exact runs_hostCmd rfl hreach hacc (cmdReq_entitled _ howner hop) hP

/-- A request for FORCE of converter k from a window that may set the value, by what its operation answers. -/
theorem runs_forceWrite {P : State → Prop} {w : Win} {k : Str} {f : BitVec 2} {s t : State} {c : Code}
    (hreach : reachable s w = true) (hacc : accessCode s w (ctlCvmode.addr [k]) true = .ok)
    (hright : forceRight w f.toNat s = true) (hop : opForce k f.toNat s = (c, t))
    (hP : P (finish t w (ctlCvmode.addr [k]) c)) : Runs (.forceWrite w k f) s P :=
  runs_hostCmd rfl hreach hacc (cmdReq_entitled _ hright hop) hP

theorem forceRight_owner {s : State} {w : Win} {f : BitVec 2} (ho : isOwner s w = true) (hf : f ≠ 1) :
    forceRight w f.toNat s = true := by
  have hne : f.toNat ≠ 1 := fun h => hf (BitVec.eq_of_toNat_eq h)
  simp [forceRight, hne, ho]

/-- A command of CTL_CMD that answers a failure and does nothing leaves the converters. -/
theorem unchanged_refusedCtlCmd (s : State) (w : Win) (c : Code) :
    Unchanged [.ctl, .hst, .mem] s (finish (ctlRes c s) w 0xA0000 c) :=
  (unchanged_ctlRes c s).step (unchanged_finish _ _ _ _).mono

/-- Settles O33: each clause by what its operation answers in the clause's state, and the frames of the operations. -/
theorem convertersRunParkAndTakeSetpoints : Obligations.ConvertersRunParkAndTakeSetpoints := by
  unfold Obligations.ConvertersRunParkAndTakeSetpoints
  refine ⟨?run, ?runFault, ?runMode, ?parkStarted, ?parkIdle, ?resume, ?resumeMode, ?dsp, ?dspDrowse, ?dspNotFitted,
    ?forceNotFitted, ?dspRange, ?forceTwo, ?forceOne⟩
  case run =>
    intro w k s hg hon hmode hcause hst
    have hm : (conv s k).causes &&& ~~~ runClears s k = 0#8 := andNot_or_eq_zero hcause _ _
    refine runs_ctlCmd rfl hg (opConvRun_started hon hmode hm hst) ?_
    have hconv := conv_startConv_clearCauses hon hm hst
    refine ⟨lastRes_finish_ok _ _ _, by simp, ?_, ?_, ?_, ?_, fun j hj => ?_, ?_⟩
    · simp [hconv, startedConv]
    · simp
    · simp [hconv, startedConv]
    · simp [hconv, startedConv]
    · simp [conv_modConv_of_ne _ _ _ _ hj, conv_startConv_clearCauses_of_ne _ _ hj]
    · exact (unchanged_startConv_clearCauses s k _).step <| (unchanged_modConv _ k _).step <|
        (unchanged_ctlRes .ok _).step (unchanged_finish_ok _ _ _).mono
  case runFault =>
    intro w k s hg hon hmode hbit
    refine runs_ctlCmd rfl hg (opConvRun_causeHolds hon hmode (internalCause_outlasts s k hbit)) ?_
    exact ⟨lastRes_finish_failed _ _ _ (by decide) (by decide), by simp, by simp, unchanged_refusedCtlCmd s w _⟩
  case runMode =>
    intro w k s hg hon hmode
    refine runs_ctlCmd rfl hg (opConvRun_outsideMaintenance hon hmode) ?_
    exact ⟨lastRes_finish_failed _ _ _ (by decide) (by decide), by simp, unchanged_refusedCtlCmd s w _⟩
  case parkStarted =>
    intro w k s hg hon hmode hst hrun
    refine runs_ctlCmd rfl hg (opConvPark_maintenance hon hmode) ?_
    obtain ⟨hstate, hr, hother, hframe⟩ := rampDown_started hst hrun
    refine ⟨lastRes_finish_ok _ _ _, by simp, by simpa using hstate, by simpa using hr, by simpa using hother, ?_⟩
    exact hframe.step <| (unchanged_ctlRes .ok _).step (unchanged_finish_ok _ _ _).mono
  case parkIdle =>
    intro w k s hg hon hmode hst h4 hrun
    refine runs_ctlCmd rfl hg (opConvPark_maintenance hon hmode) ?_
    obtain ⟨ns, hpark⟩ := park_rampedDown hst
    rw [rampDown_notStarted hst h4 hrun, hpark]
    have hconv : conv (stopGensOn (modConv (holdConv s k) k rampedDown) ns) k = rampedDown (conv s k) := by
      rw [conv_stopGensOn, conv_modConv, conv_holdConv]
    refine ⟨lastRes_finish_ok _ _ _, ?_, ?_, ?_, fun j hj => ?_, ?_, ?_⟩
    · simp [hconv, rampedDown]
    · simp [hconv, rampedDown, setR]
    · simp [hconv, rampedDown]
    · simp [pwm_stopGensOn, held_holdConv s k j hj]
    · rw [finish_ctl, ctlRes_ctxs, ctxs_stopGensOn, modConv_ctxs, ctxs_holdConv]
    · exact (unchanged_holdConv s k).step <| (unchanged_modConv _ k _).step <| (unchanged_stopGensOn _ ns).step <|
        (unchanged_ctlRes .ok _).step (unchanged_finish_ok _ _ _).mono
  case resume =>
    intro k s haw hstr hmode hon hst hcause hrest hvalid hlease
    refine ⟨_, execConverterResume_connected haw hstr hmode hst hcause hvalid hlease, ?_⟩
    have hconv := conv_startConv_clearCauses hon hrest hst
    exact ⟨by rw [hconv]; rfl, by rw [hconv]; rfl, fun j hj => conv_startConv_clearCauses_of_ne s _ hj,
      unchanged_startConv_clearCauses s k _⟩
  case resumeMode => exact fun k s hmode => execConverterResume_outsideConnected k hmode
  case dsp =>
    intro w k v s ho hp hc hmode
    refine runs_dispatchSetpointWrite ho (opDsp_inRange hp hc) ?_
    rw [activity_outsideDrowse (s := wr s ctlDsp 0 [k] v.toNat) hmode]
    exact ⟨lastRes_finish_ok _ _ _, by simp [rd_wr_same], (unchanged_wr s _ _ _ _).step (unchanged_finish_ok _ _ _).mono⟩
  case dspDrowse =>
    intro w k v s ho hp hc hmode hreq
    refine runs_dispatchSetpointWrite ho (opDsp_inRange hp hc) ?_
    rw [activity_drowse (s := wr s ctlDsp 0 [k] v.toNat) hmode hreq]
    refine ⟨lastRes_finish_ok _ _ _, ?_, ?_, ?_⟩
    · simpa [rd] using rd_wr_same s ctlDsp [k] v
    · simp [reqMode]
    · exact (unchanged_wr s _ _ _ _).step <| (unchanged_reqMode _ _ _).step (unchanged_finish_ok _ _ _).mono
  case dspNotFitted =>
    intro w k v s ho hp
    exact runs_dispatchSetpointWrite ho (opDsp_notFitted _ hp) ⟨lastRes_finish_ok _ _ _, unchanged_finish_ok _ _ _⟩
  case forceNotFitted =>
    intro w k f s ho hp hf
    obtain ⟨hreach, hacc, howner⟩ := ho
    exact runs_forceWrite hreach hacc (forceRight_owner howner hf) (opForce_notFitted _ hp)
      ⟨lastRes_finish_ok _ _ _, unchanged_finish_ok _ _ _⟩
  case dspRange =>
    intro w k v s ho hp hc
    exact runs_dispatchSetpointWrite ho (opDsp_outOfRange hp hc)
      ⟨lastRes_finish_failed _ _ _ (by decide) (by decide), unchanged_finish _ _ _ _⟩
  case forceTwo =>
    intro w k s ho hp hf
    obtain ⟨hreach, hacc, howner⟩ := ho
    refine runs_forceWrite hreach hacc (forceRight_owner howner (by decide)) (opForce_two hp hf) ?_
    have hlow : fld (putBits (rd s ctlCvmode [k]) (mask 31 30) (place 2 31 30)) 29 0 = rdf s ctlCvmode [k] 29 0 :=
      fld_putBits_below _ _ (by decide) (by decide)
    have hhigh : fld (putBits (rd s ctlCvmode [k]) (mask 31 30) (place 2 31 30)) 31 30 = 2 := fld_putBits_same _ _ (by decide)
    refine ⟨lastRes_finish_ok _ _ _, ?_, ?_, by simp, by simp, ?_⟩
    · exact (rdf_finish _ _ _ _ _ _ _ _).trans ((rdf_wr_same _ _ _ _ (by decide)).trans hhigh)
    · exact (rdf_finish _ _ _ _ _ _ _ _).trans ((rdf_wr_same _ _ _ _ (by decide)).trans hlow)
    · exact (unchanged_modConv s k _).step <| (unchanged_wr _ _ _ _ _).step (unchanged_finish_ok _ _ _).mono
  case forceOne =>
    intro w k s hg hp hmode
    obtain ⟨hreach, hacc, hright⟩ := hg
    exact runs_forceWrite hreach hacc hright (opForce_oneOutsideMaintenance hp hmode)
      ⟨lastRes_finish_failed _ _ _ (by decide) (by decide), unchanged_finish _ _ _ _⟩

end Sys2Proof.Machine
end

section
/-!
SUPPORT. The end of a Cord verification that no other command waits for, and the frames of the switch of an online change;
then the statement on both (R82, R85, R373 to R375).
-/

namespace Sys2Proof.Machine

/-! ### The end of a verification -/

/-- No relay transfer and no fallback waits for the verification that has ended. -/
theorem verifyNext_noneWaits {s : State} (hrx : s.upd.rx.state ≠ 3) (hfb : s.upd.fbDue = false) : verifyNext s = s := by
  simp [verifyNext, hrx, hfb]

/-- What a host's verification of a slot leaves: its report, and for the incoming slot INC_VALID (R85). -/
def verifiedAlone (s : State) (b : BootFacts) (v : VerifyFor) : State :=
  let r := cordCheck s b.facts b.content (verifyImage s v)
  setIncValid (crdReport { s with crd := { s.crd with verifying := none } } r) v (reported r.2)

theorem execVerificationComplete_alone {s : State} (b : BootFacts) {v : VerifyFor} (haw : awake s = true)
    (hv : s.crd.verifying = some v) (halone : v = .verifyIncoming ∨ v = .verifyRunning) (hrx : s.upd.rx.state ≠ 3)
    (hfb : s.upd.fbDue = false) : exec (.verificationComplete b) s = .next (verifiedAlone s b v) := by
  change execVerificationComplete b s = _
  have hnext : verifyNext (verifiedAlone s b v) = verifiedAlone s b v := by
    rcases halone with rfl | rfl <;> exact verifyNext_noneWaits hrx hfb
  rcases halone with rfl | rfl <;> simp only [execVerificationComplete, hv, haw] <;> exact congrArg _ hnext

theorem unchanged_verifiedAlone (s : State) (b : BootFacts) {v : VerifyFor}
    (halone : v = .verifyIncoming ∨ v = .verifyRunning) : Unchanged [.crd] s (verifiedAlone s b v) := by
  intro p hp
  rcases halone with rfl | rfl <;> cases p <;> simp [Same, verifiedAlone, setIncValid, crdReport] at hp ⊢

/-! ### OLC_APPLY -/

/-- In a mode of R373, with no change, verification, confirmation or fallback under way, the verification begins. -/
theorem opOlcApply_begins {s : State} (w : Win)
    (hmode : s.emb.mode = .standby ∨ s.emb.mode = .connected ∨ s.emb.mode = .maintenance ∨ s.emb.mode = .safeStop)
    (holc : s.lgc.olc = none) (hver : s.crd.verifying = none) (hconf : s.upd.confRun = false) (hfb : s.upd.fbDue = false) :
    opOlcApply w s = (.busy, { s with crd := { s.crd with verifying := some (.olc w) } }) := by
  rcases hmode with hmode | hmode | hmode | hmode <;> simp [opOlcApply, hmode, holc, hver, hconf, hfb]

theorem opOlcApply_refusedMode {s : State} (w : Win)
    (hmode : s.emb.mode = .drowse ∨ s.emb.mode = .precharge ∨ s.emb.mode = .configure) :
    opOlcApply w s = (.refusedMode, s) := by
  have hclosed : (s.emb.mode == .standby || s.emb.mode == .connected || s.emb.mode == .maintenance ||
      s.emb.mode == .safeStop) = false := by
    rcases hmode with hmode | hmode | hmode <;> rw [hmode] <;> rfl
  simp only [opOlcApply, hclosed, Bool.not_false, when_true]
  rw [firstCode_cons_of_ne _ (by decide), ifOk_of_ne _ _ (by decide)]

/-- The request answers what its operation does, but OK where the change begins and LGC_RES reads BUSY (R373). -/
theorem olcReq_entitled {s t : State} {w : Win} {c : Code} (hright : hasRight s w rCfg = true) (hop : opOlcApply w s = (c, t)) :
    olcReq w s =
      (if c = .busy ∧ (s.lgc.olc.isNone && s.crd.verifying.isNone && !s.upd.confRun && !s.upd.fbDue) = true then .ok else c,
        lgcRes c t) := by
  have hr : lgcRight w 4 s = true := hright
  simp [olcReq, hr, hop]

theorem unchanged_lgcRes (c : Code) (s : State) : Unchanged [.lgc] s (lgcRes c s) := unchanged_modLgc s _

/-! ### The switch -/

theorem unchanged_connectString (s : State) (k : Nat) : Unchanged [.saf] s (connectString s k) :=
  (unchanged_modSo s _ _).trans <| (unchanged_modSo _ _ _).trans (unchanged_modCtr _ k _)

theorem unchanged_openString (s : State) (k : Nat) : Unchanged [.saf] s (openString s k) :=
  (unchanged_modSo s _ _).trans <| (unchanged_modSo _ _ _).trans <| (unchanged_modSo _ _ _).trans (unchanged_modCtr _ k _)

theorem unchanged_liveTests (s : State) : Unchanged [.saf] s (liveTests s) := by
  unfold liveTests
  split
  · refine .foldl (fun s k => ?_) _ s
    dsimp only
    split
    · exact unchanged_connectString s k
    · split
      · exact unchanged_openString s k
      · exact .refl _ s
  · exact .refl _ s

theorem unchanged_syncAux (s : State) : Unchanged [.saf] s (syncAux s) := by
  refine (Unchanged.foldl (fun s j => ?_) (List.range 16) s).trans (unchanged_liveTests _)
  split
  · exact .refl _ s
  · exact unchanged_modSo s j _

theorem unchanged_liveSet (s : State) (key : Nat) (b : Bool) : Unchanged [.lgc] s (liveSet s key b) := unchanged_modLgc s _

theorem unchanged_applyOutForces (s : State) : Unchanged [.lgc] s (applyOutForces s) := by
  refine .foldl (fun s f => ?_) _ s
  split
  · exact .foldl (fun s p => unchanged_liveSet s _ _) _ s
  · exact .refl _ s

theorem unchanged_zeroOuts (s : State) (keys : List Nat) : Unchanged [.lgc, .saf] s (zeroOuts s keys) :=
  (Unchanged.foldl (fun s k => unchanged_liveSet s k false) keys s).step <|
    (unchanged_applyOutForces _).step (unchanged_syncAux _).mono

theorem unchanged_loadTaskRegs (s : State) (t : Nat) (i : TaskImage) : Unchanged [.regs] s (loadTaskRegs s t i) :=
  (unchanged_wr s _ _ _ _).trans <| (unchanged_wr _ _ _ _ _).trans (unchanged_wr _ _ _ _ _)

theorem unchanged_switchTask (old new : List (Nat × TaskImage)) (s : State) (t : Nat) :
    Unchanged [.regs, .lgc] s (switchTask old new s t) := by
  unfold switchTask
  dsimp only
  split
  · split
    · exact .refl _ s
    · exact (unchanged_wr s _ _ _ _).step (unchanged_modTask _ t _).mono
  · split
    · exact .refl _ s
    · exact (unchanged_loadTaskRegs s t _).step (unchanged_modTask _ t _).mono

theorem unchanged_lgcSwitch (s : State) (old new : List (Nat × TaskImage)) :
    Unchanged [.regs, .lgc, .saf] s (lgcSwitch s old new) :=
  (Unchanged.foldl (unchanged_switchTask old new) (List.range 16) s).step <| (unchanged_modLgc _ _).step <|
    (unchanged_modLgc _ _).step (unchanged_zeroOuts _ _).mono

theorem unchanged_rotate (s : State) : Unchanged [.crd] s (rotate s) := unchanged_setCrd s _

theorem unchanged_olcEnd (s : State) (c : Code) (n : Nat) : Unchanged [.lgc] s (olcEnd s c n) := unchanged_modLgc s _

/-- The Cord runs with other task code. -/
def withTasks (s : State) (c : CordContent) (new : List (Nat × TaskImage)) : State :=
  { s with crd := { s.crd with content := some { c with tasks := new } } }

theorem unchanged_withTasks (s : State) (c : CordContent) (new : List (Nat × TaskImage)) :
    Unchanged [.crd] s (withTasks s c new) := unchanged_setCrd s _

/-- The state at the switch, before the slots rotate: the new code runs, and the change has its AUDIT record (R374). -/
def switchedCode (s : State) (c : CordContent) : State :=
  let u := withTasks (lgcSwitch s c.tasks s.lgc.olcNew) c s.lgc.olcNew
  auditAuto u .logicChange bLGC
    (bothSeqs u.crd.running u.crd.incoming ++ leB 2 ((forcesOf u).filter (·.orphan)).length)

theorem switchedCode_crd (s : State) (c : CordContent) :
    (switchedCode s c).crd = { s.crd with content := some { c with tasks := s.lgc.olcNew } } := by
  have hcrd : (lgcSwitch s c.tasks s.lgc.olcNew).crd = s.crd := unchanged_lgcSwitch s _ _ .crd (by decide)
  simp [switchedCode, withTasks, hcrd]

theorem unchanged_switchedCode (s : State) (c : CordContent) :
    Unchanged [.regs, .mem, .crd, .saf, .lgc, .hst, .kln, .recd] s (switchedCode s c) :=
  (unchanged_lgcSwitch s _ _).step <| (unchanged_withTasks _ c _).step (unchanged_auditAuto _ _ _ _).mono

/-- OLC_SWITCH at a quiet instant with a valid incoming slot (R374). -/
theorem execOlcSwitch_quiet {s : State} {w : Win} {t0 : Nat} {c : CordContent} (holc : s.lgc.olc = some (w, t0))
    (hcord : s.crd.content = some c) (haw : awake s = true) (hquiet : quietInstant s = true) (hinc : s.crd.incValid = true) :
    exec .olcSwitch s = .next (olcEnd (rotate (modLgc (switchedCode s c) fun l => { l with codeTop := !l.codeTop }))
      .ok ((s.now - t0) / 1000)) := by
  rw [← show (switchedCode s c).now = s.now from unchanged_switchedCode s c .now (by decide)]
  change execOlcSwitch s = _
  simp only [execOlcSwitch, holc, hcord, haw, hquiet, hinc, Bool.not_true, Bool.false_eq_true, or_self, if_false,
    switchedCode, withTasks]

theorem execOlcSwitch_busyInstant {s : State} (hquiet : quietInstant s = false) : exec .olcSwitch s = .next s := by
  change execOlcSwitch s = _
  unfold execOlcSwitch
  split
  · simp [hquiet]
  · rfl

/-- OLC_TIMEOUT after 1 s without a quiet instant (R375). -/
theorem execOlcTimeout_due {s : State} {w : Win} {t0 : Nat} (holc : s.lgc.olc = some (w, t0)) (haw : awake s = true)
    (hdue : t0 + 1000000 ≤ s.now) :
    ∃ b, exec .olcTimeout s = .next (stage (olcEnd s .busy 1000) .logicChangeRefused bLGC sevNotice b) := by
  refine ⟨bothSeqs s.crd.running s.crd.incoming, ?_⟩
  change execOlcTimeout s = _
  simp [execOlcTimeout, holc, haw, hdue, olcEnd]

/-- Settles O19: the report of a verification, what OLC_APPLY answers, and the switch through the frames of its parts. -/
theorem verificationsAndOnlineChangesEnd : Obligations.VerificationsAndOnlineChangesEnd := by
  unfold Obligations.VerificationsAndOnlineChangesEnd
  refine ⟨⟨?incoming, ?running, ?none⟩, ?apply, ?applyMode, ?switch, ?notQuiet, ?timeout⟩
  case incoming =>
    intro b s haw hv hrx hfb
    refine ⟨_, execVerificationComplete_alone b haw hv (.inl rfl) hrx hfb, ?_⟩
    exact ⟨rfl, rfl, rfl, rfl, rfl, rfl, rfl, unchanged_verifiedAlone s b (.inl rfl)⟩
  case running =>
    intro b s haw hv hrx hfb
    refine ⟨_, execVerificationComplete_alone b haw hv (.inr rfl) hrx hfb, ?_⟩
    exact ⟨rfl, rfl, rfl, rfl, rfl, unchanged_verifiedAlone s b (.inr rfl)⟩
  case none =>
    intro b s hv
    change execVerificationComplete b s = _
    simp [execVerificationComplete, hv]
  case apply =>
    intro w s hg hmode holc hver hconf hfb
    obtain ⟨hreach, hacc, hright⟩ := hg
    have hreq := olcReq_entitled hright (opOlcApply_begins w hmode holc hver hconf hfb)
    simp only [holc, hver, hconf, hfb, Option.isNone_none, Bool.not_false, Bool.and_self, and_self, if_true] at hreq
    refine runs_hostCmd rfl hreach hacc hreq ?_
    refine ⟨lastRes_finish_ok _ _ _, by simp [lgcRes], by simp [lgcRes, modLgc], by simp [lgcRes, modLgc], ?_⟩
    exact (unchanged_setCrd s _).step <| (unchanged_lgcRes _ _).step (unchanged_finish_ok _ _ _).mono
  case applyMode =>
    intro w s hg hmode
    obtain ⟨hreach, hacc, hright⟩ := hg
    refine runs_hostCmd rfl hreach hacc (olcReq_entitled hright (opOlcApply_refusedMode w hmode)) ?_
    simp only [reduceCtorEq, false_and, if_false]
    refine ⟨lastRes_finish_failed _ _ _ (by decide) (by decide), by simp [lgcRes, modLgc], by simp [lgcRes], ?_⟩
    exact (unchanged_lgcRes _ s).step (unchanged_finish _ _ _ _).mono
  case switch =>
    intro w t0 c s holc hcord haw hquiet hinc
    have hframe := (unchanged_switchedCode s c).step <| (unchanged_modLgc _ fun l => { l with codeTop := !l.codeTop }).step <|
      (unchanged_rotate _).step (m := [.regs, .kept, .mem, .crd, .saf, .lgc, .hst, .kln, .recd])
        (unchanged_olcEnd _ .ok ((s.now - t0) / 1000)).mono
    refine ⟨_, execOlcSwitch_quiet holc hcord haw hquiet hinc, rfl, rfl, rfl, ?_, rfl, ?_, ?_, hframe .emb (by decide), hframe⟩
    all_goals simp [olcEnd, rotate, switchedCode_crd]
  case notQuiet => exact fun s hquiet => execOlcSwitch_busyInstant hquiet
  case timeout =>
    intro w t0 s holc haw hdue
    obtain ⟨b, hexec⟩ := execOlcTimeout_due holc haw hdue
    refine ⟨_, hexec, ?_, ?_, ?_, ?_, (unchanged_olcEnd s _ _).step (unchanged_stage _ _ _ _ _).mono⟩
    all_goals simp [olcEnd, modLgc]

end Sys2Proof.Machine
end

section
/-!
SUPPORT. A state in which the read of TIM_NOW_LO does not latch the upper half of the module time, against the last clause
of the statement on register accesses.
-/

namespace Sys2Proof.Machine

/-- A Cord that lets window W0 read the TIM page, and whose Structure billet names part 0 of kind 0 among the disabled
ones. Kind 0 is that of the registers which belong to no part that a variant may leave out. -/
def kindZeroDisabled : CordContent :=
  { regs := [], owner := 0, parts := [], routes := [], events := [], tasks := [], est := []
    windows := { transport := .qspiA, quad := false, rights := 5, access := [(0x12, .read)] } ::
      List.replicate 3 { transport := .none, quad := false, rights := 0, access := [] }
    retained := [(0, 0x100000), (0x100000, 0x100000), (0x200000, 0x100000), (0x300000, 0x10000), (0x400000, 0x40000),
      (0x800000, 6912 * 1024)]
    safety := { funcs := [], inputs := [], outputs := [], loops := [], therms := [], conns := [], terms := [] }
    disabled := [(0, 0)] }

/-- Such a Cord can come to run: its content is well-formed, and the checks of stage 4 find no fault with it (R83). -/
theorem kindZeroDisabled_passes : kindZeroDisabled.wf = true ∧ stage4 State.reset { content := [] } kindZeroDisabled [] = [] := by
  decide +kernel

/-- The module awake in STANDBY under that Cord, at a module time of 2^32 ns. -/
def kindZeroState : State :=
  { State.reset with
    emb := { State.reset.emb with power := .on, mode := .standby }
    crd := { State.reset.crd with content := some kindZeroDisabled }
    tim := { State.reset.tim with now := 0x100000000 } }

/-- A register of a part that is not enabled reads 0 (R5); with kind 0 disabled so does TIM_NOW_HI, and that 0 is what
the read of TIM_NOW_LO latches. -/
theorem latch_kindZeroState : tget none (win (readReq 0 0x120008 4 kindZeroState).2.2 0).latch 0x120008 = some 0 := by
  decide +kernel

/-- Refutes O6: its last clause fails under a Cord whose Structure billet disables part 0 of kind 0, where a read of
TIM_NOW_LO latches 0 and the clause asks for the upper half of the module time, which is 1. -/
theorem not_registerAccessOfAWindow : ¬ Obligations.RegisterAccessOfAWindow := by
  unfold Obligations.RegisterAccessOfAWindow
  rintro ⟨-, -, -, -, -, -, -, -, -, -, -, -, -, htime⟩
  have hreach : reachable kindZeroState 0 = true := by decide
  have hacc : accessCode kindZeroState 0 0x120008 false = .ok := by decide
  obtain ⟨t, hexec, hlatch, -⟩ := htime 0 kindZeroState hreach hacc
  have hread : exec (.loReadLatch 0 0x120008) kindZeroState = .next (readReq 0 0x120008 4 kindZeroState).2.2 :=
    congrArg _ (if_pos ⟨hreach, by decide⟩)
  obtain rfl : (readReq 0 0x120008 4 kindZeroState).2.2 = t := Host.Outcome.next.inj (hread.symm.trans hexec)
  have hhalf : (0 : Word) = wd (kindZeroState.tim.now.toNat / 2 ^ 32) := Option.some.inj (latch_kindZeroState.symm.trans hlatch)
  exact absurd hhalf (by decide)

end Sys2Proof.Machine
end

section
/-!
SUPPORT. What the module's own entries in a loop's queue leave, what the balancing commands come to, and what one run of
the balancing sequencer does; then the statement on balancing (R158 to R165).
-/

namespace Sys2Proof.Machine

/-! ### Frames of the chain's operations -/

theorem unchanged_modLp (s : State) (k : Nat) (f : LoopS → LoopS) : Unchanged [.chn] s (modLp s k f) := by
  intro p hp
  cases p <;> simp [Same] at hp ⊢

theorem unchanged_swpRes (c : Code) (s : State) : Unchanged [.chn] s (swpRes c s) := by
  intro p hp
  cases p <;> simp [Same, swpRes] at hp ⊢

theorem unchanged_supplyEc (s : State) (k : Nat) : Unchanged [.est] s (supplyEc s k) := by
  intro p hp
  cases p <;> simp [Same, supplyEc, mapCells] at hp ⊢

/-! ### Readings that the operations leave -/

@[simp] theorem lp_finish (s : State) (w a : Nat) (c : Code) (j : Nat) : lp (finish s w a c) j = lp s j := by
  simp [lp]

@[simp] theorem lp_swpRes (c : Code) (s : State) (j : Nat) : lp (swpRes c s) j = lp s j := rfl

@[simp] theorem lp_supplyEc (s : State) (k j : Nat) : lp (supplyEc s k) j = lp s j := rfl

@[simp] theorem swpRes_res (c : Code) (s : State) : (swpRes c s).chn.swpRes = c := rfl

theorem balStopped_of_balHalted {s : State} {k : Nat} (h : (lp s k).balHalted = true) : balStopped s k = true := by
  simp [balStopped, h]

/-! ### The queue of a loop -/

/-- The loop with one more item at the end of its queue. -/
def appendItem (s : State) (k : Nat) (i : ChainItem) : State := modLp s k fun l => { l with queue := l.queue ++ [i] }

@[simp] theorem lp_appendItem (s : State) (k : Nat) (i : ChainItem) :
    lp (appendItem s k i) k = { lp s k with queue := (lp s k).queue ++ [i] } := lp_modLp s k _

theorem unchanged_appendItem (s : State) (k : Nat) (i : ChainItem) : Unchanged [.chn] s (appendItem s k i) :=
  unchanged_modLp s k _

theorem enqueueOwn_of_room {s : State} {k : Nat} (i : ChainItem) (h : queued (lp s k) < 16) :
    enqueueOwn s k i = appendItem s k i := by
  simp [enqueueOwn, enqueue, appendItem, Nat.not_le.mpr h]

/-- On a full queue nothing is queued; otherwise the item is appended. -/
theorem enqueueOwn_cases (s : State) (k : Nat) (i : ChainItem) :
    enqueueOwn s k i = s ∨ enqueueOwn s k i = appendItem s k i := by
  by_cases h : queued (lp s k) < 16
  · exact .inr (enqueueOwn_of_room i h)
  · exact .inl (by simp [enqueueOwn, enqueue, Nat.not_lt.mp h])

theorem queued_appendItem_le (s : State) (k : Nat) (i : ChainItem) :
    queued (lp (appendItem s k i) k) ≤ queued (lp s k) + 1 := by
  have hlen : ([i].filter fun i => i.rank != 10).length ≤ 1 := List.length_filter_le _ [i]
  simp only [lp_appendItem, queued, List.filter_append, List.length_append]
  omega

/-! ### BAL_SET of zero durations (R160) -/

/-- Where the loop does not sweep, or its queue is full, nothing is queued; otherwise one item is. -/
theorem sendBalZero_cases (s : State) (k : Nat) : sendBalZero s k = s ∨ ∃ i, sendBalZero s k = appendItem s k i := by
  by_cases hsw : sweeps (lp s k) = true
  · obtain h | h := enqueueOwn_cases s k _
    · exact .inl ((if_pos hsw).trans h)
    · exact .inr ⟨_, (if_pos hsw).trans h⟩
  · exact .inl (if_neg hsw)

theorem unchanged_sendBalZero (s : State) (k : Nat) : Unchanged [.chn] s (sendBalZero s k) := by
  obtain h | ⟨i, h⟩ := sendBalZero_cases s k <;> rw [h]
  · exact .refl _ s
  · exact unchanged_appendItem s k i

theorem balHalted_sendBalZero (s : State) (k : Nat) : (lp (sendBalZero s k) k).balHalted = (lp s k).balHalted := by
  obtain h | ⟨i, h⟩ := sendBalZero_cases s k <;> rw [h]
  rw [lp_appendItem]

/-- On a CLOSED loop one broadcast from the A end reaches every unit. -/
theorem sendBalZero_closed {s : State} {k : Nat} (hst : (lp s k).state = .closed) (hroom : queued (lp s k) < 16) :
    sendBalZero s k = appendItem s k
      { rank := 63, cmds := [(0, bcast true 0x07 (BitVec.ofNat 8 (lp s k).n :: List.replicate 32 0))] } := by
  simp [sendBalZero, sweeps, aLast, hst, enqueueOwn_of_room _ hroom]

/-! ### BAL_HALT and BAL_RESUME -/

/-- The loop's halt by BAL_HALT set or cleared. -/
def setBalHalted (s : State) (k : Nat) (b : Bool) : State := modLp s k fun l => { l with balHalted := b }

@[simp] theorem lp_setBalHalted (s : State) (k : Nat) (b : Bool) :
    lp (setBalHalted s k b) k = { lp s k with balHalted := b } := lp_modLp s k _

theorem queued_setBalHalted (s : State) (k : Nat) (b : Bool) : queued (lp (setBalHalted s k b) k) = queued (lp s k) := by
  rw [lp_setBalHalted]
  rfl

theorem unchanged_setBalHalted (s : State) (k : Nat) (b : Bool) : Unchanged [.chn] s (setBalHalted s k b) :=
  unchanged_modLp s k _

theorem opBalHalt_drowse {s : State} {k : Nat} (hon : loopOn s k = true) (hmode : s.emb.mode = .drowse) :
    opBalHalt k s = (.ok, setBalHalted s k true) := by
  simp [opBalHalt, setBalHalted, hon, hmode]

theorem opBalHalt_outsideDrowse {s : State} {k : Nat} (hon : loopOn s k = true) (hmode : s.emb.mode ≠ .drowse) :
    opBalHalt k s = (.ok, sendBalZero (setBalHalted s k true) k) := by
  simp [opBalHalt, setBalHalted, hon, hmode]

theorem opBalResume_loopOn {s : State} {k : Nat} (hon : loopOn s k = true) :
    opBalResume k s = (.ok, setBalHalted s k false) := by
  simp [opBalResume, setBalHalted, hon]

/-- A request for a command of SWP_CMD, by what its operation answers. -/
theorem runs_swpCmd {i : Instr} {P : State → Prop} {w : Win} {op : State → Code × State} {s t : State} {c : Code}
    (hi : exec i s = .next (hostCmd w 0x50000 (cmdReq (swpRight w) swpRes op) s))
    (hg : Granted s w 0x50000 rMaint ∨ Granted s w 0x50000 rCfg) (hop : op s = (c, t))
    (hP : P (finish (swpRes c t) w 0x50000 c)) : Runs i s P := by
  obtain ⟨hreach, hacc, hright⟩ | ⟨hreach, hacc, hright⟩ := hg
  all_goals exact runs_hostCmd hi hreach hacc (cmdReq_entitled _ (by simp [swpRight, rightAny, hright]) hop) hP

/-- A command of SWP_CMD that answers OK, after an operation on the chain alone. -/
theorem unchanged_swpCmd_ok {s t : State} (w : Win) (h : Unchanged [.chn] s t) :
    Unchanged [.chn, .hst] s (finish (swpRes .ok t) w 0x50000 .ok) :=
  h.step <| (unchanged_swpRes .ok t).step (unchanged_finish_ok _ _ _).mono

/-! ### A run of the balancing sequencer (R158, R161, R165) -/

/-- The time of the loop's last balancing run is now. -/
def noteBalRun (s : State) (k : Nat) : State := modLp s k fun l => { l with lastBal := s.now }

@[simp] theorem lp_noteBalRun (s : State) (k : Nat) : lp (noteBalRun s k) k = { lp s k with lastBal := s.now } :=
  lp_modLp s k _

theorem queued_noteBalRun (s : State) (k : Nat) : queued (lp (noteBalRun s k) k) = queued (lp s k) := by
  rw [lp_noteBalRun]
  rfl

theorem readBalItem_noteBalRun (s : State) (k : Nat) : readBalItem (lp (noteBalRun s k) k) = readBalItem (lp s k) := by
  rw [lp_noteBalRun]
  rfl

theorem unchanged_noteBalRun (s : State) (k : Nat) : Unchanged [.chn] s (noteBalRun s k) := unchanged_modLp s k _

theorem opc_balSetItem (s : State) (k : Nat) : ∀ c ∈ (balSetItem s k).cmds, c.2.opc = 0x07 := by
  intro c hc
  obtain ⟨p, -, rfl⟩ := List.mem_map.mp hc
  rfl

/-- A run in the modes of R158 up to its BAL_SET: E_c is supplied, and the read of the bleed charge is queued. -/
def bleedRead (s : State) (k : Nat) : State :=
  appendItem (supplyEc (noteBalRun s k) k) k (readBalItem (lp s k))

@[simp] theorem lp_bleedRead (s : State) (k : Nat) : lp (bleedRead s k) k =
    { lp s k with lastBal := s.now, queue := (lp s k).queue ++ [readBalItem (lp s k)] } := by
  rw [bleedRead, lp_appendItem, lp_supplyEc, lp_noteBalRun]

theorem unchanged_bleedRead (s : State) (k : Nat) : Unchanged [.chn, .est] s (bleedRead s k) :=
  (unchanged_noteBalRun s k).step <| (unchanged_supplyEc _ k).step (unchanged_appendItem _ k _).mono

/-- In the modes of R158, unless balancing is stopped: the read of the bleed charge, then BAL_SET. -/
theorem execBalanceRun_balMode {s : State} {k : Str} (hawake : awake s = true) (hon : loopOn s k = true)
    (hdue : (lp s k).lastBal + 1000000 * rdf s swpBcfg [k] 11 0 ≤ s.now) (hmode : balMode s.emb.mode = true)
    (hember : s.emb.emberAt = none) (hgo : balStopped s k = false) (hsw : sweeps (lp s k) = true)
    (hroom : queued (lp s k) < 15) :
    execBalanceRun k s = .next (appendItem (bleedRead s k) k (balSetItem (bleedRead s k) k)) := by
  have hq : queued (lp (supplyEc (noteBalRun s k) k) k) < 15 := by rwa [lp_supplyEc, queued_noteBalRun]
  have hread : enqueueOwn (supplyEc (noteBalRun s k) k) k (readBalItem (lp (noteBalRun s k) k)) = bleedRead s k := by
    rw [enqueueOwn_of_room _ (Nat.lt_succ_of_lt hq), readBalItem_noteBalRun, bleedRead]
  have hset : enqueueOwn (bleedRead s k) k (balSetItem (bleedRead s k) k) =
      appendItem (bleedRead s k) k (balSetItem (bleedRead s k) k) :=
    enqueueOwn_of_room _ (Nat.lt_of_le_of_lt (queued_appendItem_le _ _ _) (Nat.succ_lt_succ hq))
  rw [← hset, ← hread]
  simp [execBalanceRun, noteBalRun, hawake, hon, Nat.not_lt.mpr hdue, hmode, hember, hgo, hsw]

/-- In DROWSE: the read of the bleed charge alone. -/
theorem execBalanceRun_drowse {s : State} {k : Str} (hawake : awake s = true) (hon : loopOn s k = true)
    (hdue : (lp s k).lastBal + 1000000 * rdf s swpBcfg [k] 11 0 ≤ s.now) (hmode : s.emb.mode = .drowse)
    (hsw : sweeps (lp s k) = true) (hroom : queued (lp s k) < 16) :
    execBalanceRun k s = .next (appendItem (noteBalRun s k) k (readBalItem (lp s k))) := by
  have hread : enqueueOwn (noteBalRun s k) k (readBalItem (lp (noteBalRun s k) k)) =
      appendItem (noteBalRun s k) k (readBalItem (lp s k)) := by
    rw [enqueueOwn_of_room _ (by rwa [queued_noteBalRun]), readBalItem_noteBalRun]
  rw [← hread]
  simp [execBalanceRun, noteBalRun, balMode, hawake, hon, Nat.not_lt.mpr hdue, hmode, hsw]

theorem execBalanceRun_stopped {s : State} {k : Str} (hstop : balStopped s k = true) (hmode : s.emb.mode ≠ .drowse) :
    execBalanceRun k s = .next s := by
  simp [execBalanceRun, hstop, hmode]

/-- Settles O24: each command by what its operation answers, each run by what it queues, and the frames of the operations. -/
theorem balancingRunsByPeriod : Obligations.BalancingRunsByPeriod := by
  unfold Obligations.BalancingRunsByPeriod
  refine ⟨?halt, ?resume, ?run, ?runDrowse, ?runStopped⟩
  case halt =>
    intro w k s hg hon
    by_cases hmode : s.emb.mode = .drowse
    · refine runs_swpCmd rfl hg (opBalHalt_drowse hon hmode) ?_
      exact ⟨lastRes_finish_ok _ _ _, by simp, by simp, balStopped_of_balHalted (by simp), fun _ => by simp,
        fun hne => absurd hmode hne, unchanged_swpCmd_ok w (unchanged_setBalHalted s k true)⟩
    · refine runs_swpCmd rfl hg (opBalHalt_outsideDrowse hon hmode) ?_
      have hhalt : (lp (sendBalZero (setBalHalted s k true) k) k).balHalted = true := by simp [balHalted_sendBalZero]
      refine ⟨lastRes_finish_ok _ _ _, by simp, by simpa using hhalt, balStopped_of_balHalted (by simpa using hhalt),
        fun h => absurd h hmode, fun _ hst hroom => ?_, ?_⟩
      · rw [sendBalZero_closed (by simpa using hst) (by rwa [queued_setBalHalted])]
        exact ⟨_, by rw [lp_finish, lp_swpRes, lp_appendItem, lp_setBalHalted], rfl⟩
      · exact unchanged_swpCmd_ok w <| (unchanged_setBalHalted s k true).trans (unchanged_sendBalZero _ k)
  case resume =>
    intro w k s hg hon
    refine runs_swpCmd rfl hg (opBalResume_loopOn hon) ?_
    exact ⟨lastRes_finish_ok _ _ _, by simp, by simp, by simp, unchanged_swpCmd_ok w (unchanged_setBalHalted s k false)⟩
  case run =>
    intro k s hawake hon hdue hmode hember hgo hsw hroom
    refine ⟨_, execBalanceRun_balMode hawake hon hdue hmode hember hgo hsw hroom, by simp,
      ⟨balSetItem (bleedRead s k) k, ?_, opc_balSetItem _ k⟩, ?_⟩
    · rw [lp_appendItem, lp_bleedRead]
      exact List.append_assoc _ _ _
    · exact (unchanged_bleedRead s k).trans (unchanged_appendItem _ k _).mono
  case runDrowse =>
    intro k s hawake hon hdue hmode hsw hroom
    exact ⟨_, execBalanceRun_drowse hawake hon hdue hmode hsw hroom, by simp, by simp,
      (unchanged_noteBalRun s k).trans (unchanged_appendItem _ k _)⟩
  case runStopped => exact fun k s _ hstop hmode => execBalanceRun_stopped hstop hmode

end Sys2Proof.Machine
end
